-- ==== Sys2Proof/Word.lean ====
section
/-! DEFINITION. The word types that the whole model uses. -/

namespace Sys2Proof

/-- A byte of memory. -/
abbrev Byte := BitVec 8

/-- A 32-bit word: one lane of a v register, one granule, one FP32 pattern. -/
abbrev W32 := BitVec 32

/-- A 64-bit word: a scalar register, a global address, a reference. -/
abbrev W64 := BitVec 64

end Sys2Proof
end

