-- ==== Sys2Proof/Syntax.lean ====
section
/-! DEFINITION. The commands of the device: one constructor of `Instr` per row of spec/opcode_table.json, and the
payloads they carry. A tile command names the physical tile `n` whose slot issues it and carries the fields of its
slot's encoding (R61, R84, R95, R121, R147); an event carries what the event brings to the device. -/

namespace Sys2Proof

/-- The fields of a scalar slot (R61). -/
structure ScF where
  d : BitVec 5
  a : BitVec 5
  b : BitVec 5
  x : BitVec 9
  imm : BitVec 32
  deriving DecidableEq, Repr

/-- The fields of a matrix slot (R84). -/
structure MxF where
  acc : BitVec 2
  sb : BitVec 1
  h : BitVec 1
  z : BitVec 1
  f : BitVec 5
  a : BitVec 5
  b : BitVec 5
  l : BitVec 3
  row : BitVec 7
  c : BitVec 5
  off : BitVec 21
  deriving DecidableEq, Repr

/-- The fields of a vector slot (R95). -/
structure VeF where
  vd : BitVec 5
  va : BitVec 5
  vb : BitVec 5
  vc : BitVec 5
  km : BitVec 3
  mz : BitVec 1
  f : BitVec 5
  ga : BitVec 5
  gb : BitVec 5
  l : BitVec 3
  sub : BitVec 6
  imm : BitVec 32
  deriving DecidableEq, Repr

/-- The fields of a load or store slot (R121). -/
structure LsF where
  sv : BitVec 1
  sem : BitVec 6
  ga : BitVec 5
  gb : BitVec 5
  gc : BitVec 5
  tv : BitVec 1
  toll : BitVec 6
  imm : BitVec 13
  deriving DecidableEq, Repr

/-- Format A of the sync slot (R147). -/
structure SyA where
  sem : BitVec 6
  n : BitVec 16
  deriving DecidableEq, Repr

/-- Format B of the sync slot (R147). -/
structure SyB where
  ga : BitVec 5
  n : BitVec 8
  deriving DecidableEq, Repr

/-- Format C of the sync slot (R147). -/
structure SyC where
  bp : BitVec 3
  deriving DecidableEq, Repr

/-- Format D of the sync slot (R147); `len` holds entries − 1. -/
structure SyD where
  oc : BitVec 4
  len : BitVec 2
  ga : BitVec 5
  sv : BitVec 1
  sem : BitVec 6
  deriving DecidableEq, Repr

/-- Format E of the sync slot (R147). -/
structure SyE where
  vd : BitVec 5
  gd : BitVec 5
  mask : BitVec 16
  deriving DecidableEq, Repr

/-- A 64-byte unit with its poison bit (R119): the granularity of HBM, the die-to-die port and Caravan flits. -/
structure Unit64 where
  bytes : List Byte
  poison : Bool
  deriving DecidableEq, Repr

/-- A 4-byte granule with its poison bit (R116, R119): the granularity of the scratchpad and the die network. -/
structure Gran where
  bits : W32
  poison : Bool
  deriving DecidableEq, Repr

/-- A remote write on its way over the die network (R136): the sending engine's stream (its physical tile), the
receiving physical tile, the first byte address and the granules in order. -/
structure InWrite where
  stream : Nat
  tile : Nat
  addr : Nat
  data : List Gran
  deriving DecidableEq, Repr

/-- A remote signal on its way to a semaphore of this chip (R153): `stream` is `some n` for a `st.post` of physical
tile n, which is ordered behind that tile's store stream (R137), and `none` for every other signal. -/
structure InSignal where
  stream : Option Nat
  ref : W64
  inc : Nat
  deriving DecidableEq, Repr

/-- A channel message on its way to a channel of this chip (R163, R164): the sending store engine's stream (200 + 16 ×
the tile + the channel for a host port), the receiving logical tile and channel, and the effect of R163: a pad at `w` when `pad`, the entries
at `at`, then their record. -/
structure InMsg where
  stream : Option Nat
  ltile : Nat
  ch : Nat
  seq : Nat
  pad : Bool
  w : Nat
  pos : Nat
  data : List Gran
  deriving DecidableEq, Repr

/-- The WRITE record (R258). -/
structure RecWrite where
  srcTile : Nat
  addr : W64
  data : List Unit64
  deriving DecidableEq, Repr

/-- POST and SIGNAL records (R258). -/
structure RecSignal where
  srcTile : Nat
  inc : Nat
  ref : W64
  deriving DecidableEq, Repr

/-- The ARRIVE record (R258). -/
structure RecArrive where
  srcTile : Nat
  tag : Nat
  ref : W64
  deriving DecidableEq, Repr

/-- The RELEASE record (R258): `toPort` is TGT 1. -/
structure RecRelease where
  toPort : Bool
  gen : Nat
  ref : W64
  deriving DecidableEq, Repr

/-- The MSG record (R258). -/
structure RecMsg where
  srcTile : Nat
  oc : Nat
  seq : Nat
  pad : Bool
  chip : Nat
  tile : Nat
  ch : Nat
  w : Nat
  pos : Nat
  data : List Unit64
  deriving DecidableEq, Repr

/-- The REDUCE record (R258). -/
structure RecReduce where
  eager : Bool
  fmt : Nat
  contrib : Nat
  rid : Nat
  block : Nat
  data : List Unit64
  deriving DecidableEq, Repr

/-- The LOG record (R258, R355): the header unit's fields and the data units. -/
structure RecLog where
  step : Nat
  rid : Nat
  block : Nat
  owner : Nat
  gfmt : Nat
  e32 : Nat
  data : List Unit64
  deriving DecidableEq, Repr

/-- The WAYPOINT record (R277). The three stamps are in 1/256 ns. -/
structure RecWaypoint where
  t3 : Nat
  t1 : Nat
  t2 : Nat
  hops : Nat
  settled : Bool
  deriving DecidableEq, Repr

/-- The SWITCH record (R258, R280). -/
structure RecSwitch where
  team : Nat
  epoch : Nat
  alt : Nat
  flush : Bool
  instant : Nat
  deriving DecidableEq, Repr

/-- The DETOUR record (R258, R282). -/
structure RecDetour where
  oport : Nat
  otbl : Nat
  oleg : Nat
  oslot : Nat
  deriving DecidableEq, Repr

/-- A base-camp message (R371, R389, R459): its subtype and the 64-bit words of its body. -/
structure RecMgmt where
  subtype : Nat
  words : List W64
  deriving DecidableEq, Repr

/-- The records of a head flit (R258). -/
inductive Rec where
  | null
  | write (r : RecWrite)
  | post (r : RecSignal)
  | signal (r : RecSignal)
  | arrive (r : RecArrive)
  | release (r : RecRelease)
  | msg (r : RecMsg)
  | reduce (r : RecReduce)
  | log (r : RecLog)
  | waypoint (r : RecWaypoint)
  | switch (r : RecSwitch)
  | detour (r : RecDetour)
  | freq (op : Nat) (instant : Nat)
  | broken (chip : Nat) (tile : Nat) (ch : Nat)
  | mgmt (r : RecMgmt)
  deriving DecidableEq, Repr

/-- A record with its data. Of the dynamic class, `dst` and `src` are the chip-id fields and `ttl` the hops left (R276).
Records of the scheduled class carry `dyn = false`; once delivered, `src` names the port and sending queue they came by,
which set their order (R267). -/
structure Routed where
  dyn : Bool
  dst : Nat
  src : Nat
  ttl : Nat
  body : Rec
  deriving DecidableEq, Repr

/-- A slot as it stands on the wire (R251, R256): the header's KIND (0 idle, 1 head, 2 body, 3 link control), LEG, SLOT,
TBL, AK, ASLOT and PSN, and the 2,048-bit flit, byte k in bits 8k + 7 to 8k. -/
structure Slot where
  kind : Nat
  leg : Nat
  slot : Nat
  tbl : Nat
  ak : Nat
  aslot : Nat
  psn : Nat
  flit : BitVec 2048
  deriving DecidableEq, Repr

/-- A port's turn to send: `ecc` says that the retry buffer's ECC fails on the flit that is sent again, if one is (R259). -/
structure TxSlot where
  port : Nat
  ecc : Bool
  deriving DecidableEq, Repr

/-- Codewords that the FEC corrected and that it could not, up to the end of a received slot (R250). -/
structure FecCount where
  fixed : Nat
  lost : Nat
  deriving DecidableEq, Repr

/-- A capability flit (R254). -/
structure CapFlit where
  magicOk : Bool
  minver : Nat
  maxver : Nat
  gen : Nat
  port : Nat
  role : Nat
  id : Nat
  imageTag : List Byte
  device : List Byte
  deriving DecidableEq, Repr

/-- What a poison report names (R120, R165, R347): the place of the detection. -/
inductive Place where
  | granule (tile : Nat) (addr : Nat)
  | control (tile : Nat)
  | hbm (depot stack chan row unit : Nat)
  | d2d (depot : Nat)
  | port (p : Nat)
  | seqGap (tile : Nat) (ch : Nat)
  deriving DecidableEq, Repr

/-- A poison report (R120): the place and the step index at the detection. -/
structure PReport where
  place : Place
  step : W64
  deriving DecidableEq, Repr

/-- A fault-ledger entry (R373). -/
structure LedgerEntry where
  stamp : W64
  cls : Nat
  state : Nat
  position : Nat
  step : W64
  place : W64
  deriving DecidableEq, Repr

/-- The agent that makes a control-space access (R481). -/
inductive Agent where
  | host
  | baseCore
  | storeEngine (tile : Nat)
  | loadEngine (tile : Nat)
  | caravan
  deriving DecidableEq, Repr

/-- The session and port that a protected Tether packet names (R421, R424). -/
structure CmdHdr where
  port : Nat
  session : Nat
  deriving DecidableEq, Repr

/-- One entry of a MAP body (R438): `migrate` is OP 1. -/
structure MapEntry where
  seg : Nat
  migrate : Bool
  entry : W64
  deriving DecidableEq, Repr

/-- The QP_OPEN body (R442). -/
structure QpBody where
  qpn : Nat
  port : Nat
  mtu : Nat
  chan : Bool
  tile : Nat
  ch : Nat
  tollGs : Nat
  rqpn : Nat
  raddr : BitVec 128
  rpsn : Nat
  base : Nat
  len : Nat
  deriving DecidableEq, Repr

/-- The LOAD body (R439). -/
structure LoadBody where
  position : Nat
  imageBase : Nat
  imageSize : Nat
  bind : List W64
  repair : List Nat
  deriving DecidableEq, Repr

/-- The holders of one position in a TEAM body (R440). -/
structure HolderRow where
  position : Nat
  holders : List Nat
  deriving DecidableEq, Repr

/-- One entry of ARMS (R337, R440). -/
structure ArmRow where
  position : Nat
  bind : List W64
  deriving DecidableEq, Repr

/-- The TEAM body (R337, R440). -/
structure TeamBody where
  team : Nat
  self : Nat
  spare : Bool
  logsteps : Nat
  npos : Nat
  nspare : Nat
  cairnBase : Nat
  cairnSize : Nat
  logBase : Nat
  logSize : Nat
  imageBase : Nat
  imageSize : Nat
  holders : List HolderRow
  arms : List ArmRow
  repair : List Nat
  deriving DecidableEq, Repr

/-- The MACSEC body (R437). -/
structure MacsecBody where
  port : Nat
  transmit : Bool
  an : Nat
  enable : Bool
  ssci : BitVec 32
  salt : BitVec 96
  sak : BitVec 256
  deriving DecidableEq, Repr

/-- The HELLO1 payload (R427). -/
structure Hello1 where
  role : Nat
  takeover : Bool
  events : Bool
  group : Nat
  hnonce : List Byte
  heph : List Byte
  hkey : List Byte
  deriving DecidableEq, Repr

/-- The counter that a discarded frame or packet counts in (R412 to R416, R421, R422). -/
inductive DropKind where
  | other
  | macsec
  | roce
  | tetherVer
  | tetherBad
  | auth
  deriving DecidableEq, Repr

/-- The commands of the device, one constructor per row of spec/opcode_table.json, in the table's order. -/
inductive Instr where
  /-- NOP (R62): The scalar slot issues a no-operation. -/
  | nop (n : Nat)
  /-- ADD (R62): The scalar slot writes the 64-bit sum gA + gB to gD. -/
  | add (n : Nat) (f : ScF)
  /-- SUB (R62): The scalar slot writes the difference gA − gB to gD. -/
  | sub (n : Nat) (f : ScF)
  /-- AND (R62): The scalar slot writes the bitwise and of gA and gB to gD. -/
  | and (n : Nat) (f : ScF)
  /-- OR (R62): The scalar slot writes the bitwise or of gA and gB to gD. -/
  | or (n : Nat) (f : ScF)
  /-- XOR (R62): The scalar slot writes the bitwise exclusive or of gA and gB to gD. -/
  | xor (n : Nat) (f : ScF)
  /-- SHL (R62): The scalar slot shifts gA left by gB[5:0] into gD. -/
  | shl (n : Nat) (f : ScF)
  /-- SHR (R62): The scalar slot shifts gA logically right by gB[5:0] into gD. -/
  | shr (n : Nat) (f : ScF)
  /-- SAR (R62): The scalar slot shifts gA arithmetically right by gB[5:0] into gD. -/
  | sar (n : Nat) (f : ScF)
  /-- MUL (R62): The scalar slot writes the low 64 bits of gA × gB to gD. -/
  | mul (n : Nat) (f : ScF)
  /-- MULHU (R62): The scalar slot writes the high 64 bits of the unsigned 128-bit product to gD. -/
  | mulhu (n : Nat) (f : ScF)
  /-- DIVU (R63): The scalar slot writes the unsigned quotient, all ones for a zero divisor, to gD. -/
  | divu (n : Nat) (f : ScF)
  /-- REMU (R63): The scalar slot writes the unsigned remainder, gA for a zero divisor, to gD. -/
  | remu (n : Nat) (f : ScF)
  /-- SLT (R62): The scalar slot writes 1 to gD if gA < gB signed, else 0. -/
  | slt (n : Nat) (f : ScF)
  /-- SLTU (R62): The scalar slot writes 1 to gD if gA < gB unsigned, else 0. -/
  | sltu (n : Nat) (f : ScF)
  /-- SEQ (R62): The scalar slot writes 1 to gD if gA equals gB, else 0. -/
  | seq (n : Nat) (f : ScF)
  /-- MIN (R62): The scalar slot writes the signed minimum of gA and gB to gD. -/
  | min (n : Nat) (f : ScF)
  /-- MINU (R62): The scalar slot writes the unsigned minimum of gA and gB to gD. -/
  | minu (n : Nat) (f : ScF)
  /-- MAX (R62): The scalar slot writes the signed maximum of gA and gB to gD. -/
  | max (n : Nat) (f : ScF)
  /-- MAXU (R62): The scalar slot writes the unsigned maximum of gA and gB to gD. -/
  | maxu (n : Nat) (f : ScF)
  /-- SEL (R62): The scalar slot writes gA to gD if gC is non-zero, else gB. -/
  | sel (n : Nat) (f : ScF)
  /-- CLZ (R62): The scalar slot writes the number of leading zero bits of gA to gD. -/
  | clz (n : Nat) (f : ScF)
  /-- POPC (R62): The scalar slot writes the number of one bits of gA to gD. -/
  | popc (n : Nat) (f : ScF)
  /-- ADDI (R62): The scalar slot writes gA plus the sign-extended immediate to gD. -/
  | addi (n : Nat) (f : ScF)
  /-- ANDI (R62): The scalar slot writes gA and the sign-extended immediate to gD. -/
  | andi (n : Nat) (f : ScF)
  /-- ORI (R62): The scalar slot writes gA or the sign-extended immediate to gD. -/
  | ori (n : Nat) (f : ScF)
  /-- XORI (R62): The scalar slot writes gA exclusive-or the sign-extended immediate to gD. -/
  | xori (n : Nat) (f : ScF)
  /-- SHLI (R62): The scalar slot shifts gA left by an immediate 0 to 63 into gD. -/
  | shli (n : Nat) (f : ScF)
  /-- SHRI (R62): The scalar slot shifts gA logically right by an immediate into gD. -/
  | shri (n : Nat) (f : ScF)
  /-- SARI (R62): The scalar slot shifts gA arithmetically right by an immediate into gD. -/
  | sari (n : Nat) (f : ScF)
  /-- MULI (R62): The scalar slot writes the low 64 bits of gA × simm to gD. -/
  | muli (n : Nat) (f : ScF)
  /-- SLTI (R62): The scalar slot writes 1 to gD if gA < simm signed. -/
  | slti (n : Nat) (f : ScF)
  /-- SLTIU (R62): The scalar slot writes 1 to gD if gA < simm taken as unsigned. -/
  | sltiu (n : Nat) (f : ScF)
  /-- MOVI (R62): The scalar slot writes the sign-extended immediate to gD. -/
  | movi (n : Nat) (f : ScF)
  /-- MOVHI (R62): The scalar slot writes the immediate into bits 63:32 above gA[31:0] into gD. -/
  | movhi (n : Nat) (f : ScF)
  /-- FADD (R64): The scalar slot writes the FP32 sum of gA and gB to gD. -/
  | fadd (n : Nat) (f : ScF)
  /-- FSUB (R64): The scalar slot writes the FP32 difference to gD. -/
  | fsub (n : Nat) (f : ScF)
  /-- FMUL (R64): The scalar slot writes the FP32 product to gD. -/
  | fmul (n : Nat) (f : ScF)
  /-- FFMA (R64): The scalar slot writes gA × gB + gC rounded once in FP32 to gD. -/
  | ffma (n : Nat) (f : ScF)
  /-- FMIN (R64): The scalar slot writes the FP32 minimum under R45 to gD. -/
  | fmin (n : Nat) (f : ScF)
  /-- FMAX (R64): The scalar slot writes the FP32 maximum under R45 to gD. -/
  | fmax (n : Nat) (f : ScF)
  /-- FCMP (R64): The scalar slot writes 1 to gD if the FP32 condition holds. -/
  | fcmp (n : Nat) (f : ScF)
  /-- FCVT_FI (R64): The scalar slot converts FP32 to a saturated signed 64-bit integer toward zero. -/
  | fcvtFi (n : Nat) (f : ScF)
  /-- FCVT_IF (R62): The scalar slot converts a signed 64-bit integer to FP32 with nearest even. -/
  | fcvtIf (n : Nat) (f : ScF)
  /-- LDS (R65): The scalar slot reads its scratchpad at a static address into gD. -/
  | lds (n : Nat) (f : ScF)
  /-- STS (R65): The scalar slot writes gD to its scratchpad at a static address. -/
  | sts (n : Nat) (f : ScF)
  /-- BR (R67): The scalar slot branches on a condition of gA. -/
  | br (n : Nat) (f : ScF)
  /-- BRC (R67): The scalar slot branches on a comparison of gA and gB. -/
  | brc (n : Nat) (f : ScF)
  /-- JAL (R68): The scalar slot writes the link into gD and branches. -/
  | jal (n : Nat) (f : ScF)
  /-- RET (R68): The scalar slot branches to bundle gA[11:0] of the active half. -/
  | ret (n : Nat) (f : ScF)
  /-- LOOP (R70): The scalar slot enters a hardware loop, latching the trip count and skipping a zero-count body. -/
  | loop (n : Nat) (f : ScF)
  /-- ISWAP (R75): The scalar slot makes the other instruction-memory half active. -/
  | iswap (n : Nat) (f : ScF)
  /-- LCSET (R62): The scalar slot sets the count of lcN from gA[31:0]. -/
  | lcset (n : Nat) (f : ScF)
  /-- LCSETI (R62): The scalar slot sets the count of lcN from the immediate. -/
  | lcseti (n : Nat) (f : ScF)
  /-- LCGET (R62): The scalar slot writes the count of lcN to gD. -/
  | lcget (n : Nat) (f : ScF)
  /-- LCIDX (R62): The scalar slot writes the index of lcN to gD. -/
  | lcidx (n : Nat) (f : ScF)
  /-- FSET (R62): The scalar slot writes gA[31:0] into format register fN. -/
  | fset (n : Nat) (f : ScF)
  /-- FSETI (R62): The scalar slot writes the immediate into format register fN. -/
  | fseti (n : Nat) (f : ScF)
  /-- FGET (R62): The scalar slot writes format register fN to gD. -/
  | fget (n : Nat) (f : ScF)
  /-- TID (R62): The scalar slot writes the logical tile number to gD. -/
  | tid (n : Nat) (f : ScF)
  /-- LPOS (R62): The scalar slot writes this chip's logical position to gD. -/
  | lpos (n : Nat) (f : ScF)
  /-- RDSTEP (R62): The scalar slot writes base camp's step counter to gD. -/
  | rdstep (n : Nat) (f : ScF)
  /-- MX_NOP (R87): The matrix slot issues a no-operation. -/
  | mxNop (n : Nat)
  /-- MX_FILL (R88): The matrix slot reads a stationary block into sbN over 16 issue cycles. -/
  | mxFill (n : Nat) (f : MxF)
  /-- MX_STREAM (R89): The matrix slot multiplies a streamed row by sbN into an accumulator row. -/
  | mxStream (n : Nat) (f : MxF)
  /-- MX_ROWMUL (R90): The matrix slot multiplies an accumulator row element by element by vC. -/
  | mxRowmul (n : Nat) (f : MxF)
  /-- MX_DRAINV (R91): The matrix slot copies an accumulator row into vC, optionally clearing it. -/
  | mxDrainv (n : Nat) (f : MxF)
  /-- MX_DRAINS (R91): The matrix slot encodes an accumulator row into scratchpad, optionally clearing it. -/
  | mxDrains (n : Nat) (f : MxF)
  /-- VNOP (R96): The vector slot issues a no-operation. -/
  | vnop (n : Nat)
  /-- VADD (R96): The vector slot adds vA and vB lane-wise. -/
  | vadd (n : Nat) (f : VeF)
  /-- VSUB (R96): The vector slot subtracts vB from vA lane-wise. -/
  | vsub (n : Nat) (f : VeF)
  /-- VMUL (R96): The vector slot multiplies vA and vB lane-wise. -/
  | vmul (n : Nat) (f : VeF)
  /-- VFMA (R96): The vector slot computes vA × vB + vC rounded once. -/
  | vfma (n : Nat) (f : VeF)
  /-- VMAX (R96): The vector slot writes the lane-wise maximum. -/
  | vmax (n : Nat) (f : VeF)
  /-- VMIN (R96): The vector slot writes the lane-wise minimum. -/
  | vmin (n : Nat) (f : VeF)
  /-- VABS (R96): The vector slot writes the lane-wise absolute value. -/
  | vabs (n : Nat) (f : VeF)
  /-- VNEG (R96): The vector slot writes the lane-wise negation. -/
  | vneg (n : Nat) (f : VeF)
  /-- VLDEXP (R96): The vector slot scales FP32 vA by 2 to the int32 in vB. -/
  | vldexp (n : Nat) (f : VeF)
  /-- VCMP (R96): The vector slot writes a lane-wise comparison into mask kD. -/
  | vcmp (n : Nat) (f : VeF)
  /-- VAND (R96): The vector slot writes the bitwise and of vA and vB. -/
  | vand (n : Nat) (f : VeF)
  /-- VOR (R96): The vector slot writes the bitwise or of vA and vB. -/
  | vor (n : Nat) (f : VeF)
  /-- VXOR (R96): The vector slot writes the bitwise exclusive or of vA and vB. -/
  | vxor (n : Nat) (f : VeF)
  /-- VSHL (R96): The vector slot shifts lanes of vA left by vB[4:0]. -/
  | vshl (n : Nat) (f : VeF)
  /-- VSHR (R96): The vector slot shifts lanes of vA logically right by vB[4:0]. -/
  | vshr (n : Nat) (f : VeF)
  /-- VSAR (R96): The vector slot shifts lanes of vA arithmetically right by vB[4:0]. -/
  | vsar (n : Nat) (f : VeF)
  /-- VMOV (R96): The vector slot copies vA with its poison into vD. -/
  | vmov (n : Nat) (f : VeF)
  /-- VBCAST (R96): The vector slot writes gGA[31:0] to every lane of vD. -/
  | vbcast (n : Nat) (f : VeF)
  /-- VSPLAT (R96): The vector slot writes the immediate to every lane of vD. -/
  | vsplat (n : Nat) (f : VeF)
  /-- VIOTA (R96): The vector slot writes IMM + i to lane i of vD. -/
  | viota (n : Nat) (f : VeF)
  /-- VEXTR (R96): The vector slot copies one lane of vA into gGA. -/
  | vextr (n : Nat) (f : VeF)
  /-- VINSL (R96): The vector slot writes gGA[31:0] into one lane of vD. -/
  | vinsl (n : Nat) (f : VeF)
  /-- VNARROW (R100): The vector slot rounds 256 FP32 values into 16-bit elements. -/
  | vnarrow (n : Nat) (f : VeF)
  /-- VWIDEN (R100): The vector slot converts 128 16-bit elements exactly to FP32. -/
  | vwiden (n : Nat) (f : VeF)
  /-- VCVT_FI (R96): The vector slot converts FP32 lanes to saturated int32 toward zero. -/
  | vcvtFi (n : Nat) (f : VeF)
  /-- VCVT_IF (R96): The vector slot converts int32 lanes to FP32 with nearest even. -/
  | vcvtIf (n : Nat) (f : VeF)
  /-- VPACK (R100): The vector slot encodes 128 FP32 lanes into a packed block-scaled row. -/
  | vpack (n : Nat) (f : VeF)
  /-- VUNPACK (R100): The vector slot decodes a packed row into 128 FP32 lanes. -/
  | vunpack (n : Nat) (f : VeF)
  /-- VCURVE (R96): The vector slot evaluates curve table cN on each lane. -/
  | vcurve (n : Nat) (f : VeF)
  /-- VRSUM (R98): The vector slot sums the FP32 lanes in a fixed tree. -/
  | vrsum (n : Nat) (f : VeF)
  /-- VRMAX (R98): The vector slot takes the FP32 maximum across lanes. -/
  | vrmax (n : Nat) (f : VeF)
  /-- VRMIN (R98): The vector slot takes the FP32 minimum across lanes. -/
  | vrmin (n : Nat) (f : VeF)
  /-- VRISUM (R98): The vector slot sums the int32 lanes modulo 2^32. -/
  | vrisum (n : Nat) (f : VeF)
  /-- VCOMPRESS (R99): The vector slot packs the selected lanes of vA to the bottom of vD and writes their count. -/
  | vcompress (n : Nat) (f : VeF)
  /-- VEXPAND (R99): The vector slot spreads the low lanes of vA to the selected lanes of vD. -/
  | vexpand (n : Nat) (f : VeF)
  /-- VPERM (R99): The vector slot permutes vA by the indices in vB. -/
  | vperm (n : Nat) (f : VeF)
  /-- VROT (R96): The vector slot rotates the lanes of vA by an immediate. -/
  | vrot (n : Nat) (f : VeF)
  /-- KAND (R96): The vector slot writes the and of two masks. -/
  | kand (n : Nat) (f : VeF)
  /-- KOR (R96): The vector slot writes the or of two masks. -/
  | kor (n : Nat) (f : VeF)
  /-- KXOR (R96): The vector slot writes the exclusive or of two masks. -/
  | kxor (n : Nat) (f : VeF)
  /-- KANDN (R96): The vector slot writes kA and not kB. -/
  | kandn (n : Nat) (f : VeF)
  /-- KFIRST (R96): The vector slot sets mask bits below gGA. -/
  | kfirst (n : Nat) (f : VeF)
  /-- KPOPC (R96): The vector slot writes the number of one bits of a mask to gGA. -/
  | kpopc (n : Nat) (f : VeF)
  /-- VLD (R97): The vector slot reads a scratchpad span, or a boundary-queue slot at a scheduled crossing, into vD. -/
  | vld (n : Nat) (f : VeF)
  /-- VST (R97): The vector slot writes selected lanes to the scratchpad, filling a boundary slot at a scheduled crossing. -/
  | vst (n : Nat) (f : VeF)
  /-- VCHAIN (R104): The vector slot runs a fused chain of up to eight stages from a descriptor. -/
  | vchain (n : Nat) (f : VeF)
  /-- LD_NOP (R122): The load slot enqueues nothing. -/
  | ldNop (n : Nat)
  /-- LD (R122): The load slot enqueues a copy from a global address into this scratchpad. -/
  | ld (n : Nat) (f : LsF)
  /-- LD_STRM (R122): The load slot enqueues a gather stream under a descriptor. -/
  | ldStrm (n : Nat) (f : LsF)
  /-- LD_OVL (R122): The load slot enqueues an overlay fill of one instruction-memory half. -/
  | ldOvl (n : Nat) (f : LsF)
  /-- ST_NOP (R122): The store slot enqueues nothing. -/
  | stNop (n : Nat)
  /-- ST (R122): The store slot enqueues a copy from this scratchpad to a global address. -/
  | st (n : Nat) (f : LsF)
  /-- ST_STRM (R122): The store slot enqueues a scatter stream under a descriptor. -/
  | stStrm (n : Nat) (f : LsF)
  /-- ST_POST (R137): The store slot enqueues an ordered signal to a remote semaphore. -/
  | stPost (n : Nat) (f : LsF)
  /-- SY_NOP (R148): The sync slot issues a no-operation. -/
  | syNop (n : Nat)
  /-- WAIT (R150): The bundle issues once sSEM holds at least n, subtracting n. -/
  | wait (n : Nat) (f : SyA)
  /-- WAIT_K (R150): The bundle issues once sSEM holds at least n, leaving it unchanged. -/
  | waitK (n : Nat) (f : SyA)
  /-- SIG (R148): The sync slot adds n to a local semaphore. -/
  | sig (n : Nat) (f : SyA)
  /-- SDEC (R146): The sync slot subtracts n from a local semaphore. -/
  | sdec (n : Nat) (f : SyA)
  /-- RSIG (R153): The sync slot sends an increment to the semaphore that gGA references. -/
  | rsig (n : Nat) (f : SyB)
  /-- ARRIVE (R157): The sync slot sends an arrival tagged NEXT_TAG to the port's belay. -/
  | arrive (n : Nat) (f : SyC)
  /-- BWAIT (R157): The bundle issues once the port's last arrival has been released, arming crossing entries. -/
  | bwait (n : Nat) (f : SyC)
  /-- BELAY (R157): The sync slot arrives and the bundle issues once that arrival is released. -/
  | belay (n : Nat) (f : SyC)
  /-- SEND (R163): The sync slot enqueues a channel message on the store queue. -/
  | send (n : Nat) (f : SyD)
  /-- RECV (R166): The bundle issues once a selected channel holds a staged message, taking the lowest-numbered one. -/
  | recv (n : Nat) (f : SyE)
  /-- RECV_R (R166): The bundle issues once a selected channel holds a staged message, taking channels in rotation. -/
  | recvR (n : Nat) (f : SyE)
  /-- LOOP_END (R71): After a bundle with LEND marks issues, the loop unit loops back or ends marked loops. -/
  | loopEnd (n : Nat) (lend : BitVec 4)
  /-- STOP (R60): After a STOP bundle the tile issues only bubbles until its in-flight instructions complete. -/
  | stop (n : Nat)
  /-- PIPELINE_WRITEBACK (R55): An instruction's result becomes visible at its class latency in a later issue cycle. -/
  | pipelineWriteback (n : Nat)
  /-- BANK_STALL_END (R106): The fixed bank-conflict hold expires and the next issue cycle begins. -/
  | bankStallEnd (n : Nat)
  /-- TILE_DONE (R60): After a STOP the tile enters DONE once in-flight work is complete and both queues are empty. -/
  | tileDone (n : Nat)
  /-- IMEM_PARITY (R76): A fetched bundle fails parity, and the tile enters FAULT and notifies base camp. -/
  | imemParity (n : Nat)
  /-- LD_EXECUTE (R123): The load engine takes an ld command at its queue head and copies the bytes. -/
  | ldExecute (n : Nat)
  /-- LD_STRM_EXECUTE (R131): The load engine reads a stream descriptor and gathers its rows. -/
  | ldStrmExecute (n : Nat)
  /-- LD_OVL_EXECUTE (R74): The load engine copies an overlay into an instruction-memory half. -/
  | ldOvlExecute (n : Nat)
  /-- ST_EXECUTE (R123): The store engine takes an st command at its queue head and sends its bytes. -/
  | stExecute (n : Nat)
  /-- ST_STRM_EXECUTE (R131): The store engine reads a stream descriptor and scatters its rows. -/
  | stStrmExecute (n : Nat)
  /-- ST_POST_EXECUTE (R137): The store engine hands on a post behind its earlier traffic. -/
  | stPostExecute (n : Nat)
  /-- SEND_EXECUTE (R163): The store engine writes a channel message, and a pad if needed, into the receiver's ring. -/
  | sendExecute (n : Nat)
  /-- TOLL_TAKE (R134): A waiting store engine takes N tolls once the toll semaphore holds N. -/
  | tollTake (n : Nat)
  /-- ENGINE_COMPLETION (R125): An engine command completes in order and signals its completion semaphore. -/
  | engineCompletion (n : Nat) (store : Bool)
  /-- INBOUND_WRITE (R136): A remote write over the die network is applied at the receiving scratchpad. -/
  | inboundWrite (w : InWrite)
  /-- REMOTE_SIGNAL (R153): A remote signal, post or toll grant is applied at its target semaphore. -/
  | remoteSignal (r : InSignal)
  /-- BELAY_ARRIVAL (R154): A global semaphore in belay mode counts an arrival toward GEN or GEN + 1. -/
  | belayArrival (ref : W64) (tag : Nat)
  /-- MESSAGE_DELIVERY (R164): A channel message is delivered on this chip and checked against the expected sequence. -/
  | messageDelivery (m : InMsg)
  /-- STAGE_MESSAGE (R165): The sync unit copies the accepted message at R into the channel's staging buffer. -/
  | stageMessage (n : Nat) (c : Nat)
  /-- PAD_SKIP (R165): The sync unit skips a pad at R, grants N − R tolls and sets R to 0. -/
  | padSkip (n : Nat) (c : Nat)
  /-- DUPLICATE_SKIP (R165): The sync unit skips a duplicate message's entries and grants their tolls. -/
  | duplicateSkip (n : Nat) (c : Nat)
  /-- WAIT_WATCHDOG (R160): A wait or toll count reaches its limit and the tile stops in FAULT. -/
  | waitWatchdog (n : Nat) (toll : Bool)
  /-- BOUNDARY_WATCHDOG (R221): An unbroken boundary hold reaches 2^WDOG row cycles and the held tiles enter FAULT. -/
  | boundaryWatchdog (r : Nat)
  /-- STRETCH (R214): Droop below threshold makes the row root lengthen its next period. -/
  | stretch (r : Nat) (cycle : Nat)
  /-- PARTNER_RST (R223): A crossing endpoint sees its partner's RST, flushes both directions and raises ACK. -/
  | partnerRst (e : Nat)
  /-- OWN_RESET_END (R223): A crossing endpoint leaves reset once its partner has flushed, lowering RST and raising READY. -/
  | ownResetEnd (e : Nat)
  /-- PARTNER_ACK_FALL (R223): An endpoint in REJOIN sees its partner's ACK fall or READY and returns to UP. -/
  | partnerAckFall (e : Nat)
  /-- PARTNER_READY (R223): An endpoint in PARTNER_DOWN sees its partner's READY, lowers ACK and returns to UP. -/
  | partnerReady (e : Nat)
  /-- TIME_BEACON (R226): A time beacon carries the master's GTC to a region, which adjusts its increment. -/
  | timeBeacon (region : Nat)
  /-- GTC_READ (R243): A read of GTC returns the master's value and latches its fraction into GTC_FRAC. -/
  | gtcRead
  /-- WAYPOINT_SEND (R277): Each millisecond of local GTC a port sends a WAYPOINT in the next dynamic slot. -/
  | waypointSend (p : Nat)
  /-- WAYPOINT_RECORD (R229): A waypoint from the parent yields theta and delay, and the chip sets its trim. -/
  | waypointRecord (p : Nat) (w : RecWaypoint)
  /-- PARENT_LOST (R233): No waypoint from the parent for 4 ms makes the chip take an alternate parent. -/
  | parentLost
  /-- SETTLED_TIMEOUT (R233): 16 ms without a parent clears SETTLED. -/
  | settledTimeout
  /-- FREQ_RECORD (R234): A chip receives a posted operating-point change and prepares its PLLs and voltages. -/
  | freqRecord (op : Nat) (instant : Nat)
  /-- FREQUENCY_SWITCH (R235): At the change's instant each row root and depot switches PLL. -/
  | frequencySwitch
  /-- REFERENCE_LOST (R238): The monitor declares the active reference lost and the cleaner switches or enters holdover. -/
  | referenceLost (input : Bool)
  /-- REFERENCE_GOOD (R238): A reference input has stayed within limits for 100 µs and becomes good again. -/
  | referenceGood (input : Bool)
  /-- REF_SELECT (R238): A write of 1 to REF_CFG.SELECT switches to the other input if it is good. -/
  | refSelect
  /-- CLOCK_FAILURE (R239): Holdover lasting 1 s causes a cold clock-failure reset. -/
  | clockFailure
  /-- PORT_ENABLE (R253): A write of 1 to CV_CFG.ENABLE lets a Caravan port come up. -/
  | portEnable (p : Nat)
  /-- PORT_DISABLE (R253): A write of 0 to CV_CFG.ENABLE puts a Caravan port into DOWN. -/
  | portDisable (p : Nat)
  /-- SIGNAL_PRESENT (R253): Signal on all 8 lanes of an enabled DOWN port starts training. -/
  | signalPresent (p : Nat)
  /-- TRAIN_COMPLETE (R253): Lanes locked, deskewed and codeword index agreed move the port to CAPS. -/
  | trainComplete (p : Nat)
  /-- TRAIN_TIMEOUT (R253): 100 ms without reaching CAPS returns the port to DOWN. -/
  | trainTimeout (p : Nat) (neverLocked : Bool)
  /-- LINK_RETRY_TIMER (R253): The 10 ms or 1 s retry delay of a DOWN port expires. -/
  | linkRetryTimer (p : Nat)
  /-- CAPABILITY_FLIT (R255): The partner's capability flit is checked and the version settled. -/
  | capabilityFlit (p : Nat) (c : CapFlit)
  /-- ALIGN_COMPLETE (R253): 64 echo exchanges measure the round trip and bring the port UP or DOWN. -/
  | alignComplete (p : Nat) (rtt : Nat)
  /-- SLOT_TRANSMIT (R266): In each slot a port sends the flit that its transmit table or slack window selects. -/
  | slotTransmit (p : TxSlot)
  /-- SLOT_RECEIVE (R262): A port decodes a slot, answers it, and delivers, forwards or reorders its flit. -/
  | slotReceive (p : Nat) (sl : Slot) (bad : Bool) (ecc : Bool) (corrected : FecCount)
  /-- RETRY_TIMEOUT (R261): A transmission no answer covers within CV_RTT + 4 slots is lost and queued for retry. -/
  | retryTimeout (p : Nat)
  /-- PORT_WATCHDOG (R263): No good slot for 2^WDOG_LOG2 slots fails the port. -/
  | portWatchdog (p : Nat)
  /-- RETRY_LIMIT (R263): A flit unconfirmed after 8 sends or two legs fails the port. -/
  | retryLimit (p : Nat)
  /-- LANE_FAIL (R263): A lane losing signal or FEC lock fails the port. -/
  | laneFail (p : Nat)
  /-- QUEUE_ROOM (R269): A source waiting on a full Caravan queue offers its flit once room appears. -/
  | queueRoom (p : Nat) (q : Nat)
  /-- WRITE_RECORD (R258): A WRITE record's data is written to its destination global address. -/
  | writeRecord (r : RecWrite)
  /-- POST_RECORD (R258): A POST record increments its target semaphore after the earlier writes of its queue. -/
  | postRecord (r : RecSignal)
  /-- SIGNAL_RECORD (R258): A SIGNAL record from rsig increments its target semaphore. -/
  | signalRecord (r : RecSignal)
  /-- ARRIVE_RECORD (R155): An ARRIVE record counts an arrival at a belay on this chip. -/
  | arriveRecord (r : RecArrive)
  /-- RELEASE_RECORD (R155): A RELEASE record releases a belay port or completes a forwarded child belay. -/
  | releaseRecord (r : RecRelease)
  /-- MSG_RECORD (R258): A MSG record writes a pad, entries and record into a ring and is checked by the sync unit. -/
  | msgRecord (r : RecMsg)
  /-- REDUCE_RECORD (R278): A contribution is applied in CONTRIB order or parked in the reduction buffer. -/
  | reduceRecord (p : Nat) (r : RecReduce)
  /-- LOG_RECORD (R356): A holder appends a gradient-log entry and returns LOG_ACK. -/
  | logRecord (r : RecLog)
  /-- LOG_ENTRY_RESUME (R357): A log entry that waited for a page in use is appended once the page frees. -/
  | logEntryResume
  /-- SWITCH_RECORD (R280): A chip floods and accepts a SWITCH record in EPOCH order and prepares its tables. -/
  | switchRecord (p : Nat) (r : RecSwitch)
  /-- SWITCH_LEG (R281): At the first leg boundary at or after the instant, ports move to the new tables and tag. -/
  | switchLeg
  /-- PREVIOUS_TABLES_EXPIRE (R281): The previous tables are dropped at the fourth leg boundary after the switch leg. -/
  | previousTablesExpire
  /-- DETOUR_RECORD (R282): A wrapped flit is handed to the failed port's receive side as if it arrived in its original slot. -/
  | detourRecord (p : Nat) (r : RecDetour) (sl : Slot)
  /-- BROKEN_RECORD (R169): A BROKEN record makes the named channel's outbound port BROKEN. -/
  | brokenRecord (chip : Nat) (tile : Nat) (ch : Nat)
  /-- SCRUB (R298): The controller scrubs mapped rows, correcting units and detecting uncorrectable ones. -/
  | scrub (d : Nat) (seg : Nat)
  /-- MIGRATION_START (R300): Base camp picks a spare row and marks a segment as migrating. -/
  | migrationStart (seg : Nat)
  /-- MIGRATION_COPY (R300): The copy engine copies one unit in its place in the unit's access sequence. -/
  | migrationCopy (d : Nat) (stack : Nat)
  /-- MIGRATION_COMPLETE (R300): After the last copy the entry switches to the destination and held map entries apply. -/
  | migrationComplete (d : Nat) (stack : Nat)
  /-- ROW_RETIRE (R300): Once accesses to the source have drained, the source row is retired. -/
  | rowRetire (d : Nat) (stack : Nat)
  /-- REDUCE_BLOCK_SEND (R303): The reduction engine takes a trigger, reads a staged block, takes a toll and sends it. -/
  | reduceBlockSend (rid : Nat)
  /-- REDUCE_SLOT_RELEASE (R305): A SUM slot is released and tolls are granted once disposal and log acknowledgements are done. -/
  | reduceSlotRelease (rid : Nat) (block : Nat)
  /-- D2D_RETRY (R308): A die-to-die flit that fails CRC is sent again from the retry buffer. -/
  | d2dRetry (d : Nat) (ecc : Bool)
  /-- D2D_MODULE_LOST (R309): A die-to-die module leaves service; below 56 modules the depot reports failure. -/
  | d2dModuleLost (d : Nat)
  /-- UPDATE_HANDOFF (R326): A reduced block is handed to the update unit when its input buffer has room. -/
  | updateHandoff (rid : Nat) (block : Nat)
  /-- UPDATE_BLOCK (R323): The update unit applies the optimizer rule to one block and issues its writes. -/
  | updateBlock (d : Nat) (u : Nat)
  /-- BLOCK_WRITTEN_BACK (R327): A block's writes are accepted, and the last block of a step arrives at BELAY. -/
  | blockWrittenBack (d : Nat) (u : Nat)
  /-- POISON_REPORT (R120): Base camp receives a poison report and records it for the step. -/
  | poisonReport (r : PReport)
  /-- TILE_FAULT (R342): Base camp is notified that a tile has entered FAULT. -/
  | tileFault (n : Nat)
  /-- BASE_CAMP_ARRIVAL (R342): Base camp arrives at the step-end belay once all others have and no report exists. -/
  | baseCampArrival
  /-- STEP_END (R21): The step-end release reaches base camp, which increments the step counter. -/
  | stepEnd
  /-- CAIRN_CHUNK (R351): An owner streams one cairn chunk into its holder's free slot, followed by its commit. -/
  | cairnChunk
  /-- CAIRN_COMMIT (R351): A commit written to CAIRN_COMMIT repoints the holder's chunk directory and returns CAIRN_ACK. -/
  | cairnCommit (owner : Nat) (slot : Nat) (q : Nat) (tag : W64) (bytes : Nat)
  /-- CAIRN_ACK (R351): An owner learns a chunk is held and update writes held under R20 may proceed. -/
  | cairnAck (owner : Nat) (slot : Nat) (q : Nat) (tag : W64)
  /-- LOG_ACK (R356): A depot learns log entries were appended and may release reduction slots. -/
  | logAck (owner : Nat) (rid : Nat) (block : Nat)
  /-- HEARTBEAT_SEND (R339): Every 10 ms a chip sends HEARTBEAT to its team's lead and deputy. -/
  | heartbeatSend
  /-- HEARTBEAT (R371): The lead or deputy records a HEARTBEAT from a team member. -/
  | heartbeat (sender : W64) (step : W64) (gtc : W64)
  /-- HEARTBEAT_TIMEOUT (R359): 50 ms without a heartbeat makes the lead declare the position lost. -/
  | heartbeatTimeout (pos : Nat)
  /-- REPORT (R371): The lead takes a ledger entry and decides on a halt, rerun or recovery. -/
  | report (e : LedgerEntry)
  /-- MIRROR (R371): The deputy stores a copy of a ledger entry. -/
  | mirror (e : LedgerEntry)
  /-- HALT_RECORD (R344): A chip accepts a team halt at counter K. -/
  | haltRecord (team : Nat) (k : W64) (instant : Nat)
  /-- TAKEOVER (R362): An armed spare begins a rejoin load for the lost position. -/
  | takeover (pos : Nat) (k : W64) (spare : Nat) (alt : Nat)
  /-- FETCH (R361): A holder streams committed chunks and final log entries to the spare. -/
  | fetch (owner : Nat) (spareChip : Nat) (chunkOff : Nat) (logOff : Nat) (firstTag : W64)
  /-- RESTORE (R363): Once the fetch is complete the restoring chip copies chunks, replays and recasts. -/
  | restore
  /-- RESTORED (R371): The lead learns that a spare has finished restoring. -/
  | restored (pos : Nat) (k : W64)
  /-- START_RECORD (R345): A chip reinstalls tiles and resets sync state for a team restart at K. -/
  | startRecord (team : Nat) (alt : Nat) (k : W64) (swInstant : Nat) (startInstant : Nat)
  /-- REPAIR_RELOAD (R348): Base camp reloads the image with the repair candidate added to the repair list. -/
  | repairReload
  /-- PROGRAM_START (R192): At the start instant every mapped tile of a row issues bundle 0. -/
  | programStart (r : Nat)
  /-- CEILING (R389): The time root records a chip's ceiling and posts a change to the system point. -/
  | ceiling (sender : W64) (c : Nat)
  /-- CEILING_REFRESH (R389): Each second a chip resends its ceiling to the root. -/
  | ceilingRefresh
  /-- CEILING_EXPIRE (R389): The root forgets a ceiling not refreshed for 3 s. -/
  | ceilingExpire (sender : W64)
  /-- POWER_SAMPLE (R387): Every 100 µs base camp reads each rail's current for the package power. -/
  | powerSample (avs0 : List Nat) (avs1 : List Nat)
  /-- TEMPERATURE_SAMPLE (R387): Every 1 ms base camp reads every temperature sensor. -/
  | temperatureSample (rows : List Int) (depots : List Int) (base : Int) (hbm : List Nat)
  /-- THROTTLE_EVALUATION (R388): Every 10 ms base camp evaluates throttle conditions and moves the thermal ceiling. -/
  | throttleEvaluation
  /-- TOKEN_WINDOW (R386): At the end of each 256-cycle window the row token meter sums charges. -/
  | tokenWindow (r : Nat)
  /-- REGULATOR_FAULT (R395): A regulator reports a fault, setting REG_FAULT and ALERT_N. -/
  | regulatorFault (rail : Nat)
  /-- AVS_TIMEOUT (R395): A regulator answering no frame for 1 ms sets AVS_TIMEOUT. -/
  | avsTimeout (rail : Nat)
  /-- WEAR_MONITOR_SAMPLE (R396): Each second base camp samples every wear monitor. -/
  | wearMonitorSample (deltas : List Int)
  /-- REPLAN_HOURS (R397): Operating hours crossing a multiple of 1,000 start a re-plan. -/
  | replanHours
  /-- WEAR_LEDGER_EMIT (R400): Base camp emits a signed wear ledger after a change or every 24 hours. -/
  | wearLedgerEmit
  /-- TELEMETRY_REWRITE (R403): Every 1 ms base camp rewrites the telemetry block. -/
  | telemetryRewrite
  /-- SIDEBAND_EVALUATION (R504): Every 10 ms Dormas sets SIDEBAND.FAULT and ALERT from device state. -/
  | sidebandEvaluation
  /-- BC_WDOG_KICK (R384): A base-core write of 0x5A to BC_WDOG.KICK restarts the watchdog. -/
  | bcWdogKick (value : BitVec 8)
  /-- BC_WATCHDOG (R384): The base-camp watchdog reaches its limit and causes a warm reset. -/
  | bcWatchdog
  /-- LOCKUP (R383): A base core's lock-up detector fires and causes a warm reset. -/
  | lockup (core : BitVec 3)
  /-- SRAM_UNCORRECTABLE (R377): Dormas meets an uncorrectable SRAM word and requests a warm reset. -/
  | sramUncorrectable
  /-- SOFTWARE_REQUEST (R467): Dormas requests a warm reset of the chip. -/
  | softwareRequest
  /-- POWER_ON (R467): Every rail reaches its limits and the power-good monitor asserts power-on. -/
  | powerOn (hot : Bool) (src : Nat)
  /-- BROWN_OUT (R496): A rail outside its band for 2 µs causes a cold brown-out reset. -/
  | brownOut (rail : Nat)
  /-- RST_N_ASSERT (R467): RST_N held low for at least 1 µs causes a cold reset. -/
  | rstNAssert (lowNs : Nat)
  /-- RST_N_RELEASE (R475): The rising edge of RST_N samples the straps and starts the cold boot sequence. -/
  | rstNRelease (smba : BitVec 3) (testmode : Bool)
  /-- TETHER_RESET (R441): 1 ms after a RESET KIND 0 response the warm reset of cause 0x05 begins. -/
  | tetherReset
  /-- FIRMWARE_CHECK (R382): The ROM compares the SRAM image with FW_DIGEST and restarts Dormas or waits. -/
  | firmwareCheck
  /-- THERMAL_TRIP (R501): A sensor reaching its trip threshold stops the clocks and drives THERMTRIP_N low. -/
  | thermalTrip (src : Nat)
  /-- TRIP_RELEASE (R501): After 60 s with RST_N low and rails off, THERMTRIP_N rises. -/
  | tripRelease
  /-- BLOCK_RESET_TILE (R477): BLOCK_RESET.GO with KIND 1 requests a block reset of a physical tile. -/
  | blockResetTile (i : Nat)
  /-- BLOCK_RESET_ROW (R477): BLOCK_RESET.GO with KIND 2 requests a block reset of a row. -/
  | blockResetRow (i : Nat)
  /-- BLOCK_RESET_DEPOT (R477): BLOCK_RESET.GO with KIND 3 requests a block reset of a depot. -/
  | blockResetDepot (i : Nat)
  /-- BLOCK_RESET_CARAVAN_PORT (R477): BLOCK_RESET.GO with KIND 4 requests a block reset of a Caravan port. -/
  | blockResetCaravanPort (i : Nat)
  /-- BLOCK_RESET_HOST_PORT (R477): BLOCK_RESET.GO with KIND 5 requests a block reset of a host port. -/
  | blockResetHostPort (i : Nat)
  /-- BLOCK_IDLE (R476): The block reports idle and the controller resets it with a crossing flush. -/
  | blockIdle
  /-- BLOCK_RESET_TIMEOUT (R476): The idle wait reaches TIMEOUT_US, setting TIMED_OUT, and the reset proceeds. -/
  | blockResetTimeout
  /-- REGISTER_WRITE (R482): A write to a register without its own row changes the covered fields under their access codes. -/
  | registerWrite (g : Agent) (off : Nat) (data : List Byte)
  /-- DISCOVER (R425): The device answers a DISCOVER with an OFFER. -/
  | discover (port : Nat) (nonce : List Byte)
  /-- FW (R426): The boot ROM appends a firmware packet from the feeder and answers with FW_ACK. -/
  | fw (src : Nat) (offset : Nat) (data : List Byte)
  /-- FW_VERIFY (R380): Once the whole image has arrived the ROM verifies it and starts Dormas or waits. -/
  | fwVerify
  /-- FEEDER_TIMEOUT (R426): 1 s without an FW packet drops the feeder. -/
  | feederTimeout
  /-- HELLO1 (R427): The device opens a half-open session and answers with a signed HELLO2. -/
  | hello1 (port : Nat) (h : Hello1)
  /-- HELLO3 (R429): The device verifies HELLO3 and admits or denies the owner or observer session. -/
  | hello3 (hd : CmdHdr) (hsig : List Byte)
  /-- HALF_OPEN_TIMEOUT (R427): A half-open session is dropped after 1 s. -/
  | halfOpenTimeout (session : Nat)
  /-- ACK (R423): A Tether ACK packet confirms numbered packets up to its ACK. -/
  | ack (hd : CmdHdr) (ackSeq : Nat)
  /-- CLOSE (R430): A CLOSE ends the session once acknowledged. -/
  | close (hd : CmdHdr)
  /-- TETHER_RESEND (R423): An unacknowledged numbered packet is resent, and the session ends after 10 resends. -/
  | tetherResend (session : Nat)
  /-- TETHER_KEEPALIVE (R423): After 1 s of sending nothing a side sends an ACK packet. -/
  | tetherKeepalive (session : Nat)
  /-- SESSION_TIMEOUT (R423): A session that receives nothing for 5 s ends. -/
  | sessionTimeout (session : Nat)
  /-- READ (R437): The device returns LEN bytes of control space. -/
  | read (hd : CmdHdr) (addr : Nat) (len : Nat)
  /-- WRITE (R437): The device writes LEN bytes of control space under each field's access code. -/
  | write (hd : CmdHdr) (addr : Nat) (data : List Byte)
  /-- TELEMETRY (R437): The device returns a consistent telemetry block. -/
  | telemetry (hd : CmdHdr)
  /-- FAULTLOG (R437): The device returns held fault-ledger entries. -/
  | faultlog (hd : CmdHdr) (first : Nat) (count : Nat)
  /-- WEAR_PUT (R402): The device checks a wear ledger and accepts it or starts fresh. -/
  | wearPut (hd : CmdHdr) (ledger : List Byte)
  /-- WEAR_NONE (R402): The host declares it has no ledger and the device starts fresh. -/
  | wearNone (hd : CmdHdr)
  /-- WEAR_EMIT (R437): The device emits a wear ledger and returns its SEQ and size. -/
  | wearEmit (hd : CmdHdr)
  /-- WEAR_GET (R437): The device returns bytes of the most recently emitted ledger. -/
  | wearGet (hd : CmdHdr) (offset : Nat) (len : Nat)
  /-- REPLAN (R397): The device runs a wear re-plan and returns the WEAR values. -/
  | replan (hd : CmdHdr)
  /-- MAP (R438): Base camp applies segment-map entries and migration requests in order. -/
  | map (hd : CmdHdr) (entries : List MapEntry)
  /-- TIME (R437): The device sets its time-tree root and parent ports. -/
  | time (hd : CmdHdr) (root : Bool) (parent alt1 alt2 : Nat)
  /-- ROUTE (R437): The device sets which ports carry dynamic records before an image is installed. -/
  | route (hd : CmdHdr) (ports : BitVec 16) (hops : Nat)
  /-- OBSERVERS (R437): The device replaces its list of observer key hashes. -/
  | observers (hd : CmdHdr) (keys : List (List Byte))
  /-- RELEASE (R437): The device clears OWNER_KEY and the observer list and ends every session. -/
  | release (hd : CmdHdr)
  /-- MACSEC (R414): The device installs a MACsec secure association for one port and direction. -/
  | macsec (hd : CmdHdr) (m : MacsecBody)
  /-- SVN (R437): Dormas raises FW_MIN_SVN up to the running image's SVN. -/
  | svn (hd : CmdHdr) (new : Nat)
  /-- QP_OPEN (R442): The device opens a RoCEv2 queue pair with its window and optional channel binding. -/
  | qpOpen (hd : CmdHdr) (q : QpBody)
  /-- QP_CLOSE (R437): The device closes a queue pair, keeping the bound channel's sender state. -/
  | qpClose (hd : CmdHdr) (qpn : Nat)
  /-- LOAD (R189): The loader reads, patches, verifies and installs an image for a position. -/
  | load (hd : CmdHdr) (b : LoadBody)
  /-- TEAM (R440): The device installs its rope-team configuration or arms itself as a spare. -/
  | team (hd : CmdHdr) (b : TeamBody)
  /-- START (R193): The device sets the step counter to STEP and schedules the tiles' start instant. -/
  | start (hd : CmdHdr) (at_ : Nat) (step : W64)
  /-- HALT (R441): The device passes a halt to its lead, which halts the team at K. -/
  | halt (hd : CmdHdr)
  /-- RESUME (R441): The device passes a resume to its lead, which restarts the team at K. -/
  | resume (hd : CmdHdr)
  /-- RESET (R441): The device answers and then performs a warm or block reset of the named kind. -/
  | reset (hd : CmdHdr) (kind : Nat) (index : Nat)
  /-- QUOTE (R454): The device returns a signed quote of its measurements and state. -/
  | quote (hd : CmdHdr) (nonce : List Byte)
  /-- WAYBILL (R463): The device returns a signed device waybill, or as lead gathers and signs a team waybill. -/
  | waybill (hd : CmdHdr) (scope : Nat) (inputDigest : List Byte)
  /-- ROCE_SEND (R419): A SEND on a bound queue pair is delivered as a channel message, or NAKed for lack of tolls. -/
  | roceSend (qpn : Nat) (data : List Byte)
  /-- RDMA_WRITE (R417): An RDMA WRITE inside the window is written to HBM and acknowledged after acceptance. -/
  | rdmaWrite (qpn : Nat) (rkey : Nat) (va : Nat) (data : List Byte)
  /-- RDMA_READ_REQUEST (R417): An RDMA READ inside the window is answered with read responses. -/
  | rdmaReadRequest (qpn : Nat) (rkey : Nat) (va : Nat) (len : Nat)
  /-- CNP (R411): A congestion notification lowers the queue pair's read-response rate. -/
  | cnp (qpn : Nat)
  /-- PFC_FRAME (R411): A priority flow control frame pauses the port's RoCEv2 priority. -/
  | pfcFrame (port : Nat) (pause : Nat)
  /-- ROUTER_ADVERTISEMENT (R412): A router advertisement lets the port form global addresses by autoconfiguration. -/
  | routerAdvertisement (port : Nat) (pfx : BitVec 64)
  /-- NEIGHBOUR_DISCOVERY (R412): The port answers neighbour discovery and duplicate address detection. -/
  | neighbourDiscovery (port : Nat) (target : BitVec 128) (dad : Bool)
  /-- ICMPV6_ECHO (R412): The port answers an ICMPv6 echo request. -/
  | icmpv6Echo (port : Nat) (dst : BitVec 128) (payload : List Byte)
  /-- HOST_LINK_CHANGE (R410): A host port's link comes up after negotiation or goes down. -/
  | hostLinkChange (port : Nat) (up : Bool) (speed : Nat)
  /-- STEP_DIGEST (R460): The lead or deputy extends a position's chain from its step digest. -/
  | stepDigest (pos : Nat) (poison : Bool) (s : W64) (sd : List Byte)
  /-- CHAIN (R460): A spare takes c(K − 1) as the start of its segment. -/
  | chain (pos : Nat) (km1 : W64) (c : List Byte)
  /-- WB_REQ (R463): A device answers the lead with a signed segment truncated at LAST. -/
  | wbReq (req : W64) (last : W64) (inputDigest : List Byte)
  /-- WB_PART (R463): The lead stores a device's signed segment for the team waybill. -/
  | wbPart (req : W64) (seg : List Byte)
  /-- WB_PART_TIMEOUT (R463): After 12 ms the lead fills missing segments unsigned and signs the waybill. -/
  | wbPartTimeout
  /-- SMB_CHIP_INFO (R500): SMBus command 0x00 returns CHIP_INFO. -/
  | smbChipInfo
  /-- SMB_TEMPERATURE (R500): SMBus command 0x01 returns the hottest compute-die sensor. -/
  | smbTemperature
  /-- SMB_PKG_STATUS (R500): SMBus command 0x02 returns PKG_STATUS. -/
  | smbPkgStatus
  /-- SMB_DEV_STATE (R500): SMBus command 0x03 returns DEV_STATE. -/
  | smbDevState
  /-- SMB_RESET_CAUSE (R500): SMBus command 0x04 returns RESET_CAUSE. -/
  | smbResetCause
  /-- SMB_PACKAGE_POWER (R500): SMBus command 0x05 returns the package power. -/
  | smbPackagePower
  /-- BYPASS (R500): The JTAG BYPASS instruction selects the bypass register. -/
  | bypass
  /-- IDCODE (R500): The JTAG IDCODE instruction reads the device identification code. -/
  | idcode
  /-- SAMPLE_PRELOAD (R500): The JTAG SAMPLE/PRELOAD instruction samples and preloads the boundary register. -/
  | samplePreload (shift : List Bool)
  /-- EXTEST (R500): The JTAG EXTEST instruction drives pins from the boundary register. -/
  | extest
  /-- CLAMP (R500): The JTAG CLAMP instruction holds pins from the boundary register. -/
  | clamp
  /-- HIGHZ (R500): The JTAG HIGHZ instruction places outputs in high impedance. -/
  | highz
  /-- EXTEST_PULSE (R500): The JTAG EXTEST_PULSE instruction tests AC-coupled SerDes lanes. -/
  | extestPulse
  /-- EXTEST_TRAIN (R500): The JTAG EXTEST_TRAIN instruction drives pulse trains on SerDes lanes. -/
  | extestTrain
  /-- DBG_RESET (R500): The JTAG DBG_RESET instruction requests a warm reset of cause 0x08. -/
  | dbgReset
  /-- STACK_TRAINED (R475): Dormas finishes training an HBM stack, STACK_UP sets and the stack begins to serve accesses. -/
  | stackTrained (d : Nat) (stack : Nat)
  /-- FRAME_DISCARD (R413): A host port discards a received frame or Tether packet and counts it in OTHER_DROPS, MACSEC_DROPS, ROCE_DROPS, TETHER_VER_DROPS, TETHER_BAD or AUTH_DROPS. -/
  | frameDiscard (port : Nat) (kind : DropKind)
  /-- INVALID_REQUEST (R415): A RoCEv2 packet of an unsupported kind on an open queue pair is answered with a NAK of invalid request and puts the queue pair into the error state. -/
  | invalidRequest (qpn : Nat)
  /-- CAP_OP_WRITE (R388): A write to POWER_CFG.CAP_OP changes the chip's ceiling, which makes the chip send a CEILING record or post a frequency change. -/
  | capOpWrite (op : Nat)
  /-- HP_CFG_WRITE (R446): A write to HP_CFG.ENABLE or SPEED takes a host port's link down or makes it renegotiate. -/
  | hpCfgWrite (port : Nat) (enable : Bool) (speed : Nat)
  /-- VAON_POWER_UP (R504): The always-on rail powers up, starting the always-on domain and clearing PKG_STATUS.TRIP_LAST and TRIP_SRC. -/
  | vaonPowerUp
  deriving DecidableEq, Repr

end Sys2Proof
end

