-- ==== Sys2Proof/WellFormed.lean ====
section
/-! DEFINITION. Well-formed commands: the field rules that the verifier applies to a slot (R61, R84, R95, R121, R147), and
the ranges of the indices and payloads that an event carries. -/

namespace Sys2Proof

/-! ### Slots -/

/-- How a scalar opcode uses its fields: D, A and B, the bits of X it uses, and the bound of IMM (R61, R62). -/
structure ScUse where
  d : Bool
  a : Bool
  b : Bool
  x : BitVec 9
  imm : Nat

/-- The rows of R62's table. -/
def scUse : Nat → Option ScUse
  | 0x00 => some ⟨false, false, false, 0x000, 1⟩
  | 0x01 => some ⟨true, true, true, 0x000, 1⟩
  | 0x02 => some ⟨true, true, true, 0x000, 1⟩
  | 0x03 => some ⟨true, true, true, 0x000, 1⟩
  | 0x04 => some ⟨true, true, true, 0x000, 1⟩
  | 0x05 => some ⟨true, true, true, 0x000, 1⟩
  | 0x06 => some ⟨true, true, true, 0x000, 1⟩
  | 0x07 => some ⟨true, true, true, 0x000, 1⟩
  | 0x08 => some ⟨true, true, true, 0x000, 1⟩
  | 0x09 => some ⟨true, true, true, 0x000, 1⟩
  | 0x0A => some ⟨true, true, true, 0x000, 1⟩
  | 0x0B => some ⟨true, true, true, 0x000, 1⟩
  | 0x0C => some ⟨true, true, true, 0x000, 1⟩
  | 0x0D => some ⟨true, true, true, 0x000, 1⟩
  | 0x0E => some ⟨true, true, true, 0x000, 1⟩
  | 0x0F => some ⟨true, true, true, 0x000, 1⟩
  | 0x10 => some ⟨true, true, true, 0x000, 1⟩
  | 0x11 => some ⟨true, true, true, 0x000, 1⟩
  | 0x12 => some ⟨true, true, true, 0x000, 1⟩
  | 0x13 => some ⟨true, true, true, 0x000, 1⟩
  | 0x14 => some ⟨true, true, true, 0x01F, 1⟩
  | 0x15 => some ⟨true, true, false, 0x000, 1⟩
  | 0x16 => some ⟨true, true, false, 0x000, 1⟩
  | 0x20 => some ⟨true, true, false, 0x000, 2 ^ 32⟩
  | 0x21 => some ⟨true, true, false, 0x000, 2 ^ 32⟩
  | 0x22 => some ⟨true, true, false, 0x000, 2 ^ 32⟩
  | 0x23 => some ⟨true, true, false, 0x000, 2 ^ 32⟩
  | 0x24 => some ⟨true, true, false, 0x000, 64⟩
  | 0x25 => some ⟨true, true, false, 0x000, 64⟩
  | 0x26 => some ⟨true, true, false, 0x000, 64⟩
  | 0x27 => some ⟨true, true, false, 0x000, 2 ^ 32⟩
  | 0x28 => some ⟨true, true, false, 0x000, 2 ^ 32⟩
  | 0x29 => some ⟨true, true, false, 0x000, 2 ^ 32⟩
  | 0x2A => some ⟨true, false, false, 0x000, 2 ^ 32⟩
  | 0x2B => some ⟨true, true, false, 0x000, 2 ^ 32⟩
  | 0x30 => some ⟨true, true, true, 0x000, 1⟩
  | 0x31 => some ⟨true, true, true, 0x000, 1⟩
  | 0x32 => some ⟨true, true, true, 0x000, 1⟩
  | 0x33 => some ⟨true, true, true, 0x01F, 1⟩
  | 0x34 => some ⟨true, true, true, 0x000, 1⟩
  | 0x35 => some ⟨true, true, true, 0x000, 1⟩
  | 0x36 => some ⟨true, true, true, 0x003, 1⟩
  | 0x37 => some ⟨true, true, false, 0x000, 1⟩
  | 0x38 => some ⟨true, true, false, 0x000, 1⟩
  | 0x40 => some ⟨true, true, true, 0x1F8, 2 ^ 32⟩
  | 0x41 => some ⟨true, true, true, 0x1B8, 2 ^ 32⟩
  | 0x50 => some ⟨false, true, false, 0x007, 2 ^ 32⟩
  | 0x51 => some ⟨false, true, true, 0x007, 2 ^ 32⟩
  | 0x52 => some ⟨true, false, false, 0x000, 2 ^ 32⟩
  | 0x53 => some ⟨false, true, false, 0x000, 1⟩
  | 0x54 => some ⟨false, false, false, 0x003, 4096⟩
  | 0x55 => some ⟨false, false, false, 0x000, 4096⟩
  | 0x60 => some ⟨false, true, false, 0x003, 1⟩
  | 0x61 => some ⟨false, false, false, 0x003, 2 ^ 32⟩
  | 0x62 => some ⟨true, false, false, 0x003, 1⟩
  | 0x63 => some ⟨true, false, false, 0x003, 1⟩
  | 0x64 => some ⟨true, true, false, 0x000, 1⟩
  | 0x65 => some ⟨true, false, false, 0x000, 256⟩
  | 0x66 => some ⟨true, true, false, 0x000, 1⟩
  | 0x67 => some ⟨true, false, false, 0x000, 1⟩
  | 0x68 => some ⟨true, false, false, 0x000, 1⟩
  | 0x69 => some ⟨true, false, false, 0x000, 1⟩
  | _ => none

/-- The scalar slot's field rules (R61, R65, R67, R70). -/
def scOk (opc : Nat) (f : ScF) : Bool :=
  match scUse opc with
  | none => false
  | some u =>
    (u.d || f.d == 0) && (u.a || f.a == 0) && (u.b || f.b == 0) && (f.x &&& ~~~u.x == 0) && decide (f.imm.toNat < u.imm)
      && (if opc = 0x40 ∨ opc = 0x41 then
            decide (f.x.toNat / 8 % 8 < 5) && (decide (f.x.toNat / 8 % 8 ≠ 0) || f.b == 0)
          else if opc = 0x50 then decide (f.x.toNat < 7)
          else if opc = 0x51 then decide (f.x.toNat < 6)
          else if opc = 0x54 then decide (1 ≤ f.imm.toNat) && decide (f.imm.toNat ≤ 4094)
          else true)

/-- The matrix slot's field rules (R84, R85, R87). -/
def mxOk (opc : Nat) (f : MxF) : Bool :=
  let none := f.acc == 0 && f.sb == 0 && f.h == 0 && f.z == 0 && f.f == 0 && f.a == 0 && f.b == 0 && f.l == 0
    && f.row == 0 && f.c == 0 && f.off == 0
  let addr := decide (f.l.toNat < 5) && (f.l != 0 || f.b == 0)
  let noAddr := f.f == 0 && f.a == 0 && f.b == 0 && f.off == 0 && decide (f.l.toNat < 5)
  match opc with
  | 0x00 => none
  | 0x01 => addr && f.acc == 0 && f.h == 0 && f.z == 0 && f.row == 0
  | 0x02 => addr
  | 0x03 => noAddr && f.sb == 0 && f.h == 0 && f.z == 0
  | 0x04 => noAddr && f.sb == 0 && f.z == 0
  | 0x05 => addr && f.sb == 0 && f.z == 0
  | _ => false

/-- What SUB holds (R95, R96): nothing; a type below a bound; a type and a condition; the integer type; a number 0 to 15;
the sizes of a chain. -/
inductive SubUse where
  | none
  | t (bound : Nat)
  | cond
  | int
  | low
  | chain

/-- How a vector opcode uses its fields: a bound for each of VD, VA, VB, VC, KM, MZ, F, GA, GB, L and IMM. -/
structure VeUse where
  vd : Nat
  va : Nat
  vb : Nat
  vc : Nat
  km : Nat
  mz : Nat
  f : Nat
  ga : Nat
  gb : Nat
  l : Nat
  sub : SubUse
  imm : Nat

/-- The rows of R96's table. -/
def veUse : Nat → Option VeUse
  | 0x00 => some ⟨1, 1, 1, 1, 1, 1, 1, 1, 1, 1, .none, 1⟩
  | 0x01 => some ⟨32, 32, 32, 1, 8, 2, 1, 1, 1, 1, .t 4, 1⟩
  | 0x02 => some ⟨32, 32, 32, 1, 8, 2, 1, 1, 1, 1, .t 4, 1⟩
  | 0x03 => some ⟨32, 32, 32, 1, 8, 2, 1, 1, 1, 1, .t 4, 1⟩
  | 0x04 => some ⟨32, 32, 32, 32, 8, 2, 1, 1, 1, 1, .t 3, 1⟩
  | 0x05 => some ⟨32, 32, 32, 1, 8, 2, 1, 1, 1, 1, .t 4, 1⟩
  | 0x06 => some ⟨32, 32, 32, 1, 8, 2, 1, 1, 1, 1, .t 4, 1⟩
  | 0x07 => some ⟨32, 32, 1, 1, 8, 2, 1, 1, 1, 1, .t 4, 1⟩
  | 0x08 => some ⟨32, 32, 1, 1, 8, 2, 1, 1, 1, 1, .t 4, 1⟩
  | 0x09 => some ⟨32, 32, 32, 1, 8, 2, 1, 1, 1, 1, .t 1, 1⟩
  | 0x0A => some ⟨8, 32, 32, 1, 8, 2, 1, 1, 1, 1, .cond, 1⟩
  | 0x10 => some ⟨32, 32, 32, 1, 8, 2, 1, 1, 1, 1, .int, 1⟩
  | 0x11 => some ⟨32, 32, 32, 1, 8, 2, 1, 1, 1, 1, .int, 1⟩
  | 0x12 => some ⟨32, 32, 32, 1, 8, 2, 1, 1, 1, 1, .int, 1⟩
  | 0x13 => some ⟨32, 32, 32, 1, 8, 2, 1, 1, 1, 1, .int, 1⟩
  | 0x14 => some ⟨32, 32, 32, 1, 8, 2, 1, 1, 1, 1, .int, 1⟩
  | 0x15 => some ⟨32, 32, 32, 1, 8, 2, 1, 1, 1, 1, .int, 1⟩
  | 0x18 => some ⟨32, 32, 1, 1, 8, 2, 1, 1, 1, 1, .none, 1⟩
  | 0x19 => some ⟨32, 1, 1, 1, 8, 2, 1, 32, 1, 1, .none, 1⟩
  | 0x1A => some ⟨32, 1, 1, 1, 8, 2, 1, 1, 1, 1, .none, 2 ^ 32⟩
  | 0x1B => some ⟨32, 1, 1, 1, 8, 2, 1, 1, 1, 1, .none, 2 ^ 32⟩
  | 0x1C => some ⟨1, 32, 1, 1, 1, 1, 1, 32, 1, 1, .none, 128⟩
  | 0x1D => some ⟨32, 1, 1, 1, 1, 1, 1, 32, 1, 1, .none, 128⟩
  | 0x20 => some ⟨32, 32, 32, 1, 8, 2, 32, 32, 1, 1, .none, 1⟩
  | 0x21 => some ⟨32, 32, 1, 1, 8, 2, 32, 1, 1, 1, .none, 2⟩
  | 0x22 => some ⟨32, 32, 1, 1, 8, 2, 1, 1, 1, 1, .none, 1⟩
  | 0x23 => some ⟨32, 32, 1, 1, 8, 2, 1, 1, 1, 1, .none, 1⟩
  | 0x24 => some ⟨32, 32, 1, 1, 1, 1, 32, 32, 1, 1, .none, 1⟩
  | 0x25 => some ⟨32, 32, 1, 1, 8, 2, 32, 1, 1, 1, .none, 1⟩
  | 0x28 => some ⟨32, 32, 1, 1, 8, 2, 1, 1, 1, 1, .low, 1⟩
  | 0x30 => some ⟨32, 32, 1, 1, 8, 1, 1, 1, 1, 1, .none, 1⟩
  | 0x31 => some ⟨32, 32, 1, 1, 8, 1, 1, 1, 1, 1, .none, 1⟩
  | 0x32 => some ⟨32, 32, 1, 1, 8, 1, 1, 1, 1, 1, .none, 1⟩
  | 0x33 => some ⟨32, 32, 1, 1, 8, 1, 1, 1, 1, 1, .none, 1⟩
  | 0x38 => some ⟨32, 32, 1, 1, 8, 2, 1, 32, 1, 1, .none, 1⟩
  | 0x39 => some ⟨32, 32, 1, 1, 8, 2, 1, 1, 1, 1, .none, 1⟩
  | 0x3A => some ⟨32, 32, 32, 1, 8, 2, 1, 1, 1, 1, .none, 1⟩
  | 0x3B => some ⟨32, 32, 1, 1, 8, 2, 1, 1, 1, 1, .none, 128⟩
  | 0x40 => some ⟨8, 8, 8, 1, 1, 1, 1, 1, 1, 1, .none, 1⟩
  | 0x41 => some ⟨8, 8, 8, 1, 1, 1, 1, 1, 1, 1, .none, 1⟩
  | 0x42 => some ⟨8, 8, 8, 1, 1, 1, 1, 1, 1, 1, .none, 1⟩
  | 0x43 => some ⟨8, 8, 8, 1, 1, 1, 1, 1, 1, 1, .none, 1⟩
  | 0x44 => some ⟨8, 1, 1, 1, 1, 1, 1, 32, 1, 1, .none, 1⟩
  | 0x45 => some ⟨1, 8, 1, 1, 1, 1, 1, 32, 1, 1, .none, 1⟩
  | 0x50 => some ⟨32, 1, 1, 1, 8, 2, 1, 32, 32, 5, .low, 2 ^ 32⟩
  | 0x51 => some ⟨1, 32, 1, 1, 8, 2, 1, 32, 32, 5, .low, 2 ^ 32⟩
  | 0x60 => some ⟨32, 32, 32, 32, 8, 2, 1, 32, 32, 1, .chain, 2 ^ 32⟩
  | _ => none

/-- The values of SUB that an opcode accepts. -/
def subOk (u : SubUse) (sub : Nat) : Bool :=
  match u with
  | .none => decide (sub = 0)
  | .t b => decide (sub < b)
  | .cond => decide (sub < 32) && decide (sub / 4 < 7) && (decide (sub / 4 ≠ 6) || decide (sub % 4 ≠ 3))
  | .int => decide (sub = 3)
  | .low => decide (sub < 16)
  | .chain => decide (sub < 32)

/-- The vector slot's field rules (R95 to R97, R104). -/
def veOk (opc : Nat) (f : VeF) : Bool :=
  match veUse opc with
  | none => false
  | some u =>
    decide (f.vd.toNat < u.vd) && decide (f.va.toNat < u.va) && decide (f.vb.toNat < u.vb) && decide (f.vc.toNat < u.vc)
      && decide (f.km.toNat < u.km) && decide (f.mz.toNat < u.mz) && decide (f.f.toNat < u.f) && decide (f.ga.toNat < u.ga)
      && decide (f.gb.toNat < u.gb) && decide (f.l.toNat < u.l) && subOk u.sub f.sub.toNat && decide (f.imm.toNat < u.imm)
      && (if opc = 0x50 ∨ opc = 0x51 then f.l != 0 || f.gb == 0
          else if opc = 0x60 then decide (f.vd.toNat + f.sub.toNat / 8 ≤ 31)
          else true)

/-- The load slot's field rules (R121, R122). -/
def ldOk (opc : Nat) (f : LsF) : Bool :=
  let noToll := f.tv == 0 && f.toll == 0
  match opc with
  | 0x00 => noToll && f.sv == 0 && f.sem == 0 && f.ga == 0 && f.gb == 0 && f.gc == 0 && f.imm == 0
  | 0x01 => noToll
  | 0x02 => noToll && f.ga == 0 && f.imm == 0
  | 0x03 => noToll && f.ga == 0 && f.gb == 0 && f.gc == 0
  | _ => false

/-- The store slot's field rules (R121, R122). -/
def stOk (opc : Nat) (f : LsF) : Bool :=
  match opc with
  | 0x00 => f.tv == 0 && f.toll == 0 && f.sv == 0 && f.sem == 0 && f.ga == 0 && f.gb == 0 && f.gc == 0 && f.imm == 0
  | 0x01 => true
  | 0x02 => f.ga == 0 && f.imm == 0
  | 0x03 => f.tv == 0 && f.toll == 0 && f.ga == 0 && f.gc == 0 && decide (1 ≤ f.imm.toNat) && decide (f.imm.toNat < 256)
  | _ => false

/-! ### Payloads -/

def Unit64.wf (u : Unit64) : Bool := decide (u.bytes.length = 64)

def InWrite.wf (w : InWrite) : Bool := decide (w.stream < 200) && decide (w.tile < 200) && decide (w.addr < 2 ^ 21)

def InSignal.wf (r : InSignal) : Bool := decide (1 ≤ r.inc) && decide (r.inc < 65536)

def InMsg.wf (m : InMsg) : Bool :=
  decide (m.ltile < 192) && decide (m.ch < 16) && decide (m.seq < 65536) && decide (m.data.length % 16 = 0)
    && decide (1 ≤ m.data.length / 16) && decide (m.data.length / 16 ≤ 4)

/-- The command of a protected packet names a port and a session. -/
def CmdHdr.wf (h : CmdHdr) : Bool := decide (h.port < 8)

def tileOk (n : Nat) : Bool := decide (n < 200)
def portOk (p : Nat) : Bool := decide (p < 16)
def hostOk (p : Nat) : Bool := decide (p < 8)
def rowOk (r : Nat) : Bool := decide (r < 8)
def depotOk (d : Nat) : Bool := decide (d < 4)
def stackOk (k : Nat) : Bool := decide (k < 5)

/-! ### Commands -/

/-- A well-formed command. -/
def Instr.wf (i : Instr) : Bool :=
  match i with
  | .nop n => tileOk n
  | .add n f => tileOk n && scOk 0x01 f
  | .sub n f => tileOk n && scOk 0x02 f
  | .and n f => tileOk n && scOk 0x03 f
  | .or n f => tileOk n && scOk 0x04 f
  | .xor n f => tileOk n && scOk 0x05 f
  | .shl n f => tileOk n && scOk 0x06 f
  | .shr n f => tileOk n && scOk 0x07 f
  | .sar n f => tileOk n && scOk 0x08 f
  | .mul n f => tileOk n && scOk 0x09 f
  | .mulhu n f => tileOk n && scOk 0x0A f
  | .divu n f => tileOk n && scOk 0x0B f
  | .remu n f => tileOk n && scOk 0x0C f
  | .slt n f => tileOk n && scOk 0x0D f
  | .sltu n f => tileOk n && scOk 0x0E f
  | .seq n f => tileOk n && scOk 0x0F f
  | .min n f => tileOk n && scOk 0x10 f
  | .minu n f => tileOk n && scOk 0x11 f
  | .max n f => tileOk n && scOk 0x12 f
  | .maxu n f => tileOk n && scOk 0x13 f
  | .sel n f => tileOk n && scOk 0x14 f
  | .clz n f => tileOk n && scOk 0x15 f
  | .popc n f => tileOk n && scOk 0x16 f
  | .addi n f => tileOk n && scOk 0x20 f
  | .andi n f => tileOk n && scOk 0x21 f
  | .ori n f => tileOk n && scOk 0x22 f
  | .xori n f => tileOk n && scOk 0x23 f
  | .shli n f => tileOk n && scOk 0x24 f
  | .shri n f => tileOk n && scOk 0x25 f
  | .sari n f => tileOk n && scOk 0x26 f
  | .muli n f => tileOk n && scOk 0x27 f
  | .slti n f => tileOk n && scOk 0x28 f
  | .sltiu n f => tileOk n && scOk 0x29 f
  | .movi n f => tileOk n && scOk 0x2A f
  | .movhi n f => tileOk n && scOk 0x2B f
  | .fadd n f => tileOk n && scOk 0x30 f
  | .fsub n f => tileOk n && scOk 0x31 f
  | .fmul n f => tileOk n && scOk 0x32 f
  | .ffma n f => tileOk n && scOk 0x33 f
  | .fmin n f => tileOk n && scOk 0x34 f
  | .fmax n f => tileOk n && scOk 0x35 f
  | .fcmp n f => tileOk n && scOk 0x36 f
  | .fcvtFi n f => tileOk n && scOk 0x37 f
  | .fcvtIf n f => tileOk n && scOk 0x38 f
  | .lds n f => tileOk n && scOk 0x40 f
  | .sts n f => tileOk n && scOk 0x41 f
  | .br n f => tileOk n && scOk 0x50 f
  | .brc n f => tileOk n && scOk 0x51 f
  | .jal n f => tileOk n && scOk 0x52 f
  | .ret n f => tileOk n && scOk 0x53 f
  | .loop n f => tileOk n && scOk 0x54 f
  | .iswap n f => tileOk n && scOk 0x55 f
  | .lcset n f => tileOk n && scOk 0x60 f
  | .lcseti n f => tileOk n && scOk 0x61 f
  | .lcget n f => tileOk n && scOk 0x62 f
  | .lcidx n f => tileOk n && scOk 0x63 f
  | .fset n f => tileOk n && scOk 0x64 f
  | .fseti n f => tileOk n && scOk 0x65 f
  | .fget n f => tileOk n && scOk 0x66 f
  | .tid n f => tileOk n && scOk 0x67 f
  | .lpos n f => tileOk n && scOk 0x68 f
  | .rdstep n f => tileOk n && scOk 0x69 f
  | .mxNop n => tileOk n
  | .mxFill n f => tileOk n && mxOk 1 f
  | .mxStream n f => tileOk n && mxOk 2 f
  | .mxRowmul n f => tileOk n && mxOk 3 f
  | .mxDrainv n f => tileOk n && mxOk 4 f
  | .mxDrains n f => tileOk n && mxOk 5 f
  | .vnop n => tileOk n
  | .vadd n f => tileOk n && veOk 0x01 f
  | .vsub n f => tileOk n && veOk 0x02 f
  | .vmul n f => tileOk n && veOk 0x03 f
  | .vfma n f => tileOk n && veOk 0x04 f
  | .vmax n f => tileOk n && veOk 0x05 f
  | .vmin n f => tileOk n && veOk 0x06 f
  | .vabs n f => tileOk n && veOk 0x07 f
  | .vneg n f => tileOk n && veOk 0x08 f
  | .vldexp n f => tileOk n && veOk 0x09 f
  | .vcmp n f => tileOk n && veOk 0x0A f
  | .vand n f => tileOk n && veOk 0x10 f
  | .vor n f => tileOk n && veOk 0x11 f
  | .vxor n f => tileOk n && veOk 0x12 f
  | .vshl n f => tileOk n && veOk 0x13 f
  | .vshr n f => tileOk n && veOk 0x14 f
  | .vsar n f => tileOk n && veOk 0x15 f
  | .vmov n f => tileOk n && veOk 0x18 f
  | .vbcast n f => tileOk n && veOk 0x19 f
  | .vsplat n f => tileOk n && veOk 0x1A f
  | .viota n f => tileOk n && veOk 0x1B f
  | .vextr n f => tileOk n && veOk 0x1C f
  | .vinsl n f => tileOk n && veOk 0x1D f
  | .vnarrow n f => tileOk n && veOk 0x20 f
  | .vwiden n f => tileOk n && veOk 0x21 f
  | .vcvtFi n f => tileOk n && veOk 0x22 f
  | .vcvtIf n f => tileOk n && veOk 0x23 f
  | .vpack n f => tileOk n && veOk 0x24 f
  | .vunpack n f => tileOk n && veOk 0x25 f
  | .vcurve n f => tileOk n && veOk 0x28 f
  | .vrsum n f => tileOk n && veOk 0x30 f
  | .vrmax n f => tileOk n && veOk 0x31 f
  | .vrmin n f => tileOk n && veOk 0x32 f
  | .vrisum n f => tileOk n && veOk 0x33 f
  | .vcompress n f => tileOk n && veOk 0x38 f
  | .vexpand n f => tileOk n && veOk 0x39 f
  | .vperm n f => tileOk n && veOk 0x3A f
  | .vrot n f => tileOk n && veOk 0x3B f
  | .kand n f => tileOk n && veOk 0x40 f
  | .kor n f => tileOk n && veOk 0x41 f
  | .kxor n f => tileOk n && veOk 0x42 f
  | .kandn n f => tileOk n && veOk 0x43 f
  | .kfirst n f => tileOk n && veOk 0x44 f
  | .kpopc n f => tileOk n && veOk 0x45 f
  | .vld n f => tileOk n && veOk 0x50 f
  | .vst n f => tileOk n && veOk 0x51 f
  | .vchain n f => tileOk n && veOk 0x60 f
  | .ldNop n => tileOk n
  | .ld n f => tileOk n && ldOk 1 f
  | .ldStrm n f => tileOk n && ldOk 2 f
  | .ldOvl n f => tileOk n && ldOk 3 f
  | .stNop n => tileOk n
  | .st n f => tileOk n && stOk 1 f
  | .stStrm n f => tileOk n && stOk 2 f
  | .stPost n f => tileOk n && stOk 3 f
  | .syNop n => tileOk n
  | .wait n _ => tileOk n
  | .waitK n _ => tileOk n
  | .sig n f => tileOk n && decide (1 ≤ f.n.toNat)
  | .sdec n f => tileOk n && decide (1 ≤ f.n.toNat)
  | .rsig n f => tileOk n && decide (1 ≤ f.n.toNat)
  | .arrive n _ => tileOk n
  | .bwait n _ => tileOk n
  | .belay n _ => tileOk n
  | .send n _ => tileOk n
  | .recv n _ => tileOk n
  | .recvR n _ => tileOk n
  | .loopEnd n _ => tileOk n
  | .stop n => tileOk n
  | .pipelineWriteback n => tileOk n
  | .bankStallEnd n => tileOk n
  | .tileDone n => tileOk n
  | .imemParity n => tileOk n
  | .ldExecute n => tileOk n
  | .ldStrmExecute n => tileOk n
  | .ldOvlExecute n => tileOk n
  | .stExecute n => tileOk n
  | .stStrmExecute n => tileOk n
  | .stPostExecute n => tileOk n
  | .sendExecute n => tileOk n
  | .tollTake n => tileOk n
  | .engineCompletion n _ => tileOk n
  | .inboundWrite w => w.wf
  | .remoteSignal r => r.wf
  | .belayArrival _ tag => decide (tag < 4)
  | .messageDelivery m => m.wf
  | .stageMessage n c => tileOk n && decide (c < 16)
  | .padSkip n c => tileOk n && decide (c < 16)
  | .duplicateSkip n c => tileOk n && decide (c < 16)
  | .waitWatchdog n _ => tileOk n
  | .boundaryWatchdog r => rowOk r
  | .stretch r _ => rowOk r
  | .partnerRst e => decide (e < 37)
  | .ownResetEnd e => decide (e < 37)
  | .partnerAckFall e => decide (e < 37)
  | .partnerReady e => decide (e < 37)
  | .timeBeacon region => decide (region < 37)
  | .gtcRead => true
  | .waypointSend p => portOk p
  | .waypointRecord p _ => portOk p
  | .parentLost => true
  | .settledTimeout => true
  | .freqRecord op _ => decide (op < 8)
  | .frequencySwitch => true
  | .referenceLost _ => true
  | .referenceGood _ => true
  | .refSelect => true
  | .clockFailure => true
  | .portEnable p => portOk p
  | .portDisable p => portOk p
  | .signalPresent p => portOk p
  | .trainComplete p => portOk p
  | .trainTimeout p _ => portOk p
  | .linkRetryTimer p => portOk p
  | .capabilityFlit p _ => portOk p
  | .alignComplete p _ => portOk p
  | .slotTransmit p => portOk p.port
  | .slotReceive p _ _ _ _ => portOk p
  | .retryTimeout p => portOk p
  | .portWatchdog p => portOk p
  | .retryLimit p => portOk p
  | .laneFail p => portOk p
  | .queueRoom p _ => portOk p
  | .writeRecord _ => true
  | .postRecord _ => true
  | .signalRecord _ => true
  | .arriveRecord _ => true
  | .releaseRecord _ => true
  | .msgRecord _ => true
  | .reduceRecord p _ => portOk p
  | .logRecord _ => true
  | .logEntryResume => true
  | .switchRecord p _ => portOk p
  | .switchLeg => true
  | .previousTablesExpire => true
  | .detourRecord p _ _ => portOk p
  | .brokenRecord _ _ _ => true
  | .scrub d seg => depotOk d && decide (seg < 4194304) && decide (seg % 4 = d)
  | .migrationStart seg => decide (seg < 4194304)
  | .migrationCopy d stack => depotOk d && stackOk stack
  | .migrationComplete d stack => depotOk d && stackOk stack
  | .rowRetire d stack => depotOk d && stackOk stack
  | .reduceBlockSend _ => true
  | .reduceSlotRelease _ _ => true
  | .d2dRetry d _ => depotOk d
  | .d2dModuleLost d => depotOk d
  | .updateHandoff _ _ => true
  | .updateBlock d u => depotOk d && stackOk u
  | .blockWrittenBack d u => depotOk d && stackOk u
  | .poisonReport _ => true
  | .tileFault n => tileOk n
  | .baseCampArrival => true
  | .stepEnd => true
  | .cairnChunk => true
  | .cairnCommit _ _ _ _ _ => true
  | .cairnAck _ _ _ _ => true
  | .logAck _ _ _ => true
  | .heartbeatSend => true
  | .heartbeat _ _ _ => true
  | .heartbeatTimeout _ => true
  | .report _ => true
  | .mirror _ => true
  | .haltRecord _ _ _ => true
  | .takeover _ _ _ _ => true
  | .fetch _ _ _ _ _ => true
  | .restore => true
  | .restored _ _ => true
  | .startRecord _ _ _ _ _ => true
  | .repairReload => true
  | .programStart r => rowOk r
  | .ceiling _ c => decide (c < 8)
  | .ceilingRefresh => true
  | .ceilingExpire _ => true
  | .powerSample _ _ => true
  | .temperatureSample _ _ _ _ => true
  | .throttleEvaluation => true
  | .tokenWindow r => rowOk r
  | .regulatorFault _ => true
  | .avsTimeout _ => true
  | .wearMonitorSample _ => true
  | .replanHours => true
  | .wearLedgerEmit => true
  | .telemetryRewrite => true
  | .sidebandEvaluation => true
  | .bcWdogKick _ => true
  | .bcWatchdog => true
  | .lockup _ => true
  | .sramUncorrectable => true
  | .softwareRequest => true
  | .powerOn _ src => decide (src < 4)
  | .brownOut _ => true
  | .rstNAssert _ => true
  | .rstNRelease _ _ => true
  | .tetherReset => true
  | .firmwareCheck => true
  | .thermalTrip src => decide (1 ≤ src) && decide (src < 4)
  | .tripRelease => true
  | .blockResetTile i => tileOk i
  | .blockResetRow i => rowOk i
  | .blockResetDepot i => depotOk i
  | .blockResetCaravanPort i => portOk i
  | .blockResetHostPort i => hostOk i
  | .blockIdle => true
  | .blockResetTimeout => true
  | .registerWrite _ off _ => decide (off < 2 ^ 32)
  | .discover port nonce => hostOk port && decide (nonce.length = 32)
  | .fw _ _ _ => true
  | .fwVerify => true
  | .feederTimeout => true
  | .hello1 port _ => hostOk port
  | .hello3 hd _ => hd.wf
  | .halfOpenTimeout _ => true
  | .ack hd _ => hd.wf
  | .close hd => hd.wf
  | .tetherResend _ => true
  | .tetherKeepalive _ => true
  | .sessionTimeout _ => true
  | .read hd _ _ => hd.wf
  | .write hd _ _ => hd.wf
  | .telemetry hd => hd.wf
  | .faultlog hd _ _ => hd.wf
  | .wearPut hd _ => hd.wf
  | .wearNone hd => hd.wf
  | .wearEmit hd => hd.wf
  | .wearGet hd _ _ => hd.wf
  | .replan hd => hd.wf
  | .map hd _ => hd.wf
  | .time hd _ _ _ _ => hd.wf
  | .route hd _ _ => hd.wf
  | .observers hd _ => hd.wf
  | .release hd => hd.wf
  | .macsec hd _ => hd.wf
  | .svn hd _ => hd.wf
  | .qpOpen hd _ => hd.wf
  | .qpClose hd _ => hd.wf
  | .load hd _ => hd.wf
  | .team hd _ => hd.wf
  | .start hd _ _ => hd.wf
  | .halt hd => hd.wf
  | .resume hd => hd.wf
  | .reset hd _ _ => hd.wf
  | .quote hd _ => hd.wf
  | .waybill hd _ _ => hd.wf
  | .roceSend _ _ => true
  | .rdmaWrite _ _ _ _ => true
  | .rdmaReadRequest _ _ _ _ => true
  | .cnp _ => true
  | .pfcFrame port _ => hostOk port
  | .routerAdvertisement port _ => hostOk port
  | .neighbourDiscovery port _ _ => hostOk port
  | .icmpv6Echo port _ _ => hostOk port
  | .hostLinkChange port _ speed => hostOk port && decide (speed < 8)
  | .stepDigest _ _ _ _ => true
  | .chain _ _ _ => true
  | .wbReq _ _ _ => true
  | .wbPart _ _ => true
  | .wbPartTimeout => true
  | .smbChipInfo => true
  | .smbTemperature => true
  | .smbPkgStatus => true
  | .smbDevState => true
  | .smbResetCause => true
  | .smbPackagePower => true
  | .bypass => true
  | .idcode => true
  | .samplePreload _ => true
  | .extest => true
  | .clamp => true
  | .highz => true
  | .extestPulse => true
  | .extestTrain => true
  | .dbgReset => true
  | .stackTrained d stack => depotOk d && stackOk stack
  | .frameDiscard port _ => hostOk port
  | .invalidRequest _ => true
  | .capOpWrite op => decide (op < 8)
  | .hpCfgWrite port _ speed => hostOk port && decide (speed < 8)
  | .vaonPowerUp => true

end Sys2Proof
end

