-- ==== Sys2Proof/Config.lean ====
section
/-! DEFINITION. What the spec leaves to the part or to mathematics outside it, as constants without a body: nothing can
prove a value of them. The log rows name each. -/

namespace Sys2Proof

/-- A fresh value that nothing constrains (log 5): the state's counter `freeCtr` is its argument. -/
opaque Config.freeValue : Nat → Nat

/-- The identity key's ECDSA signature over a message, r then s (R450; log 6). -/
opaque Config.sign : List Byte → List Byte

/-- Whether a signature over a message verifies under a public key (R380, R402, R427; log 6). -/
opaque Config.verifies : (key msg sig : List Byte) → Bool

/-- The session key block of R428 from the device's ephemeral secret, HEPH and the transcript (log 6). -/
opaque Config.sessionKeys : (secret : Nat) → (heph transcript : List Byte) → List Byte

/-- The device's ephemeral public key for an ephemeral secret (R427; log 6). -/
opaque Config.ephemeralKey : Nat → List Byte

/-- The certificate chain in the fuses (R451; log 6). -/
opaque Config.certChain : List Byte

/-- The drift, in ppb, that the waypoint history estimates (R230; log 7). -/
opaque Config.driftEstimate : List Int → Int

/-- Whether a low pulse on RST_N of this length in ns, from 100 up to 1000, is taken; the second argument makes the
answer differ from pulse to pulse (R467; log 9). -/
opaque Config.shortPulseTaken : (lowNs occasion : Nat) → Bool

/-- The reading of the GPIO pins by index of the reading (R504; log 10). -/
opaque Config.gpioIn : Nat → BitVec 8

/-- Whether a rail's regulator is late at the instant of a change to a faster point (R393; log 14): the first argument
makes the answer differ from change to change, the second is the rail. -/
opaque Config.regulatorLate : (occasion rail : Nat) → Bool

/-- Whether the median of an even number of samples, whose middle two these are, rounds a half up (R396; log 20). -/
opaque Config.medianHalf : Int → Int → Bool

/-- The flit of an echo exchange, by the slot count at which it goes out: R253 gives it no layout (log 22). -/
opaque Config.echoFlit : Nat → BitVec 2048

/-- Whether an error falls in step 7 of a load: R189 and R433 name such an error and R359 what it ends, and nothing says
when there is one (log 80). -/
opaque Config.loadFails : (occasion : Nat) → Bool

end Sys2Proof
end

