-- ==== Sys2Proof/Machine/State.lean ====
section
/-! DEFINITION. The state of the device as plain data, its reset value, and the reasons a step can stop. A field's
default is its value at reset; the rule that names it stands in its docstring. -/

namespace Sys2Proof.Machine

open Sys2Proof

/-- A sparse array: pairs of an index and its entry, indices strictly rising. The operations that read and write it
are in Machine/Ops.lean. -/
abbrev SMap (α : Type) := List (Nat × α)

/-- A v register, or an accumulator row: 128 lanes (R93). -/
abbrev Lanes := List Gran

/-- 128 lanes of zero, poison clear. -/
def Lanes.zero : Lanes := List.replicate 128 ⟨0, false⟩

/-! ### A tile -/

/-- A scalar register with its poison bit (R52). -/
structure GReg where
  v : W64 := 0
  p : Bool := false
  deriving DecidableEq, Repr

/-- A loop counter: its count and its index (R52, R70). -/
structure LoopCtr where
  count : W32 := 0
  index : W32 := 0
  deriving DecidableEq, Repr

/-- A loop that is active: its level, the first bundle of its body, the body's length and the latched trip count
(R70). -/
structure LoopFrame where
  lc : Nat
  start : Nat
  len : Nat
  trip : Nat
  deriving DecidableEq, Repr

/-- What the next issue cycle issues (R54, R67, R70, R71, R75, R60). -/
inductive Ctl where
  /-- the next bundle in order -/
  | seq
  /-- a bubble, then the bundle at the target -/
  | jump (half : Bool) (target : BitVec 12)
  /-- the bundle at the target, after the bubble of a jump -/
  | land (half : Bool) (target : BitVec 12)
  /-- the bundle at the target, with no bubble (a loop-back) -/
  | back (target : BitVec 12)
  /-- bubbles only, after STOP -/
  | stopped
  deriving DecidableEq, Repr

/-- TILE_STATUS.STATE (R80). -/
inductive TileSt where
  | idle
  | run
  | hold
  | done
  | fault
  deriving DecidableEq, Repr

/-- One accumulation block's contribution to an accumulator element (R41 to R43): exact, as m × 2^e. -/
inductive Contrib where
  | nan
  | inf (neg : Bool)
  | fin (m : Int) (e : Int)
  deriving DecidableEq, Repr

/-- The contributions of one stationary column, in ascending K, and whether a poisoned value entered (R92). -/
structure DotCol where
  blocks : List Contrib
  poison : Bool
  deriving DecidableEq, Repr

/-- One column of a stationary block: element codes and scale codes, each with poison (R83, R92). -/
structure SbCol where
  codes : List (Nat × Bool)
  scales : List (Nat × Bool)
  deriving DecidableEq, Repr

/-- A stationary buffer (R52, R88): `filled` is false until its first fill of a run; `fmt` is the format register's
value read by the fill. -/
structure SbBuf where
  filled : Bool := false
  fmt : W32 := 0
  cols : SMap SbCol := []
  deriving DecidableEq, Repr

/-- What a running fill needs in its later read cycles (R88). -/
structure FillReq where
  key : Nat
  sb : Nat
  fmt : W32
  e : Nat
  s : Nat
  deriving DecidableEq, Repr

/-- An effect of an issued instruction that becomes visible in a later issue cycle (R55). -/
inductive Effect where
  | g (r : Nat) (v : W64) (p : Bool)
  | v (r : Nat) (val : Lanes)
  | k (r : Nat) (val : BitVec 128)
  | f (r : Nat) (val : W32)
  | lcCount (l : Nat) (c : W32)
  | lcIndex (l : Nat) (i : W32)
  | spad (addr : Nat) (data : List (Byte × Bool))
  | accStream (row : Nat) (z : Bool) (cols : List DotCol)
  | accMul (row : Nat) (lanes : Lanes)
  | accClear (row : Nat)
  /-- reads columns 8i to 8i + 7 at the end of the issue cycle in which it falls due (R88) -/
  | fillRead (q : FillReq) (i : Nat)
  | fillSwitch (key sb : Nat)
  | bankWrite (words : List Nat)
  deriving DecidableEq, Repr

/-- An effect in flight and the issue cycle in which it becomes visible. -/
structure InFlight where
  due : Nat
  eff : Effect
  deriving DecidableEq, Repr

/-- The engine commands (R122, R163). -/
inductive EngKind where
  | ld
  | ldStrm
  | ldOvl
  | st
  | stStrm
  | stPost
  | send
  deriving DecidableEq, Repr

/-- A stream descriptor (R130); `bad` where R132 refuses it. -/
structure StrmDesc where
  tbase : W64
  ibase : W64
  tlen : Nat
  count : Nat
  runits : Nat
  tstride : Nat
  lstride : Nat
  lbase : Nat
  bias : Nat
  szero : Bool
  isrc : Nat
  bad : Bool
  deriving DecidableEq, Repr

/-- A queued engine command with the register values read at issue (R122, R507), and how far it has come: `dead` when
an operand was poisoned, `done` when it has moved everything, `tolls` taken and not yet used, `waiting` for that many
tolls (0 = not waiting), `row` the stream rows or 64-byte units handled. -/
structure EngCmd where
  kind : EngKind
  sv : Bool
  sem : Nat
  a : W64 := 0
  b : W64 := 0
  c : W64 := 0
  useC : Bool := false
  imm : Nat := 0
  tv : Bool := false
  toll : Nat := 0
  oc : Nat := 0
  len : Nat := 0
  dead : Bool := false
  done : Bool := false
  tolls : Nat := 0
  waiting : Nat := 0
  row : Nat := 0
  /-- the descriptor as it stood when the command came to the head of its queue (R130) -/
  desc : Option StrmDesc := none
  /-- enqueued in this row cycle: the engine reaches the command in a later one (R126) -/
  fresh : Bool := false
  deriving DecidableEq, Repr

/-- A local semaphore (R144, R171): its value at the start of the row cycle, and the increments and decrements that the
row cycle has gathered, which its end applies together (R146). -/
structure Sem where
  value : Nat := 0
  incs : Nat := 0
  decs : Nat := 0
  ovf : Bool := false
  unf : Bool := false
  deriving DecidableEq, Repr

/-- A belay port (R156, R174). -/
structure BPort where
  valid : Bool := false
  chip : Nat := 0
  index : Nat := 0
  tag : BitVec 2 := 3
  next : BitVec 2 := 0
  rel : BitVec 2 := 0
  deriving DecidableEq, Repr

/-- What stands next in a channel's ring, in delivery order (R165). -/
inductive RingItem where
  | pad (at_ : Nat)
  | message (at_ : Nat) (len : Nat) (seq : Nat)
  | duplicate (at_ : Nat) (len : Nat)
  deriving DecidableEq, Repr

/-- A staged message (R165): its ring position, sequence number and granules. -/
structure Staged where
  pos : Nat
  seq : Nat
  len : Nat
  data : List Gran
  deriving DecidableEq, Repr

/-- An inbound channel (R161, R165, R175); `sender` is the SENDER word of R182. -/
structure Chan where
  valid : Bool := false
  src : Nat := 0
  size : Nat := 0
  base : Nat := 0
  sender : W64 := 0
  /-- the sender's toll semaphore, which grants raise (log 13) -/
  tollRef : W64 := 0
  expSeq : BitVec 16 := 0
  rdPos : Nat := 0
  seqGap : Bool := false
  items : List RingItem := []
  staged : Option Staged := none
  delivered : W64 := 0
  received : W64 := 0
  recvStall : W64 := 0
  duplicates : W64 := 0
  deriving DecidableEq, Repr

/-- An outbound port (R161, R163, R176). -/
structure OPort where
  valid : Bool := false
  chip : Nat := 0
  tile : Nat := 0
  ch : Nat := 0
  size : Nat := 0
  toll : Nat := 0
  seq : BitVec 16 := 0
  wrPos : Nat := 0
  broken : Bool := false
  readerGone : Bool := false
  sent : W64 := 0
  discarded : W64 := 0
  stall : W64 := 0
  deriving DecidableEq, Repr

/-- An entry of a tile's boundary sequencer (R217, R218): `armed` is the issue cycle of its last arming. -/
structure SeqEntry where
  pair : Nat
  dir : Nat
  slot : Nat
  write : Bool
  cycle : Nat
  anchor : Nat
  armed : Option Nat
  deriving DecidableEq, Repr

/-- ARITH_FLAGS (R50), also DEPOT_ARITH (R306). -/
structure ArithFlags where
  invalid : Bool := false
  overflow : Bool := false
  underflow : Bool := false
  saturated : Bool := false
  scaleNan : Bool := false
  alignInexact : Bool := false
  deriving DecidableEq, Repr

/-- A scratchpad (R109, R116): its bytes, the granules whose poison bit is set, the granules whose stored parity
disagrees with their data. -/
structure Spad where
  bytes : List Host.Cell := []
  poison : SMap Bool := []
  badParity : SMap Bool := []
  deriving DecidableEq, Repr

/-- The W1C flags of a tile: TILE_STATUS, ARITH_FLAGS, SPAD_ERR, ENG_STATUS and SYNC_STATUS (R80, R50, R141, R143, R172). -/
structure TileFlags where
  ctrlPoison : Bool := false
  imemParity : Bool := false
  arith : ArithFlags := {}
  spadParity : Bool := false
  spadPoisonIn : Bool := false
  engBadDesc : Bool := false
  engQovf : Bool := false
  engNoRoute : Bool := false
  engCtrlDiscard : Bool := false
  engForeign : Bool := false
  engLengthClamp : Bool := false
  engMisalign : Bool := false
  engStray : Bool := false
  syncNoRoute : Bool := false
  syncReaderGone : Bool := false
  syncSemUnf : Bool := false
  syncSemOvf : Bool := false
  syncWdogToll : Bool := false
  syncWdogSy : Bool := false
  deriving DecidableEq, Repr

/-- The slots of a bundle and its marks, each of which acts once in an issue cycle (R54, R77). -/
inductive BSlot where
  | mx
  | ve
  | sc
  | ld
  | st
  | sy
  | lend
  | stop
  deriving DecidableEq, Repr

/-- A physical tile. The W1C flags among its fields are those set in this row cycle; `old` holds those of earlier ones
(R13). -/
structure Tile where
  /-- TILE_STATUS.STATE (R80), without the holds that the fields below show. -/
  st : TileSt := .idle
  ctrlPoison : Bool := false
  imemParity : Bool := false
  /-- the W1C flags of earlier row cycles -/
  old : TileFlags := {}
  half : Bool := false
  /-- the bundle at the head of issue, and the last one issued (TILE_STATUS.PC) -/
  pc : BitVec 12 := 0
  lastPc : BitVec 12 := 0
  ctl : Ctl := .seq
  /-- this issue cycle is a bubble -/
  bubble : Bool := false
  /-- what of the bundle has issued in this issue cycle -/
  used : List BSlot := []
  loops : List LoopFrame := []
  /-- ISSUE_COUNT (R206), which numbers the issue cycles -/
  cyc : Nat := 0
  flight : List InFlight := []
  /-- words requested by compute-slot reads and writes in this issue cycle (R105) -/
  reqR : List Nat := []
  reqW : List Nat := []
  /-- row cycles of the bank-conflict hold that runs now (R106) -/
  bankHold : Nat := 0
  /-- the row's boundary hold holds this tile (R220) -/
  bHold : Bool := false
  holdBank : W64 := 0
  holdWait : W64 := 0
  holdBoundary : W64 := 0
  slipStep : W64 := 0
  /-- HOLD_WAIT + HOLD_BOUNDARY when the current step began (R206) -/
  slipBase : W64 := 0
  /-- streams and chains issued in the current real window (R386) -/
  winStreams : Nat := 0
  winChains : Nat := 0
  g : SMap GReg := []
  lc : SMap LoopCtr := []
  v : SMap Lanes := []
  k : SMap (BitVec 128) := []
  acc : SMap Lanes := []
  sb : SMap SbBuf := []
  fills : SMap SbBuf := []
  f : SMap W32 := []
  /-- instruction memory: bundles by index 0 to 8,191 (R73) and those whose parity fails (R76) -/
  imem : SMap (BitVec 384) := []
  imemBad : SMap Bool := []
  /-- installed curve tables c0 to c15 as bytes (R47); absent = 4,112 zero bytes -/
  curves : SMap (List Byte) := []
  spad : Spad := {}
  arith : ArithFlags := {}
  spadParity : Bool := false
  spadPoisonIn : Bool := false
  errAddrValid : Bool := false
  errAddr : Nat := 0
  /-- the recorded detection falls in this row cycle, so that the lower of two in one cycle stands (R142) -/
  errNow : Bool := false
  hash : Nat := 0
  ldq : List EngCmd := []
  stq : List EngCmd := []
  engBadDesc : Bool := false
  engQovf : Bool := false
  engNoRoute : Bool := false
  engCtrlDiscard : Bool := false
  engForeign : Bool := false
  engLengthClamp : Bool := false
  engMisalign : Bool := false
  engStray : Bool := false
  parityCount : W64 := 0
  ldDone : W64 := 0
  stDone : W64 := 0
  ldBytes : W64 := 0
  stBytes : W64 := 0
  strayRows : W64 := 0
  tollWait : W64 := 0
  inboundBytes : W64 := 0
  sems : SMap Sem := []
  /-- semaphores that the image declares as remote-signal targets (R182) -/
  rtarget : BitVec 64 := 0
  syncNoRoute : Bool := false
  syncReaderGone : Bool := false
  syncSemUnf : Bool := false
  syncSemOvf : Bool := false
  syncWdogToll : Bool := false
  syncWdogSy : Bool := false
  wdogLimit : BitVec 6 := 28
  /-- the two wait counts of R159 -/
  syCount : Nat := 0
  tollCount : Nat := 0
  /-- the tile holds on an SY wait (R150); a `belay` has sent its arrival while it holds (R157) -/
  syHold : Bool := false
  belaySent : Bool := false
  bp : SMap BPort := []
  ch : SMap Chan := []
  oc : SMap OPort := []
  /-- the channel that the last `recv.r` returned (R166) -/
  lastRecv : Option Nat := none
  crossings : List SeqEntry := []
  deriving DecidableEq, Repr

/-- A tile as a reset leaves it. -/
def Tile.reset : Tile := {}

/-! ### Rows and boundary queues -/

/-- A crossing that is not ready and holds its row (R220): its tile, its slot, and whether it reads. -/
structure BHold where
  tile : Nat
  pair : Nat
  dir : Nat
  slot : Nat
  read : Bool
  deriving DecidableEq, Repr

/-- A row's clock state and meters (R214, R215, R221, R247, R386). -/
structure Row where
  op : Nat := 0
  denied : Bool := false
  stretches : W64 := 0
  stretchDenied : W64 := 0
  lastStretch : Option Nat := none
  /-- the crossings that hold the row, the first of them the one whose tile began the hold -/
  holds : List BHold := []
  holdCount : Nat := 0
  tokenOver : W64 := 0
  tokenMax : W32 := 0
  /-- largest row token sum since the last telemetry rewrite (R403) -/
  tokenRecent : Nat := 0
  deriving DecidableEq, Repr

/-- A slot of a boundary queue (R216). -/
structure BqSlot where
  full : Bool := false
  data : Lanes := Lanes.zero
  deriving DecidableEq, Repr

/-- A boundary queue (R216, R242, R247), keyed by 2p + d. -/
structure BQueue where
  slots : SMap BqSlot := []
  stuck : Bool := false
  maxDepth : Nat := 0
  entries : W64 := 0
  holdEmpty : W64 := 0
  holdFull : W64 := 0
  deriving DecidableEq, Repr

/-- The states of a crossing endpoint (R223). -/
inductive EpState where
  | up
  | down
  | rejoin
  | partnerDown
  deriving DecidableEq, Repr

/-- A crossing endpoint and its flags (R223), keyed: 0 to 7 row r; 8 to 11 depot d; 12 to 27 Caravan port;
28 to 35 host port; 36 base camp. -/
structure Endpoint where
  st : EpState := .up
  rst : Bool := false
  ack : Bool := false
  ready : Bool := false
  deriving DecidableEq, Repr

/-! ### Global semaphores -/

/-- The mode of a global semaphore (R145). -/
inductive GsMode where
  | unused
  | counter
  | belay
  deriving DecidableEq, Repr

/-- A belay port on some chip that a belay releases (R155). -/
structure PortRef where
  chip : Nat
  tile : Nat
  bp : Nat
  deriving DecidableEq, Repr

/-- A global semaphore (R145, R154, R177): `value` is the counter, or CUR in belay mode. -/
structure GSem where
  mode : GsMode := .unused
  parent : Option (Nat × Nat) := none
  count : Nat := 0
  value : Nat := 0
  nxt : Nat := 0
  gen : BitVec 2 := 0
  fwd : Bool := false
  overrun : Bool := false
  ovf : Bool := false
  unf : Bool := false
  children : List W64 := []
  ports : List PortRef := []
  deriving DecidableEq, Repr

/-! ### HBM, depots, reduction and update -/

/-- A row of HBM within a depot. -/
structure HRow where
  stack : Nat
  chan : Nat
  row : Nat
  deriving DecidableEq, Repr

/-- A migration in progress at a stack (R300): the segment, its source and destination, the units copied, and whether
the entry has switched (step 4) so that only the retirement of the source is left. -/
structure Migration where
  seg : Nat
  src : HRow
  dst : HRow
  units : Nat
  switched : Bool
  deriving DecidableEq, Repr

/-- A block in an update unit (R326): descriptor index, sequence number, step index, the block's elements, whether it is
replayed, and whether the unit has computed it. -/
structure UBlock where
  desc : Nat
  rid : Nat
  block : Nat
  step : W64
  data : List Gran
  replay : Bool
  written : Bool
  /-- the writes that the unit has issued for the block: HBM offset and bytes with their poison -/
  writes : List (Nat × List (Byte × Bool)) := []
  /-- the unit skips the block (R321) -/
  skip : Bool := false
  deriving DecidableEq, Repr

/-- An update unit (R333, R334). -/
structure UpdUnit where
  queue : List UBlock := []
  cairnHold : Bool := false
  blocks : W64 := 0
  params : W64 := 0
  replayed : W64 := 0
  cairnWait : W64 := 0
  busy : W64 := 0
  last : W64 := 0
  deriving DecidableEq, Repr

/-- An HBM stack's controller (R310, R314). -/
structure Stack where
  up : Bool := false
  temp : Nat := 0
  hot : Bool := false
  ce : W64 := 0
  ue : W64 := 0
  scrubs : W64 := 0
  migrations : W64 := 0
  refreshWait : W64 := 0
  mig : Option Migration := none
  /-- the segments of the running scrub pass (R298) -/
  scrubbed : List Nat := []
  upd : UpdUnit := {}
  deriving DecidableEq, Repr

/-- DEPOT_ERR (R312). -/
structure DepotErr where
  spareExhausted : Bool := false
  d2dPoison : Bool := false
  d2dModuleLost : Bool := false
  wpDiscard : Bool := false
  unmapped : Bool := false
  hbmUe : Bool := false
  hbmCe : Bool := false
  deriving DecidableEq, Repr

/-- A depot (R310 to R314, R333, R335). -/
structure Depot where
  modules : Nat := 0
  err : DepotErr := {}
  arith : ArithFlags := {}
  errAddrValid : Bool := false
  errAddr : W64 := 0
  unmapped : W64 := 0
  wpDiscards : W64 := 0
  redBlocks : W64 := 0
  d2dRetries : W64 := 0
  d2dPoisonCount : W64 := 0
  hbmStacks : SMap Stack := []
  updTSat : Bool := false
  updBadGroup : Bool := false
  badGroupCount : W64 := 0
  deriving DecidableEq, Repr

/-- A MAP entry or migration request that waits (R293, R301). -/
inductive Waiting where
  | entry (e : MapEntry)
  | migrate (seg : Nat)
  deriving DecidableEq, Repr

/-- HBM of the package (R291 to R298): bytes by physical place, units stored poisoned, units whose stored code is
uncorrectable or correctable, the segment map, the rows taken from the pools, the retired rows, the corrected units of
each segment, the migrations that wait and the entries that wait behind one. -/
structure Hbm where
  bytes : List Host.Cell := []
  poison : SMap Bool := []
  ue : SMap Bool := []
  ce : SMap Bool := []
  map : SMap W64 := []
  taken : SMap Bool := []
  retired : SMap Bool := []
  corrected : SMap (List Nat) := []
  migQueue : List Nat := []
  held : List MapEntry := []
  /-- the session, REQ and count of the MAP command that waits for its held entries (R436) -/
  heldReply : Option (Nat × Nat × Nat) := none
  deriving DecidableEq, Repr

/-- A REDUCE descriptor (R302). -/
structure RedDesc where
  rid : Nat := 0
  role : Nat := 0
  depot : Nat := 0
  n : Nat := 0
  fmt : Nat := 0
  outFmt : Nat := 0
  dispose : Nat := 0
  log : Bool := false
  order : Bool := false
  digest : Bool := false
  e32 : Nat := 0
  nblocks : Nat := 0
  slots : Nat := 0
  localC : Nat := 0
  trigger : Nat := 0
  toll : Nat := 0
  srcBase : Nat := 0
  outBase : Nat := 0
  dest : Nat := 0
  drid : Nat := 0
  contrib : Nat := 0
  senders : List W64 := []
  deriving DecidableEq, Repr

/-- A SUM block that holds a slot of the reduction buffer (R278, R304, R305): the indices of the contributions applied, the
sum, the parked contributions, and once complete the rounded block, its disposal and its log acknowledgement. -/
structure RedBlock where
  applied : List Nat := []
  sum : Lanes := []
  parked : SMap Lanes := []
  complete : Bool := false
  rounded : Lanes := []
  disposed : Bool := false
  logAcked : Bool := false
  /-- the slot has been released; the entry stays to name the block as complete -/
  released : Bool := false
  deriving DecidableEq, Repr

/-- An entry of the OUTPUTS section (R455): `base` is DTAB for KIND 2. -/
structure OutEntry where
  kind : Nat
  rid : Nat
  base : Nat
  size : Nat
  deriving DecidableEq, Repr

/-- An UPDATE descriptor (R316). -/
structure UpdDesc where
  rid : Nat := 0
  depot : Nat := 0
  pingpong : Bool := false
  wcopy : Bool := false
  mfmt : W32 := 0
  vfmt : W32 := 0
  wfmt : W32 := 0
  mblk : Nat := 0
  gfmt : Nat := 0
  belay : Nat := 0
  pbase : Nat := 0
  master : Nat × Nat := (0, 0)
  m : Nat × Nat := (0, 0)
  ms : Nat × Nat := (0, 0)
  v : Nat × Nat := (0, 0)
  vs : Nat × Nat := (0, 0)
  w : Nat × Nat := (0, 0)
  ws : Nat × Nat := (0, 0)
  deriving DecidableEq, Repr

/-- A parameter group (R318). -/
structure UpdGroup where
  lr : W32 := 0
  beta1 : W32 := 0
  beta2 : W32 := 0
  eps : W32 := 0
  wd : W32 := 0
  clip : W32 := 0
  t0 : W32 := 0
  sched : W32 := 0
  deriving DecidableEq, Repr

/-! ### Caravan -/

/-- The states of a Caravan port (R253). -/
inductive PortSt where
  | down
  | train
  | caps
  | align
  | up
  | failed
  deriving DecidableEq, Repr

/-- An entry of a transmit table (R266). -/
structure TxEntry where
  cls : Nat
  opp : Bool
  queue : Nat
  deriving DecidableEq, Repr

/-- An entry of a receive table (R267). -/
structure RxEntry where
  action : Nat
  outPort : Nat
  outQueue : Nat
  squeue : Nat
  deriving DecidableEq, Repr

/-- A table of a TIMETABLE section (R265). -/
structure TTable where
  alt : Nat
  slackStart : Nat
  tx : List TxEntry
  rx : List RxEntry
  deriving DecidableEq, Repr

/-- A queue-table entry (R265). -/
structure QEntry where
  src : Nat
  detail : Nat
  eager : Bool
  dest : Nat
  limit : Nat
  deriving DecidableEq, Repr

/-- A flit of a transmit queue (R256, R257): KIND, PSN and the 2,048 bits; `wrap` names the failed port when it travels
behind a DETOUR record (R282), `rec` the record of the dynamic class that it belongs to (log 22). -/
structure QFlit where
  kind : Nat
  psn : Nat := 0
  flit : BitVec 2048
  wrap : Option Nat := none
  rec_ : Option Routed := none
  deriving DecidableEq, Repr

/-- A flit kept in the retry buffer (R261): the slot of its first transmission, whether it counts as lost, how often it has
been sent, the queue that sent it (256 for the dynamic class), the slot count of its first transmission, and those of its
transmissions that have not been NAKed. -/
structure RetryItem where
  slot : Slot
  lost : Bool
  sends : Nat
  queue : Nat
  firstAt : Nat
  sent : List Nat
  rec_ : Option Routed := none
  deriving DecidableEq, Repr

/-- A flit that waits in the reorder buffer (R262): the partner's slot count of its first transmission, its receive-table
entry (none for the dynamic class) and its slot. -/
structure Waiter where
  first : Nat
  entry : Option RxEntry
  slot : Slot
  deriving DecidableEq, Repr

/-- A group that a sending queue has begun (R257): the records of its head that have not been acted on, each with its
count of data units (none for one that is discarded with its body), and the units of the first one that have come. -/
structure RxGroup where
  recs : List (Option Routed × Nat)
  data : List Unit64
  deriving DecidableEq, Repr

/-- A Caravan port (R248, R285 to R289). Counters are keyed by their register offset. -/
structure CvPort where
  enable : Bool := false
  wdogLog2 : BitVec 6 := 13
  st : PortSt := .down
  alt : Nat := 255
  tbl : Nat := 0
  open_ : Bool := true
  /-- a retry delay of DOWN runs (R253) -/
  retryWait : Bool := false
  errBufEcc : Bool := false
  errLaneFail : Bool := false
  errRetryLimit : Bool := false
  errWdog : Bool := false
  errCable : Bool := false
  errCap : Bool := false
  errImage : Bool := false
  pVersion : Nat := 0
  pPort : Nat := 0
  pRole : Nat := 0
  pId : Nat := 0
  pImageTag : List Byte := []
  rtt : Nat := 0
  counters : SMap W64 := []
  qtab : List QEntry := []
  tables : List TTable := []
  /-- the tables of the current, prepared and previous tags, as indices into `tables` (R281) -/
  cur : Option Nat := none
  prepared : Option Nat := none
  previous : Option Nat := none
  /-- whether the tag before this one stood for open mode -/
  prevOpen : Bool := false
  queues : SMap (List QFlit) := []
  /-- flits that wait for room in their queue (R269) -/
  offers : SMap (List QFlit) := []
  dynq : List Routed := []
  /-- the body flits of the dynamic record whose head has gone out (R276) -/
  dynOut : List QFlit := []
  retry : List RetryItem := []
  /-- idle transmissions that were NAKed and are to be named by an idle slot (R261) -/
  idleAns : List Nat := []
  reorder : List Waiter := []
  /-- the partner's transmissions that were found bad or refused and have not come again, by its slot count (R262) -/
  missing : List Nat := []
  /-- the flits taken, by the partner's slot count of their first transmission, newest first (R262) -/
  taken : List Nat := []
  /-- the groups begun, by sending queue, 256 for the dynamic class (R257) -/
  groups : SMap RxGroup := []
  /-- decoded transmissions not yet answered: slot index and whether bad (R260) -/
  answers : List (Nat × Bool) := []
  /-- the partner's slot count, known modulo 4 legs from the frame alignment (R256) -/
  rxCount : Nat := 0
  /-- the slot count at the last good slot, for the port watchdog (R263) -/
  lastGood : Nat := 0
  /-- DETOUR records whose flits have not come yet, by sending queue (R282) -/
  wraps : List (Nat × RecDetour) := []
  lastTx : Option Slot := none
  /-- stamps of the last waypoint received: its t3 and its local arrival, in 1/256 ns (R227) -/
  wpT3 : Nat := 0
  wpArrival : Nat := 0
  deriving DecidableEq, Repr

/-- The chip level of Caravan (R252, R276, R280, R290). -/
structure CvChip where
  slotCount : Nat := 0
  /-- the fraction of a slot that has passed, in units of R251's quotient (log 4) -/
  slotFrac : Nat := 0
  alt : Nat := 255
  tbl : Nat := 0
  open_ : Bool := true
  pending : Option RecSwitch := none
  waiting : List RecSwitch := []
  seen : List Nat := []
  late : Bool := false
  epoch : Nat := 0
  switchAt : W64 := 0
  /-- the leg of the last switch, while its previous tables are kept (R281) -/
  switchLeg : Option Nat := none
  /-- whether a switch has been applied since the image was installed (log 105) -/
  synced : Bool := false
  /-- the primary tables of an installed image: 1 until its program starts, 2 until the next leg boundary (R290) -/
  primary : Nat := 0
  routePorts : BitVec 16 := 0
  routeHops : Nat := 0
  deriving DecidableEq, Repr

/-- A position or spare of the chip map (R274): coordinates, TEAM, and per port the peer kind, port and number. -/
structure Node where
  x : Nat
  y : Nat
  z : Nat
  team : Nat
  cables : List (Nat × Nat × Nat)
  deriving DecidableEq, Repr

/-- A failure case (R275): KIND, ALT, POSITION, and PORT or SPARE. -/
structure FailCase where
  kind : Nat
  alt : Nat
  position : Nat
  sub : Nat
  deriving DecidableEq, Repr

/-- The installed chip map (R274). -/
structure ChipMap where
  spares : Nat := 0
  dimX : Nat := 0
  dimY : Nat := 0
  dimZ : Nat := 0
  nodes : List Node := []
  cases : List FailCase := []
  deriving DecidableEq, Repr

/-! ### Clocks and time -/

/-- Time, references and operating point (R224 to R246). Stamps are in 1/256 ns. -/
structure Clock where
  gtc : Nat := 0
  /-- what the rate trim has left below 1/256 ns, in billionths (R225) -/
  gtcRes : Nat := 0
  gtcFrac : BitVec 8 := 0
  parentPort : BitVec 4 := 0
  hops : Nat := 0
  stepped : Bool := false
  parentLost : Bool := false
  hasParent : Bool := false
  root : Bool := true
  settled : Bool := true
  offset : Int := 0
  trim : Int := 0
  thetas : List Int := []
  alternates : List Nat := []
  calm : Nat := 0
  /-- error of each region's local GTC against the master and the adjustment in force, in 1/256 ns (R226) -/
  regionErr : SMap Int := []
  regionAdj : SMap Int := []
  prefer : Bool := false
  active : Bool := false
  aOk : Bool := false
  bOk : Bool := false
  holdover : Bool := false
  aLost : Bool := false
  bLost : Bool := false
  refSwitches : W64 := 0
  freqLate : Bool := false
  freqPending : Bool := false
  pendOp : Nat := 0
  curOp : Nat := 0
  freqAt : W64 := 0
  /-- a join step has been taken (R231) -/
  joined : Bool := false
  deriving DecidableEq, Repr

/-! ### Base camp -/

/-- DEV_STATE.STATE (R432). -/
inductive DevSt where
  | off
  | rom
  | loaded
  | ready
  | armed
  | running
  | halted
  | faulted
  | recovering
  deriving DecidableEq, Repr

/-- DEV_STATE.REASON in HALTED (R448). -/
inductive Reason where
  | none
  | done
  | host
  | hbm
  deriving DecidableEq, Repr

/-- Power, wear and telemetry (R387 to R408). -/
structure Power where
  hbmThrottleC : BitVec 8 := 95
  throttleC : BitVec 8 := 100
  capOp : BitVec 3 := 0
  conditions : BitVec 3 := 0
  thermal : Nat := 0
  ceiling : Nat := 0
  avsTimeout : Bool := false
  regFault : Bool := false
  vlate : Bool := false
  throttles : W64 := 0
  marginEvents : W64 := 0
  /-- margin events since manufacture, as the ledger carries them (R399) -/
  marginLife : Nat := 0
  wearCore : SMap Nat := []
  wearDep : SMap Nat := []
  retired : BitVec 8 := 0
  replanning : Bool := false
  worn : Bool := false
  fresh : Bool := false
  ledgerOk : Bool := false
  hours : W64 := 0
  hoursPlanned : Nat := 0
  ledgerSeq : W64 := 0
  ledgerSize : Nat := 0
  lastLedger : List Byte := []
  mon : SMap Int := []
  samples : SMap (List Int) := []
  /-- package power in mW: samples of the last 10 ms, newest first (R387) -/
  powerSamples : List Nat := []
  packagePower : Nat := 0
  coreCurrent : Nat := 0
  depCurrent : Nat := 0
  rowTemp : SMap Int := []
  depTemp : SMap Int := []
  baseTemp : Int := 0
  /-- evaluations in a row that found the conditions of a faster ceiling (R388) -/
  clear : Nat := 0
  /-- ceilings the root holds, by sender word: the value and the GTC of its refresh (R389) -/
  ceilings : List (W64 × Nat × Nat) := []
  /-- the voltages that base camp has written, in mV (R391) -/
  setCore : Nat := 800
  setDep : Nat := 800
  /-- time-PLL cycles of the running second of operation (R401) -/
  opCycles : Nat := 0
  telemetrySeq : W64 := 0
  telemetry : List Byte := List.replicate 256 0
  deriving DecidableEq, Repr

/-- The recovery unit of base camp (R337 to R375). -/
structure Recovery where
  team : Option TeamBody := none
  role : Nat := 0
  phase : Nat := 0
  prot : Bool := false
  refill : Bool := false
  recStep : W64 := 0
  candValid : Bool := false
  cand : Nat := 0
  cairnLow : W64 := 0
  halts : W64 := 0
  reruns : W64 := 0
  recoveries : W64 := 0
  escalations : W64 := 0
  chunksSent : W64 := 0
  logAppends : W64 := 0
  logWait : W64 := 0
  hbMisses : W64 := 0
  ledgerCount : W64 := 0
  ledger : SMap LedgerEntry := []
  mirror : List LedgerEntry := []
  /-- positions the lead has declared lost, heartbeats seen by sender word, spares in use or unavailable -/
  lost : List Nat := []
  beats : List (W64 × W64 × W64) := []
  spareUse : List (Nat × Nat) := []
  spareGone : List Nat := []
  restoredFrom : List Nat := []
  /-- places of detections in the current step index, for R347, and how often this step index was started -/
  detected : List Place := []
  detectedBefore : List Place := []
  wdogAt : List (Nat × Nat) := []
  wdogBefore : List (Nat × Nat) := []
  starts : Nat := 0
  /-- a HALT from the host stands; a halt has been accepted; its switch leg has passed; a START has been accepted -/
  hostHalt : Bool := false
  haltPosted : Bool := false
  halted : Bool := false
  startPosted : Bool := false
  /-- the ALT under which the run goes on after a restart -/
  runAlt : Nat := 0
  /-- what the lead waits for before it posts START: position and class of an open entry (R346, R348) -/
  waits : List (Nat × Nat) := []
  /-- sessions and requests of HALT and RESUME that wait for their answer (R441) -/
  haltReply : List (Nat × Nat) := []
  resumeReply : List (Nat × Nat) := []
  /-- units stored poisoned that R346 must resolve: (depot, stack, chan, row, unit) keys -/
  poisonUnits : List Nat := []
  /-- cairn: the stream's tag and next chunk while one runs, the acknowledged tags of own chunks, the free slot each holder
  announced, the directory of held chunks ((owner, q) to (slot, tag)) and the free slot of each owner -/
  stream : Option (W64 × Nat) := none
  streamInFlight : List Nat := []
  ackTag : SMap W64 := []
  freeAt : SMap Nat := []
  dirSlot : SMap Nat := []
  dirTag : SMap W64 := []
  ownerFree : SMap Nat := []
  /-- held log entries: (owner, step, rid, block, final) and entries that wait for a page -/
  log : List (Nat × W64 × Nat × Nat × Bool) := []
  logWaiting : List RecLog := []
  /-- where fetched chunks and log entries are staged: HBM offsets -/
  staging : Option (Nat × Nat) := none
  /-- a spare's takeover: position, K, ALT -/
  takeover : Option (Nat × W64 × Nat) := none
  deriving DecidableEq, Repr

/-- One segment of a run as the lead keeps it (R460, R462). -/
structure Segment where
  position : Nat
  device : List Byte
  fw : List Byte
  binding : List Byte
  first : W64
  last : W64
  chainIn : List Byte
  takeover : Bool
  deriving DecidableEq, Repr

/-- A team waybill under construction (R463). -/
structure WbBuild where
  session : Nat
  req : W64
  reqSeq : Nat
  last : W64
  input : List Byte
  parts : List (List Byte)
  deriving DecidableEq, Repr

/-- The security block and the run chain (R450 to R466). -/
structure Security where
  keyOk : Bool := false
  certOk : Bool := false
  lead : Bool := false
  runOpen : Bool := false
  tablesDigest : List Byte := List.replicate 48 0
  timetableDigest : List Byte := List.replicate 48 0
  runChain : List Byte := List.replicate 48 0
  runFirst : W64 := 0
  runLast : W64 := 0
  quotes : W64 := 0
  waybills : W64 := 0
  /-- by s mod 1,024: s, SD(s), c(s) -/
  ring : SMap (W64 × List Byte × List Byte) := []
  /-- the lead's and the deputy's chains by position: step and c(step), newest first -/
  chains : SMap (List (W64 × List Byte)) := []
  segments : List Segment := []
  truncated : Bool := false
  folded : Bool := true
  spareChain : Option (W64 × List Byte) := none
  build : Option WbBuild := none
  deriving DecidableEq, Repr

/-! ### The installed image -/

/-- A directory entry (R179) with the section's bytes as patched (R188). -/
structure Section where
  typ : Nat
  sver : Nat
  dflags : Nat
  index : Nat
  tile : Nat
  posLo : Nat
  posHi : Nat
  offset : Nat
  data : List Byte
  deriving DecidableEq, Repr

/-- The installed image (R178, R189, R194). -/
structure Image where
  position : Nat := 0
  base : Nat := 0
  size : Nat := 0
  rows : Nat := 0
  ltpr : Nat := 0
  positions : Nat := 0
  seed : W64 := 0
  relax : Bool := false
  clsM : Bool := false
  hash : Nat := 0
  stepBelay : Nat := 0
  cairnN : Nat := 0
  wdog : Nat := 0
  /-- the sections as supplied, and as patched for the position (R188, R198) -/
  dir : List Section := []
  sections : List Section := []
  bind : List W64 := []
  repair : List Nat := []
  imageDigest : List Byte := List.replicate 48 0
  bindingDigest : List Byte := List.replicate 48 0
  deriving DecidableEq, Repr

/-! ### Host ports and Tether -/

/-- A MACsec association (R414). -/
structure Macsec where
  body : MacsecBody
  deriving DecidableEq, Repr

/-- A host port (R409 to R414, R445 to R447). Counters are keyed by their register offset. -/
structure HPort where
  enable : Bool := true
  speed : Nat := 0
  macsec : Bool := false
  rocePrio : BitVec 3 := 3
  tetherPrio : BitVec 3 := 6
  pfc : Bool := true
  speedNow : Nat := 0
  up : Bool := false
  gaddrs : List (BitVec 64) := []
  errQp : Bool := false
  errMacsec : Bool := false
  errAuth : Bool := false
  errFec : Bool := false
  errDown : Bool := false
  paused : Nat := 0
  counters : SMap W64 := []
  assocs : List Macsec := []
  deriving DecidableEq, Repr

/-- STATE of a queue pair (R449). -/
inductive QpSt where
  | ready
  | error
  | broken
  deriving DecidableEq, Repr

/-- An open queue pair (R416, R417, R442, R449), keyed by its entry. -/
structure Qp where
  st : QpSt := .ready
  body : QpBody
  rkey : Nat
  psn : Nat
  delivered : W64 := 0
  discarded : W64 := 0
  /-- notifications received since it opened (R411) -/
  cnps : Nat := 0
  deriving DecidableEq, Repr

/-- The sender state of a host-fed channel (R420), keyed by 16 × logical tile + channel: its write position, SEQ and the
last bound TOLL_GS. -/
structure HostSender where
  w : Nat := 0
  seq : BitVec 16 := 0
  tollGs : Option Nat := none
  deriving DecidableEq, Repr

/-- A numbered packet that is not yet acknowledged (R423). -/
structure Unacked where
  seq : Nat
  sends : Nat
  timeoutMs : Nat
  deriving DecidableEq, Repr

/-- An event queued for a session (R443). -/
structure Event where
  code : Nat
  stamp : W64
  body : List Byte
  deriving DecidableEq, Repr

/-- The AVSBus commands that base camp uses (R394); voltages in mV, the rate in mV/µs. -/
inductive AvsFrame where
  | writeVoltage (mv : Nat)
  | readVoltage
  | writeRate (rate : Nat)
  | readCurrent
  | readTemperature
  | readStatus
  deriving DecidableEq, Repr

/-- What the device puts out: the sender can read it (log 3). -/
inductive Output where
  | offer (port : Nat) (payload : List Byte)
  | fwAck (received : Nat) (status : Nat)
  | hello2 (port : Nat) (session : Nat) (payload : List Byte)
  | response (session : Nat) (req : Nat) (status : Nat) (state : Nat) (code : Nat) (body : List Byte)
  /-- a further packet of the response before it (R424) -/
  | more (session : Nat)
  | event (session : Nat) (e : Event)
  | ackPacket (session : Nat) (ack : Nat)
  | resend (session : Nat) (seq : Nat)
  | closed (session : Nat)
  | roceAck (qpn : Nat)
  | roceNak (qpn : Nat) (syndrome : Nat)
  | readResponse (qpn : Nat) (data : List Byte)
  | neighbour (port : Nat) (target : BitVec 128)
  | solicit (port : Nat) (target : BitVec 128)
  | mld (port : Nat) (group : BitVec 128)
  | echo (port : Nat) (payload : List Byte)
  | word (w : W64)
  | bits (b : List Bool)
  /-- an AVSBus frame of base camp to a rail of R394: AVS0 rails 0 and 1 are 0 and 1, AVS1 rails 0 to 5 are 2 to 7 -/
  | avs (rail : Nat) (frame : AvsFrame)
  deriving DecidableEq, Repr

/-- A Tether session (R427 to R430). -/
structure Session where
  id : Nat
  owner : Bool
  events : Bool
  group : Nat
  key : List Byte
  keys : List Byte
  port : Nat
  seqIn : Nat := 1
  seqOut : Nat := 1
  pnOut : Nat := 1
  unacked : List Unacked := []
  /-- numbered packets that wait for the window, events among them; events dropped and not yet reported -/
  queue : List Output := []
  lost : Nat := 0
  deriving DecidableEq, Repr

/-- A half-open session (R427). -/
structure HalfOpen where
  id : Nat
  port : Nat
  hello : Hello1
  transcript : List Byte
  keys : List Byte
  deriving DecidableEq, Repr

/-- The Tether endpoint and the firmware transfer (R376 to R384, R425 to R431, R443, R445, R448). -/
structure Tether where
  ownerKey : List Byte := List.replicate 48 0
  observers : List (List Byte) := []
  group : Nat := 0
  sessions : List Session := []
  halfOpen : List HalfOpen := []
  nextSession : Nat := 1
  opened : W64 := 0
  lostCount : W64 := 0
  handshakeFails : W64 := 0
  eventsLost : W64 := 0
  feeder : Option Nat := none
  received : List Byte := []
  deriving DecidableEq, Repr

/-- Firmware and watchdog registers (R377 to R384, R404, R405). -/
structure BaseCore where
  dormas : Bool := false
  lockup : Bool := false
  lockupCore : BitVec 3 := 0
  wdogLimit : BitVec 5 := 27
  wdogCount : Nat := 0
  svn : Nat := 0
  fwCode : Nat := 0
  lockups : W64 := 0
  fwDigest : List Byte := List.replicate 48 0
  /-- the Dormas image in SRAM (R378) -/
  sram : List Byte := []
  deriving DecidableEq, Repr

/-- A block reset (R476): KIND and INDEX of R441. -/
structure BlockReq where
  kind : Nat
  index : Nat
  deriving DecidableEq, Repr

/-- Reset registers and the controller of block resets (R467 to R479). -/
structure ResetUnit where
  cause : BitVec 8 := 1
  cold : Bool := true
  resetAt : W64 := 0
  warmResets : W64 := 0
  blockResets : W64 := 0
  brKind : BitVec 3 := 0
  brIndex : BitVec 8 := 0
  timeoutUs : BitVec 16 := 1000
  lastKind : BitVec 3 := 0
  lastIndex : BitVec 8 := 0
  timedOut : Bool := false
  busy : Option BlockReq := none
  /-- a RESET of KIND 0 has been answered and its warm reset has not begun (R441) -/
  warmPending : Bool := false
  /-- a warm reset runs: Dormas has not restarted (R284, R473) -/
  warm : Bool := false
  deriving DecidableEq, Repr

/-- The JTAG instructions (R500). -/
inductive JtagIr where
  | bypass
  | idcode
  | sample
  | extest
  | clamp
  | highz
  | extestPulse
  | extestTrain
  | dbgReset
  deriving DecidableEq, Repr

/-- Package, pins and the always-on domain (R494 to R504). -/
structure Package where
  powerGood : Bool := true
  rstN : Bool := true
  gpioOe : BitVec 8 := 0
  gpioOut : BitVec 8 := 0
  alert : Bool := false
  fault : Bool := false
  smba : BitVec 3 := 0
  testmode : Bool := false
  tripSrc : BitVec 2 := 0
  tripLast : Bool := false
  /-- the trip latch holds THERMTRIP_N low and the clocks stopped (R501) -/
  thermtrip : Bool := false
  /-- the IR after a test-logic reset (log 12) -/
  ir : JtagIr := .idcode
  /-- the boundary register (R500) and whether pins follow it -/
  boundary : List Bool := []
  pulses : Nat := 0
  deriving DecidableEq, Repr

/-- What the fuses hold (R1, R2, R380, R391, R411, R450, R452, R486); every value at reset is a choice of the log's row 2. -/
structure Fuses where
  clsM : Bool := false
  stepping : BitVec 8 := 0
  /-- TILE_PRESENT: 0 absent, 1 enabled, 2 spare, by physical tile (R486) -/
  present : List Nat := (List.range 200).map fun n => if n % 25 = 24 then 2 else 1
  vnomCore : List Nat := List.replicate 8 550
  vnomDep : List Nat := List.replicate 8 550
  guardCore : List Nat := List.replicate 8 15
  guardDep : List Nat := List.replicate 8 15
  sensCore : List Nat := List.replicate 8 0
  sensDep : List Nat := List.replicate 8 0
  vmaxCore : Nat := 900
  vmaxDep : Nat := 900
  macBase : BitVec 48 := 0
  /-- SHA-384 of `publicKey` -/
  deviceId : List Byte :=
    [0x2b, 0x27, 0x04, 0x4a, 0x4d, 0xa9, 0x94, 0x96, 0x5d, 0xcd, 0x95, 0xd6, 0xe4, 0x44, 0xc9, 0x08,
     0x97, 0xeb, 0x24, 0xf8, 0x9f, 0x5d, 0xa2, 0xaf, 0x2b, 0xbd, 0xe5, 0xd8, 0xb1, 0x87, 0xdc, 0x67,
     0x0a, 0x91, 0xfe, 0xa0, 0x76, 0x34, 0x3d, 0x6f, 0x51, 0x6d, 0xdd, 0xee, 0x94, 0xc4, 0xf0, 0x02]
  publicKey : List Byte := 0x04 :: List.replicate 96 0
  /-- the certificate chain (Config.certChain) parses and names DEVICE_ID (R451, R466) -/
  certGood : Bool := true
  romDigest : List Byte := List.replicate 48 0
  vendorHash0 : List Byte := List.replicate 48 0
  vendorHash1 : List Byte := List.replicate 48 0
  revoked0 : Bool := false
  revoked1 : Bool := false
  minSvn : Nat := 0
  deriving DecidableEq, Repr

/-! ### The die network -/

/-- A packet on the die network: a remote write, a remote signal, an arrival at a belay, or a channel message. -/
inductive NetPkt where
  | write (w : InWrite)
  | signal (r : InSignal)
  | arrive (ref : W64) (tag : Nat)
  | msg (m : InMsg)
  deriving DecidableEq, Repr

/-! ### The device -/

/-- The state of the device. -/
structure State where
  fuses : Fuses := {}
  tiles : SMap Tile := []
  rows : SMap Row := []
  bqs : SMap BQueue := []
  eps : SMap Endpoint := []
  gs : SMap GSem := []
  sigDiscards : W64 := 0
  hbm : Hbm := {}
  depots : SMap Depot := []
  /-- installed REDUCE descriptors, their sequence counts, and the blocks in the reduction buffers keyed by
  2³² × RID + BLOCK (R302 to R305) -/
  reds : List RedDesc := []
  redSeq : SMap Nat := []
  redBlocks : SMap RedBlock := []
  /-- staged blocks that have been read and wait for a toll (R303), by RID -/
  redHeld : SMap (List Unit64) := []
  /-- installed OUTPUTS section (R455) -/
  outputs : List OutEntry := []
  /-- installed UPDATE section (R315): descriptors, groups, schedule curves; blocks written back this step and the agent's
  NEXT_TAG, by descriptor (R328) -/
  upds : List UpdDesc := []
  groups : List UpdGroup := []
  scheds : List (List Byte) := []
  updDone : SMap Nat := []
  updTag : SMap (BitVec 2) := []
  /-- installed format tables 16 to 31 as bytes (R31, R36) -/
  formats : SMap (List Byte) := []
  cv : CvChip := {}
  ports : SMap CvPort := []
  chipmap : ChipMap := {}
  clock : Clock := {}
  power : Power := {}
  recov : Recovery := {}
  sec : Security := {}
  image : Option Image := none
  /-- logical tile to physical tile (R194); empty until an image is installed -/
  tileMap : List Nat := []
  loadCode : Nat := 0
  loadWhere : W64 := 0
  base : BaseCore := {}
  tether : Tether := {}
  hports : SMap HPort := []
  qps : SMap Qp := []
  senders : SMap HostSender := []
  rst : ResetUnit := {}
  pkg : Package := {}
  dev : DevSt := .rom
  reason : Reason := .none
  /-- base camp's step counter (R21), its arrival for the step and the NEXT_TAG of its arrivals (R342) -/
  step : W64 := 0
  arrived : Bool := false
  bcTag : BitVec 2 := 0
  startAt : W64 := 0
  /-- rows whose tiles have not started since the start instant was set (R192) -/
  rowsDue : List Nat := []
  /-- reports of the current step and of the next (R342, R343), and reports and fault notices on their way to base camp -/
  reports : List PReport := []
  reportsNext : List PReport := []
  reportsOut : List PReport := []
  faultsOut : List Nat := []
  /-- traffic on the die network in the order sent (R136, R137, R153, R164) -/
  net : List NetPkt := []
  /-- Caravan records delivered and not yet acted on (R267) -/
  delivered : List Routed := []
  /-- releases of the step-end belay that have reached base camp and not yet ended a step (R158) -/
  stepReleases : Nat := 0
  /-- counter that feeds `Config.freeValue` (log 5): the model's own field -/
  freeCtr : Nat := 0
  /-- what the device has put out, newest first -/
  out : List Output := []
  /-- the commands that wait, first in first out -/
  pending : List Instr := []
  deriving DecidableEq, Repr

/-- The device after a cold reset: the identity key is rebuilt and the boot ROM waits for firmware (R475; log 35). -/
def State.reset : State := { sec := { keyOk := true, certOk := true } }

/-- Why a step stops for good. Each is raised where the spec makes the result unpredictable (R5) and gives no effect; each
is safe: the model stops where the part may do anything. -/
inductive Fault where
  /-- a format register with a reserved code, a code without a table or RND 0b11 (R23); raised by format users; safe -/
  | reservedFormat
  /-- an E4M3 scale with its sign bit set (R28); raised by decoders; safe -/
  | negativeScale
  /-- a `ret` whose link breaks R68; raised by RET; safe -/
  | badLink
  /-- a global address with a reserved space or non-zero unused chip-id bits (R6); raised by engine commands; safe -/
  | badAddress
  /-- a write into another tile's scratchpad without a toll (R6, R135); raised by store commands; safe -/
  | noToll
  /-- a command in a device state that R434 does not mark legal (R435); raised by the Tether commands; safe -/
  | illegalState
  /-- a JTAG instruction that takes over pins outside ROM (R500); raised by the JTAG commands; safe -/
  | jtagPins
  deriving DecidableEq, Repr

/-- Why a command has no meaning here. -/
inductive Refusal where
  /-- the command has no meaning yet; safe -/
  | notModelled (mnemonic : String)
  deriving DecidableEq, Repr

end Sys2Proof.Machine
end

