-- ==== Sys2Proof/Machine/Flags.lean ====
section
/-! DEFINITION. Arithmetic flags: their union and their register word (R50). -/

namespace Sys2Proof.Machine

/-- No flag. -/
def ArithFlags.none : ArithFlags := {}

/-- Every flag that either sets. -/
def ArithFlags.join (a b : ArithFlags) : ArithFlags :=
  { invalid := a.invalid || b.invalid, overflow := a.overflow || b.overflow,
    underflow := a.underflow || b.underflow, saturated := a.saturated || b.saturated,
    scaleNan := a.scaleNan || b.scaleNan, alignInexact := a.alignInexact || b.alignInexact }

/-- Every flag that any of a list sets. -/
def ArithFlags.joinAll (l : List ArithFlags) : ArithFlags := l.foldl ArithFlags.join ArithFlags.none

/-- INVALID alone. -/
def ArithFlags.inv (b : Bool) : ArithFlags := { invalid := b }

/-- The register word of the flags (R50). -/
def ArithFlags.word (f : ArithFlags) : Nat :=
  f.invalid.toNat + 2 * f.overflow.toNat + 4 * f.underflow.toNat + 8 * f.saturated.toNat
    + 16 * f.scaleNan.toNat + 32 * f.alignInexact.toNat

/-- The flags after a write of ones clears them (R50, W1C). -/
def ArithFlags.clear (f : ArithFlags) (w : Nat) : ArithFlags :=
  { invalid := f.invalid && !w.testBit 0, overflow := f.overflow && !w.testBit 1,
    underflow := f.underflow && !w.testBit 2, saturated := f.saturated && !w.testBit 3,
    scaleNan := f.scaleNan && !w.testBit 4, alignInexact := f.alignInexact && !w.testBit 5 }

end Sys2Proof.Machine
end

