-- ==== Sys2Proof/Machine/Float.lean ====
section
/-! DEFINITION. Floating-point arithmetic: exact values, the one rounding rule, the operations of R45 to R49 and the
stochastic generator (R25 to R50, R505, R506). -/

namespace Sys2Proof.Machine

open Sys2Proof

/-! ### Exact values -/

/-- A real of the form m × 2^e. -/
structure Dy where
  m : Int
  e : Int
  deriving DecidableEq, Repr

/-- The numerator of a value over 2^e, for any e not above its exponent. -/
def Dy.at_ (x : Dy) (e : Int) : Int := x.m * (2 ^ (x.e - e).toNat : Nat)

def Dy.zero : Dy := ⟨0, 0⟩

def Dy.neg (x : Dy) : Dy := ⟨-x.m, x.e⟩

def Dy.abs (x : Dy) : Dy := ⟨x.m.natAbs, x.e⟩

def Dy.add (x y : Dy) : Dy :=
  let e := Min.min x.e y.e
  ⟨x.at_ e + y.at_ e, e⟩

def Dy.sub (x y : Dy) : Dy := x.add y.neg

def Dy.mul (x y : Dy) : Dy := ⟨x.m * y.m, x.e + y.e⟩

/-- Multiplication by a power of two. -/
def Dy.scale (x : Dy) (k : Int) : Dy := ⟨x.m, x.e + k⟩

def Dy.lt (x y : Dy) : Bool := (x.sub y).m < 0

def Dy.le (x y : Dy) : Bool := (x.sub y).m ≤ 0

def Dy.eq (x y : Dy) : Bool := (x.sub y).m = 0

/-- floor(log₂ |x|) of a non-zero value. -/
def Dy.log2 (x : Dy) : Int := (Nat.log2 x.m.natAbs : Int) + x.e

/-- floor(x / y × 2^k) for x at least 0 and y above 0. -/
def Dy.quot (x y : Dy) (k : Nat) : Nat :=
  let e := Min.min x.e y.e
  (x.at_ e).natAbs * 2 ^ k / (y.at_ e).natAbs

/-- A value with the non-finite ones of R26; `fin` keeps the sign of a zero, and `m` its magnitude. -/
inductive Fp where
  | nan
  | inf (neg : Bool)
  | fin (neg : Bool) (m : Nat) (e : Int)
  deriving DecidableEq, Repr

def Fp.isNan : Fp → Bool
  | .nan => true
  | _ => false

/-- The exact value of a finite one. -/
def Fp.dy : Fp → Dy
  | .fin true m e => ⟨-(m : Int), e⟩
  | .fin false m e => ⟨m, e⟩
  | _ => Dy.zero

/-- A value from an exact one; zero is positive. -/
def Fp.ofDy (x : Dy) : Fp := .fin (x.m < 0) x.m.natAbs x.e

def Fp.neg : Fp → Fp
  | .nan => .nan
  | .inf s => .inf (!s)
  | .fin s m e => .fin (!s) m e

def Fp.abs : Fp → Fp
  | .nan => .nan
  | .inf _ => .inf false
  | .fin _ m e => .fin false m e

/-! ### Formats of the IEEE family (R25) -/

/-- A binary format: precision p with the leading bit, and width of the exponent field. -/
structure Ieee where
  p : Nat
  ebits : Nat
  deriving DecidableEq, Repr

def Ieee.fp32 : Ieee := ⟨24, 8⟩
def Ieee.bf16 : Ieee := ⟨8, 8⟩
def Ieee.fp16 : Ieee := ⟨11, 5⟩

def Ieee.bias (f : Ieee) : Int := (2 ^ (f.ebits - 1) : Nat) - 1

/-- The weight of the last bit of a subnormal. -/
def Ieee.qmin (f : Ieee) : Int := 1 - f.bias - (f.p - 1)

/-- The pattern of infinity, sign clear. -/
def Ieee.infBits (f : Ieee) : Nat := (2 ^ f.ebits - 1) * 2 ^ (f.p - 1)

/-- The canonical quiet NaN (R26). -/
def Ieee.nanBits (f : Ieee) : Nat := f.infBits + 2 ^ (f.p - 2)

/-- The sign bit's weight. -/
def Ieee.signBit (f : Ieee) : Nat := 2 ^ (f.ebits + f.p - 1)

/-- The format of codes 0 to 2 (R22). -/
def Ieee.ofCode (c : Nat) : Ieee := if c = 1 then Ieee.bf16 else if c = 2 then Ieee.fp16 else Ieee.fp32

/-- The value of a pattern (R25). -/
def Ieee.decode (f : Ieee) (bits : Nat) : Fp :=
  let neg := decide (bits / f.signBit % 2 = 1)
  let ef := bits / 2 ^ (f.p - 1) % 2 ^ f.ebits
  let mf := bits % 2 ^ (f.p - 1)
  if ef = 2 ^ f.ebits - 1 then (if mf = 0 then .inf neg else .nan)
  else if ef = 0 then .fin neg mf f.qmin
  else .fin neg (mf + 2 ^ (f.p - 1)) (f.qmin + (ef - 1 : Nat))

/-- The largest finite magnitude. -/
def Ieee.top (f : Ieee) : Dy := (f.decode (f.infBits - 1)).dy

/-- How a rounding chooses (R37, R39): the mode of R23, the draw of the generator's upper 24 bits and SAT. -/
structure Rnd where
  mode : Nat := 0
  draw : Nat := 0
  sat : Bool := false
  deriving DecidableEq, Repr

/-- Nearest even without saturation: what every result that names no format register takes (R40, R45, R505). -/
def Rnd.nearest : Rnd := {}

/-- m × 2^e as a whole number of 2^q, rounded by R37, and whether it was inexact. `sticky` says that the exact value lies
a little above m × 2^e, by less than any amount that a comparison here can see. -/
def roundAt (r : Rnd) (m : Nat) (e q : Int) (sticky : Bool) : Nat × Bool :=
  if q ≤ e then
    (m * 2 ^ (e - q).toNat, sticky)
  else
    let k := (q - e).toNat
    let n := m / 2 ^ k
    let rem := m % 2 ^ k
    let inexact := decide (rem ≠ 0) || sticky
    let up :=
      if r.mode = 2 then false
      else if r.mode = 1 then decide (r.draw < rem * 2 ^ 24 / 2 ^ k)
      else decide (2 ^ k < 2 * rem) || (decide (2 * rem = 2 ^ k) && (sticky || decide (n % 2 = 1)))
    (if up then n + 1 else n, inexact)

/-- Rounding into a binary format (R37, R505) with the flags of R505 and R506. -/
def Ieee.round (f : Ieee) (r : Rnd) (x : Fp) (sticky : Bool := false) : Nat × ArithFlags :=
  match x with
  | .nan => (f.nanBits, ArithFlags.none)
  | .inf neg => (f.infBits + (if neg then f.signBit else 0), ArithFlags.none)
  | .fin neg m e =>
    let s := if neg then f.signBit else 0
    if m = 0 then (s, ArithFlags.none) else
    let top : Int := (Nat.log2 m : Int) + e
    let qn : Int := top - (f.p - 1 : Nat)
    let q := Max.max qn f.qmin
    let (n, inexact) := roundAt r m e q sticky
    let maxFin : Dy := ⟨(2 ^ f.p - 1 : Nat), f.bias - (f.p - 1 : Nat)⟩
    let tooBig := if r.mode = 1 then maxFin.lt ⟨m, e⟩ else maxFin.lt ⟨n, q⟩
    if tooBig then
      let bits := if r.sat || r.mode = 2 then f.infBits - 1 else f.infBits
      (bits + s, { overflow := true, saturated := r.sat })
    else
      let (n', _) := roundAt r m e qn sticky
      let tiny := Dy.lt ⟨n', qn⟩ ⟨1, 1 - f.bias⟩
      ((q - f.qmin).toNat * 2 ^ (f.p - 1) + n + s, { underflow := tiny && inexact })

/-! ### FP32 operations (R45) -/

/-- The value of an FP32 pattern. -/
def fp32 (w : W32) : Fp := Ieee.fp32.decode w.toNat

/-- An exact result rounded to nearest even in FP32, with INVALID from `invalid`. -/
def toFp32 (x : Fp) (invalid : Bool) (sticky : Bool := false) : W32 × ArithFlags :=
  let (b, fl) := Ieee.fp32.round Rnd.nearest x sticky
  (BitVec.ofNat 32 b, fl.join (ArithFlags.inv invalid))

/-- The exact sum, and whether it is invalid. -/
def Fp.add (x y : Fp) : Fp × Bool :=
  match x, y with
  | .nan, _ => (.nan, false)
  | _, .nan => (.nan, false)
  | .inf a, .inf b => if a = b then (.inf a, false) else (.nan, true)
  | .inf a, .fin _ _ _ => (.inf a, false)
  | .fin _ _ _, .inf b => (.inf b, false)
  | .fin a m e, .fin b n g =>
    let d := (Fp.fin a m e).dy.add (Fp.fin b n g).dy
    (if d.m = 0 then .fin (a && b) 0 0 else Fp.ofDy d, false)

/-- The exact product, and whether it is invalid. -/
def Fp.mul (x y : Fp) : Fp × Bool :=
  match x, y with
  | .nan, _ => (.nan, false)
  | _, .nan => (.nan, false)
  | .inf a, .inf b => (.inf (a != b), false)
  | .inf a, .fin b n _ => if n = 0 then (.nan, true) else (.inf (a != b), false)
  | .fin a m _, .inf b => if m = 0 then (.nan, true) else (.inf (a != b), false)
  | .fin a m e, .fin b n g => (.fin (a != b) (m * n) (e + g), false)

/-- The exact x × y + z, and whether it is invalid. -/
def Fp.fma (x y z : Fp) : Fp × Bool :=
  if z.isNan then (.nan, false) else
  let (p, i) := x.mul y
  let (r, j) := p.add z
  (r, i || j)

/-- Order of two values that are no NaN, −0 below +0 (R45). -/
def Fp.below (x y : Fp) : Bool :=
  match x, y with
  | .inf a, .inf b => a && !b
  | .inf a, _ => a
  | _, .inf b => !b
  | .fin a m e, .fin b n g =>
    if m = 0 ∧ n = 0 then a && !b else Dy.lt (Fp.fin a m e).dy (Fp.fin b n g).dy
  | _, _ => false

/-- Numerical less-than and equality of two values that are no NaN: the two zeros are equal. -/
def Fp.ltNum (x y : Fp) : Bool :=
  match x, y with
  | .inf a, .inf b => a && !b
  | .inf a, .fin _ _ _ => a
  | .fin _ _ _, .inf b => !b
  | .fin a m e, .fin b n g => Dy.lt (Fp.fin a m e).dy (Fp.fin b n g).dy
  | _, _ => false

def Fp.eqNum (x y : Fp) : Bool :=
  match x, y with
  | .inf a, .inf b => a == b
  | .fin a m e, .fin b n g => Dy.eq (Fp.fin a m e).dy (Fp.fin b n g).dy
  | _, _ => false

def f32Add (a b : W32) : W32 × ArithFlags :=
  let (x, i) := (fp32 a).add (fp32 b)
  toFp32 x i

def f32Sub (a b : W32) : W32 × ArithFlags :=
  let (x, i) := (fp32 a).add (fp32 b).neg
  toFp32 x i

def f32Mul (a b : W32) : W32 × ArithFlags :=
  let (x, i) := (fp32 a).mul (fp32 b)
  toFp32 x i

def f32Fma (a b c : W32) : W32 × ArithFlags :=
  let (x, i) := (fp32 a).fma (fp32 b) (fp32 c)
  toFp32 x i

/-- The maximum of R45. -/
def f32Max (a b : W32) : W32 :=
  if (fp32 a).isNan || (fp32 b).isNan then 0x7FC00000
  else if (fp32 a).below (fp32 b) then b else a

/-- The minimum of R45. -/
def f32Min (a b : W32) : W32 :=
  if (fp32 a).isNan || (fp32 b).isNan then 0x7FC00000
  else if (fp32 b).below (fp32 a) then b else a

/-- The integer part toward zero of an exact value. -/
def Dy.trunc (x : Dy) : Int :=
  if 0 ≤ x.e then x.at_ 0
  else
    let q : Int := (x.m.natAbs / 2 ^ x.e.natAbs : Nat)
    if x.m < 0 then -q else q

/-- Conversion toward zero to a signed integer of `w` bits: NaN gives `nanTo`, a value outside the range saturates
(R64, R96). -/
def fpToInt (w : Nat) (x : Fp) (nanTo : Int) : Int :=
  let lo : Int := -(2 ^ (w - 1) : Nat)
  let hi : Int := (2 ^ (w - 1) : Nat) - 1
  match x with
  | .nan => nanTo
  | .inf neg => if neg then lo else hi
  | .fin _ _ _ => Max.max lo (Min.min hi x.dy.trunc)

/-- A signed integer rounded to nearest even in FP32. -/
def intToFp32 (i : Int) : W32 × ArithFlags := toFp32 (Fp.ofDy ⟨i, 0⟩) false

/-! ### The stochastic generator (R38) -/

/-- One round of the generator on (c0, c1, c2, c3) with keys k0, k1. -/
def philoxRound (c : W32 × W32 × W32 × W32) (k0 k1 : W32) : W32 × W32 × W32 × W32 :=
  let p : W64 := (0xD2511F53 : W64) * c.1.setWidth 64
  let q : W64 := (0xCD9E8D57 : W64) * c.2.2.1.setWidth 64
  let hi (x : W64) : W32 := (x >>> 32).setWidth 32
  let lo (x : W64) : W32 := x.setWidth 32
  (hi q ^^^ c.2.1 ^^^ k0, lo q, hi p ^^^ c.2.2.2 ^^^ k1, lo p)

/-- `n` rounds; the keys advance before every round but the first. -/
def philoxRounds : Nat → W32 × W32 × W32 × W32 → W32 → W32 → W32 × W32 × W32 × W32
  | 0, c, _, _ => c
  | n + 1, c, k0, k1 => philoxRounds n (philoxRound c k0 k1) (k0 + 0x9E3779B9) (k1 + 0xBB67AE85)

def philox (c0 c1 c2 c3 k0 k1 : W32) : W32 := (philoxRounds 10 (c0, c1, c2, c3) k0 k1).1

/-- What a unit draws with: the seed, the unit's identifier and the step index (R38). -/
structure Draws where
  seed : W64
  unit : Nat
  step : W64
  deriving DecidableEq, Repr

/-- The upper 24 bits of the draw of an element index (R38, R39). -/
def Draws.draw (d : Draws) (idx : W32) : Nat :=
  (philox idx (BitVec.ofNat 32 d.unit) (d.step.setWidth 32) ((d.step >>> 32).setWidth 32)
    (d.seed.setWidth 32) ((d.seed >>> 32).setWidth 32)).toNat / 256

/-! ### Curves (R47 to R49) -/

/-- The little-endian word of `n` bytes at an offset of a byte list; bytes beyond its end read as zero. -/
def leAt (b : List Byte) (off n : Nat) : Nat :=
  (((b.drop off).take n).foldr (fun x acc => x.toNat + 256 * acc) 0)

/-- A byte in two's complement. -/
def signed8 (n : Nat) : Int := (if n % 256 < 128 then Int.ofNat (n % 256) else Int.ofNat (n % 256) - 256)

/-- The segment and the local variable of R48 for an input that is no NaN. -/
def curveSegment (mode : Nat) (ebase : Int) (mbits : Nat) (x : W32) : Nat × Dy :=
  let n := if mode = 0 then 128 else 256
  let neg := x.toNat ≥ 2 ^ 31
  let base := if mode = 0 ∧ neg then 128 else 0
  let last : Nat × Dy := (base + n - 1, Dy.zero)
  match (fp32 x).abs with
  | .fin _ m e =>
    if Dy.lt ⟨m, e⟩ ⟨1, ebase⟩ then (base, ⟨m, e - ebase⟩)
    else
      let ex := Dy.log2 ⟨m, e⟩
      -- the fraction, left-aligned to 23 bits
      let frac : Nat := m * 2 ^ (23 - Nat.log2 m) % 2 ^ 23
      let mm : Nat := frac / 2 ^ (23 - mbits)
      let j := 1 + (ex - ebase).toNat * 2 ^ mbits + mm
      if j ≤ n - 2 then (base + j, ⟨frac % 2 ^ (23 - mbits), -((23 - mbits : Nat) : Int)⟩) else last
  | _ => last

/-- The result of a curve table on one input (R49), with its flags. -/
def curveEval (tbl : List Byte) (x : W32) : W32 × ArithFlags :=
  if (fp32 x).isNan then (0x7FC00000, ArithFlags.none) else
  let h := leAt tbl 0 4
  let mode := h / 2 ^ 16 % 4
  let ebase := signed8 (h / 2 ^ 8)
  let (seg, u) := curveSegment mode ebase (h % 8) x
  let off := 16 + 16 * seg
  let a := BitVec.ofNat 32 (leAt tbl off 4)
  let b := BitVec.ofNat 32 (leAt tbl (off + 4) 4)
  let c := BitVec.ofNat 32 (leAt tbl (off + 8) 4)
  let uf := Fp.ofDy u
  let (t, i) := (fp32 c).fma uf (fp32 b)
  let (tw, f1) := toFp32 t i
  let (y, j) := (fp32 tw).fma uf (fp32 a)
  let (yw, f2) := toFp32 y j
  let r := if mode = 2 ∧ x.toNat ≥ 2 ^ 31 ∧ ¬ (fp32 yw).isNan then yw ^^^ 0x80000000 else yw
  (r, f1.join f2)

end Sys2Proof.Machine
end

