-- ==== Sys2Proof/Machine/Formats.lean ====
section
/-! DEFINITION. Block-scaled formats: fixed and table-defined elements, scales, and the encoding of a block
(R22 to R39, R506). -/

namespace Sys2Proof.Machine

open Sys2Proof

/-! ### Bytes and bit streams (R29) -/

/-- The `n` little-endian bytes of a number. -/
def leBytes : Nat → Nat → List Byte
  | 0, _ => []
  | n + 1, v => BitVec.ofNat 8 v :: leBytes n (v / 256)

/-- The number that little-endian bytes spell. -/
def leNat (b : List Byte) : Nat := b.foldr (fun x acc => x.toNat + 256 * acc) 0

/-- A big-endian number from bytes, and its bytes. -/
def beNat (b : List Byte) : Nat := b.foldl (fun acc x => 256 * acc + x.toNat) 0
def beBytes (n v : Nat) : List Byte := (leBytes n v).reverse

/-- Elements of `w` bits packed in element order. -/
def packNat (w : Nat) (l : List Nat) : Nat := l.foldr (fun x acc => x % 2 ^ w + 2 ^ w * acc) 0

/-- The first `n` elements of `w` bits of a packed number. -/
def unpackNat (w : Nat) : Nat → Nat → List Nat
  | 0, _ => []
  | n + 1, v => v % 2 ^ w :: unpackNat w n (v / 2 ^ w)

/-! ### Formats -/

/-- An entry of an encode table: the code, the magnitude of its value, its THRESH (none is +∞) and TIE (R34). -/
structure EncEntry where
  code : Nat
  val : Dy
  thresh : Option Dy
  tie : Bool
  deriving DecidableEq, Repr

/-- A block-scaled format as its instructions use it. `elemEmax` is EMAX_E of R30; `minNormal` is the bound of R506. -/
structure BFmt where
  code : Nat
  width : Nat
  block : Nat
  e4m3 : Bool
  span : Int
  elemEmax : Int
  vmax : Dy
  minNormal : Option Dy
  enc : List EncEntry
  dec : List Fp
  deriving DecidableEq, Repr

/-- The fields of a fixed format of codes 3 to 7: exponent bits, mantissa bits, bias, largest finite code (R27). -/
def fixedLayout (code : Nat) : Nat × Nat × Int × Nat :=
  match code with
  | 3 => (4, 3, 7, 0x7E)
  | 4 => (5, 2, 15, 0x7B)
  | 5 => (3, 2, 3, 0x1F)
  | 6 => (2, 3, 1, 0x1F)
  | _ => (2, 1, 1, 0x7)

/-- The element that a code of formats 3 to 8 means (R27). -/
def fixedDecode (code c : Nat) : Fp :=
  if code = 8 then
    let n := signed8 c
    .fin (n < 0) n.natAbs (-6)
  else
    let (eb, mb, bias, _) := fixedLayout code
    let neg := decide (c / 2 ^ (eb + mb) % 2 = 1)
    let ef := c / 2 ^ mb % 2 ^ eb
    let mf := c % 2 ^ mb
    if code = 3 ∧ ef = 15 ∧ mf = 7 then .nan
    else if code = 4 ∧ ef = 31 then (if mf = 0 then .inf neg else .nan)
    else if ef = 0 then .fin neg mf (1 - bias - mb)
    else .fin neg (mf + 2 ^ mb) ((ef : Int) - bias - mb)

/-- The built-in encode entries of formats 3 to 7: midpoints, ties to the even code (R37). -/
def fixedEnc (code : Nat) : List EncEntry :=
  let top := (fixedLayout code).2.2.2
  (List.range (top + 1)).map fun c =>
    let v := (fixedDecode code c).dy
    let nx := (fixedDecode code (c + 1)).dy
    { code := c, val := v, thresh := if c = top then none else some ((v.add nx).scale (-1)), tie := c % 2 = 1 }

/-- A decode entry of a format table (R33). -/
def tableDecode (w : Nat) : Fp :=
  let neg := decide (w / 2 ^ 29 % 2 = 1)
  match w / 2 ^ 30 % 4 with
  | 0 => .fin neg (w / 2 ^ 28 % 2 * 128 + w % 128) (signed8 (w / 2 ^ 16) - 7)
  | 2 => .inf neg
  | _ => .nan

/-- LEAD of a decode entry. -/
def tableLead (w : Nat) : Bool := w / 2 ^ 28 % 2 = 1

/-- Decode entry `c` of a format table. -/
def tableEntry (t : List Byte) (c : Nat) : Nat := leAt t (16 + 4 * c) 4

/-- An encode entry of a format table (R34). -/
def tableEnc (t : List Byte) (i : Nat) : EncEntry :=
  let w := leAt t (1040 + 8 * i) 8
  let code := w / 2 ^ 32 % 256
  let th := fp32 (BitVec.ofNat 32 w)
  { code := code, val := (tableDecode (tableEntry t code)).dy.abs,
    thresh := match th with
      | .fin _ _ _ => some th.dy
      | _ => none,
    tie := w / 2 ^ 40 % 2 = 1 }

/-- The least magnitude among encode codes with LEAD 1 (R506). -/
def tableMinNormal (t : List Byte) (enc : List EncEntry) : Option Dy :=
  ((enc.filter fun e => tableLead (tableEntry t e.code)).map EncEntry.val).foldl
    (fun acc v => match acc with
      | none => some v
      | some a => if v.lt a then some v else some a) none

/-- The format that a table defines (R31 to R34). -/
def tableFormat (t : List Byte) : BFmt :=
  let w0 := leAt t 0 4
  let w1 := leAt t 4 4
  let width := w0 / 2 ^ 12 % 16
  let enc := (List.range (w0 % 256)).map (tableEnc t)
  { code := w0 / 2 ^ 16 % 256, width := width, block := 16 * 2 ^ (w0 / 2 ^ 10 % 4), e4m3 := w0 / 2 ^ 9 % 2 = 1,
    span := signed8 (w1 / 2 ^ 16) - signed8 (w1 / 2 ^ 24), elemEmax := signed8 (w1 / 2 ^ 8),
    vmax := (fp32 (BitVec.ofNat 32 (leAt t 8 4))).dy, minNormal := tableMinNormal t enc, enc := enc,
    dec := (List.range (2 ^ width)).map fun c => tableDecode (tableEntry t c) }

/-- The built-in format of codes 3 to 8 (R22, R27, R30). -/
def fixedFormat (code : Nat) : BFmt :=
  let width := if code ≤ 4 ∨ code = 8 then 8 else if code = 7 then 4 else 6
  let (_, _, bias, top) := fixedLayout code
  { code := code, width := width, block := 32, e4m3 := false,
    span := (match code with
      | 3 => 14
      | 4 => 29
      | 5 => 6
      | 8 => 7
      | _ => 2),
    elemEmax := (match code with
      | 3 => 8
      | 4 => 15
      | 5 => 4
      | 8 => 0
      | _ => 2),
    vmax := if code = 8 then ⟨127, -6⟩ else (fixedDecode code top).dy,
    minNormal := if code = 8 then none else some ⟨1, 1 - bias⟩,
    enc := if code = 8 then [] else fixedEnc code,
    dec := (List.range (2 ^ width)).map (fixedDecode code) }

/-- The block-scaled format of a code, where one exists: built in, or installed by the image (R22, R36). -/
def bfmt? (tables : SMap (List Byte)) (code : Nat) : Option BFmt :=
  if 3 ≤ code ∧ code ≤ 8 then some (fixedFormat code)
  else if 16 ≤ code ∧ code < 32 then
    match tables.find? (fun p => p.1 == code) with
    | some p => some (tableFormat p.2)
    | none => none
  else none

/-- The element of a code. -/
def BFmt.elem (b : BFmt) (c : Nat) : Fp := b.dec.getD c .nan

/-- A scale byte that R28 forbids: an E4M3 scale with its sign bit set. -/
def BFmt.badScale (b : BFmt) (s : Nat) : Bool := b.e4m3 && decide (128 ≤ s)

/-- The factor of a scale byte; none is NaN (R28). -/
def BFmt.scale (b : BFmt) (s : Nat) : Option Dy :=
  if b.e4m3 then
    (if s % 128 = 0x7F then none else some (fixedDecode 3 (s % 128)).dy)
  else if s = 255 then none
  else some ⟨1, (s : Int) - 127⟩

/-- The scale byte of a NaN block (R30). -/
def BFmt.nanScale (b : BFmt) : Nat := if b.e4m3 then 0x7F else 0xFF

/-- The value of an element of a block (R27, R28), with the flags of its decoding. -/
def BFmt.value (b : BFmt) (s : Option Dy) (c : Nat) : Fp × ArithFlags :=
  match s with
  | none => (.nan, { scaleNan := true })
  | some f =>
    match b.elem c with
    | .nan => (.nan, ArithFlags.none)
    | .inf neg => if f.m = 0 then (.nan, ArithFlags.inv true) else (.inf neg, ArithFlags.none)
    | .fin neg m e => (.fin neg (m * f.m.natAbs) (e + f.e), ArithFlags.none)

/-! ### Encoding (R30, R34, R37, R39) -/

/-- The entry before which no threshold lies, for the magnitude a of a block with factor s (R34). Where a table's THRESH is
the value of a listed code, R34 gives that magnitude another code although R37 returns what is representable: DEDUCED,
R34's text stands (log 90). -/
def pickNearest (s a : Dy) : List EncEntry → Option EncEntry
  | [] => none
  | e :: l =>
    match e.thresh with
    | none => some e
    | some t =>
      let ts := t.mul s
      if a.lt ts || (a.eq ts && !e.tie) then some e else pickNearest s a l

/-- The last entry whose value is at most the magnitude, and the entry after it. -/
def pickBelow (s a : Dy) : List EncEntry → Option (EncEntry × Option EncEntry)
  | [] => none
  | [e] => some (e, none)
  | e :: f :: l => if (f.val.mul s).le a then pickBelow s a (f :: l) else some (e, some f)

/-- The entry that a magnitude encodes to under a rounding mode. -/
def pickEntry (r : Rnd) (s a : Dy) (l : List EncEntry) : Option EncEntry :=
  if r.mode = 0 then pickNearest s a l
  else
    match pickBelow s a l with
    | none => none
    | some (lo, none) => some lo
    | some (lo, some hi) =>
      if r.mode = 2 then some lo
      else if r.draw < (a.sub (lo.val.mul s)).quot ((hi.val.sub lo.val).mul s) 24 then some hi else some lo

/-- One element of a block whose factor is s (R30, steps 5 to 8), with its flags. A magnitude above the largest finite
value saturates before any rounding in every mode (R37, R39), for MXINT8 also where it would round to 127: DEDUCED
(log 91). -/
def BFmt.encodeElem (b : BFmt) (r : Rnd) (s : Dy) (x : Fp) : Nat × ArithFlags :=
  let top := 2 ^ (b.width - 1)
  match x with
  | .nan => (0, ArithFlags.none)
  | .inf neg =>
    if b.code = 8 then (if neg then 129 else 127, { saturated := true })
    else if b.code = 4 then (0x7C + (if neg then 128 else 0), ArithFlags.none)
    else ((b.enc.getLast?.map EncEntry.code).getD 0 + (if neg then top else 0), { saturated := true })
  | .fin neg m e =>
    if m = 0 then (0, ArithFlags.none)
    else if b.code = 8 then
      if (b.vmax.mul s).lt ⟨m, e⟩ then (if neg then 129 else 127, { saturated := true })
      else
        let n := (roundAt r m (e - s.e + 6) 0 false).1
        (if neg then (256 - n) % 256 else n, ArithFlags.none)
    else
      let a : Dy := ⟨m, e⟩
      match pickEntry r s a b.enc with
      | none => (0, ArithFlags.none)
      | some en =>
        let inexact := !((en.val.mul s).eq a)
        let tiny := match b.minNormal with
          | some t => en.val.lt t
          | none => true
        (if neg && en.code != 0 then en.code + top else en.code,
          { saturated := (b.vmax.mul s).lt a, underflow := tiny && inexact })

/-- The scale byte that R30 gives to the largest finite magnitude of a block. -/
def BFmt.pickScale (b : BFmt) (amax : Dy) : Nat :=
  if b.e4m3 then
    (if amax.m = 0 then 0x38
     else ((List.range 0x7E).map (· + 1)).find? (fun c => amax.le ((fixedDecode 3 c).dy.mul b.vmax)) |>.getD 0x7E)
  else
    (if amax.m = 0 then 0x7F
     else (Max.max (-127) (Min.min 127 (amax.log2 - b.elemEmax)) + 127).toNat)

/-- The largest magnitude among the finite elements (R30, step 2). -/
def blockAmax (xs : List Fp) : Dy :=
  xs.foldl (fun acc x => match x with
    | .fin _ m e => if acc.lt ⟨m, e⟩ then ⟨m, e⟩ else acc
    | _ => acc) Dy.zero

/-- The factor of the scale that a block without NaN takes. -/
def BFmt.factor (b : BFmt) (xs : List Fp) : Dy := (b.scale (b.pickScale (blockAmax xs))).getD ⟨1, 0⟩

/-- The encoding of a block (R30): the scale byte, the codes and the flags; `draws` gives each element's draw. -/
def BFmt.encode (b : BFmt) (mode : Nat) (draws : List Nat) (xs : List Fp) : Nat × List Nat × ArithFlags :=
  if xs.any Fp.isNan then (b.nanScale, xs.map (fun _ => 0), { scaleNan := true })
  else
    let rs := (List.range xs.length).map fun i =>
      b.encodeElem { mode := mode, draw := draws.getD i 0 } (b.factor xs) (xs.getD i .nan)
    (b.pickScale (blockAmax xs), rs.map Prod.fst, ArithFlags.joinAll (rs.map Prod.snd))

/-- Whether a value lies within a largest finite magnitude: under stochastic rounding such a value draws, what overflows
or is not finite does not (R39). That a value that is exactly representable draws too is DEDUCED (log 92). -/
def Fp.within (x : Fp) (top : Dy) : Bool :=
  match x with
  | .fin _ m e => (Dy.mk m e).le top
  | _ => false

/-- Whether some element of a block draws under stochastic rounding (R38, R39): none of a block with a NaN does. -/
def BFmt.drawsAny (b : BFmt) (xs : List Fp) : Bool :=
  !xs.any Fp.isNan && xs.any fun x => x.within (b.vmax.mul (b.factor xs))

/-! ### Format registers (R23) -/

/-- CODE, RND and SAT of a format register. -/
def fmtCode (f : W32) : Nat := f.toNat % 32
def fmtRnd (f : W32) : Nat := f.toNat / 32 % 4
def fmtSat (f : W32) : Bool := f.toNat / 128 % 2 = 1

/-- The block-scaled format that a register names. -/
def fmtBlock (tables : SMap (List Byte)) (f : W32) : Option BFmt := bfmt? tables (fmtCode f)

/-- A register whose use R23 makes unpredictable: a reserved code or rounding mode, or a code without a table. -/
def fmtBad (tables : SMap (List Byte)) (f : W32) : Bool :=
  decide (fmtRnd f = 3) || (decide (2 < fmtCode f) && (fmtBlock tables f).isNone)

/-- The rounding that a register selects with a draw. -/
def fmtRound (f : W32) (draw : Nat) : Rnd := { mode := fmtRnd f, draw := draw, sat := fmtSat f }

/-! ### Matrix accumulation (R41 to R43) -/

/-- One product of an accumulation block: none is the product of infinity and zero. -/
def elemProduct (x y : Fp) : Fp × Bool := x.mul y

/-- The non-finite outcome of a block's products (R42): the contribution, and whether it sets INVALID. -/
def nonFinite (ps : List (Fp × Bool)) (nanIn : Bool) : Option (Contrib × Bool) :=
  if nanIn then some (.nan, false)
  else if ps.any Prod.snd then some (.nan, true)
  else
    let pos := ps.any fun p => p.1 = .inf false
    let neg := ps.any fun p => p.1 = .inf true
    if pos && neg then some (.nan, true)
    else if pos then some (.inf false, false)
    else if neg then some (.inf true, false)
    else none

/-- The exact sum of finite products (R41). -/
def exactSum (ps : List Dy) : Dy := ps.foldl Dy.add Dy.zero

/-- A value truncated toward zero to a multiple of 2^q, and whether it changed. -/
def truncTo (x : Dy) (q : Int) : Dy × Bool :=
  if q ≤ x.e then (x, false)
  else
    let k := (q - x.e).toNat
    let n : Int := (x.m.natAbs / 2 ^ k : Nat)
    (⟨if x.m < 0 then -n else n, q⟩, decide (x.m.natAbs % 2 ^ k ≠ 0))

/-- The sum of the aligned path (R43), and whether bits went into sticky. -/
def alignedSum (ps : List Dy) : Dy × Bool :=
  let nz := ps.filter fun p => p.m ≠ 0
  match nz with
  | [] => (Dy.zero, false)
  | p :: l =>
    let e := l.foldl (fun acc q => Max.max acc q.log2) p.log2
    let ts := nz.map fun q => truncTo q (e - 48)
    let s := exactSum (ts.map Prod.fst)
    if ts.any Prod.snd then (s.add ⟨if 0 ≤ s.m then 1 else -1, e - 49⟩, true) else (s, false)

/-- A block's contribution (R41 to R43) from pairs of elements and the product of the scales; none is a NaN scale. -/
def blockContrib (aligned : Bool) (xs : List (Fp × Fp)) (scale : Option Dy) (infZeroScale : Bool) :
    Contrib × ArithFlags :=
  let ps := xs.map fun p => elemProduct p.1 p.2
  let nanIn := scale.isNone || xs.any fun p => p.1.isNan || p.2.isNan
  if infZeroScale && !nanIn then (.nan, ArithFlags.inv true)
  else
    match nonFinite ps nanIn with
    | some (c, inv) => (c, { invalid := inv, scaleNan := scale.isNone })
    | none =>
      let f := scale.getD ⟨1, 0⟩
      if aligned then
        let (s, st) := alignedSum (ps.map fun p => p.1.dy)
        (.fin (s.mul f).m (s.mul f).e, { alignInexact := st })
      else
        let s := exactSum (ps.map fun p => p.1.dy)
        (.fin (s.mul f).m (s.mul f).e, ArithFlags.none)

/-- A contribution added into an accumulator element (R41 to R43): +0 if the exact sum is zero. -/
def addContrib (acc : W32) (c : Contrib) : W32 × ArithFlags :=
  match c with
  | .nan => (0x7FC00000, ArithFlags.none)
  | .inf neg =>
    let (x, i) := (fp32 acc).add (.inf neg)
    toFp32 x i
  | .fin m e =>
    match fp32 acc with
    | .fin _ _ _ => toFp32 (Fp.ofDy ((fp32 acc).dy.add ⟨m, e⟩)) false
    | x => toFp32 x false

end Sys2Proof.Machine
end

