-- ==== Sys2Proof/Machine/Ops.lean ====
section
/-! DEFINITION. The named operations over the state: sparse arrays, bytes of memory, registers, the scratchpad,
semaphores, and the issue cycle of a tile. Every meaning is written over these. -/

namespace Sys2Proof.Machine

open Sys2Proof

/-- What a command answers. -/
abbrev Res := Host.Outcome State Fault Refusal

/-! ### Sparse arrays -/

/-- The entry of an index, if one is listed. -/
def SMap.get? {α : Type} : SMap α → Nat → Option α
  | [], _ => none
  | (k, v) :: l, i => if k = i then some v else SMap.get? l i

/-- The entry of an index; an unlisted index reads as `d`. -/
def SMap.get {α : Type} (m : SMap α) (i : Nat) (d : α) : α := (SMap.get? m i).getD d

/-- The array with the entry of an index replaced, indices kept rising. -/
def SMap.set {α : Type} : SMap α → Nat → α → SMap α
  | [], i, v => [(i, v)]
  | (k, w) :: l, i, v =>
    if i < k then (i, v) :: (k, w) :: l
    else if i = k then (i, v) :: l
    else (k, w) :: SMap.set l i v

/-- The array without an index. -/
def SMap.erase {α : Type} : SMap α → Nat → SMap α
  | [], _ => []
  | (k, w) :: l, i => if k = i then l else (k, w) :: SMap.erase l i

/-- The array with an entry changed. -/
def SMap.upd {α : Type} (m : SMap α) (i : Nat) (d : α) (f : α → α) : SMap α := SMap.set m i (f (SMap.get m i d))

/-- Whether an index is listed as true. -/
def SMap.has (m : SMap Bool) (i : Nat) : Bool := SMap.get m i false

/-- A set of indices with one added or removed. -/
def SMap.mark (m : SMap Bool) (i : Nat) (b : Bool) : SMap Bool := if b then SMap.set m i true else SMap.erase m i

/-! ### Bytes of memory: an unlisted address reads as zero -/

/-- A memory in its one form: addresses rising, no zero byte listed. -/
abbrev Memory := List Host.Cell

def Memory.get (m : Memory) (a : Nat) : Byte := SMap.get m a 0

/-- A write of a byte; a zero byte leaves the list. -/
def Memory.put (m : Memory) (a : Nat) (b : Byte) : Memory :=
  if b = 0 then SMap.erase m a else SMap.set m a b

/-- The one form: addresses strictly rising from `lo`, no byte zero. -/
def Memory.wfFrom : Nat → Memory → Bool
  | _, [] => true
  | lo, (k, b) :: l => decide (lo ≤ k) && decide (b ≠ 0) && Memory.wfFrom (k + 1) l

def Memory.wf (m : Memory) : Bool := Memory.wfFrom 0 m

/-! ### Outcomes and the state's parts -/

/-- The state with a line put out. -/
def State.emit (s : State) (o : Output) : State := { s with out := o :: s.out }

def State.tile (s : State) (n : Nat) : Tile := s.tiles.get n Tile.reset

def State.setTile (s : State) (n : Nat) (t : Tile) : State := { s with tiles := s.tiles.set n t }

def State.modTile (s : State) (n : Nat) (f : Tile → Tile) : State := s.setTile n (f (s.tile n))

/-- The row of a physical tile (R2). -/
def rowOf (n : Nat) : Nat := n / 25

def State.row (s : State) (r : Nat) : Row := s.rows.get r {}

def State.modRow (s : State) (r : Nat) (f : Row → Row) : State := { s with rows := s.rows.set r (f (s.row r)) }

/-- The logical tile that a physical tile carries (R194). -/
def State.logicalOf (s : State) (n : Nat) : Option Nat := s.tileMap.idxOf? n

/-- The physical tile that carries a logical tile. -/
def State.physicalOf (s : State) (l : Nat) : Option Nat := s.tileMap[l]?

/-- This chip's logical position (R62). -/
def State.position (s : State) : Nat := (s.image.map Image.position).getD 0

def State.seed (s : State) : W64 := (s.image.map Image.seed).getD 0

/-- A fresh value that nothing constrains, and the state that has drawn it (log 5). -/
def State.fresh (s : State) : Nat × State := (Config.freeValue s.freeCtr, { s with freeCtr := s.freeCtr + 1 })

/-! ### Poison reports (R120) -/

/-- A unit marks the step: its report sets out for base camp with the step index of this moment. -/
def State.mark (s : State) (p : Place) : State := { s with reportsOut := s.reportsOut ++ [⟨p, s.step⟩] }

/-- A control operation or an engine operand used a poisoned value (R69, R101, R507). -/
def State.ctrlPoison (s : State) (n : Nat) : State :=
  (s.modTile n fun t => { t with ctrlPoison := true }).mark (.control n)

/-- The same, where a condition holds. -/
def State.ctrlPoisonIf (s : State) (n : Nat) (b : Bool) : State := if b then s.ctrlPoison n else s

/-! ### Scratchpad (R109, R116 to R118) -/

/-- The bytes of a scratchpad. -/
def spadBytes : Nat := 2 ^ 21

/-- What a scratchpad access found: the granule addresses of new parity detections. -/
abbrev Detections := List Nat

def Spad.byte (sp : Spad) (a : Nat) : Byte := Memory.get sp.bytes (a % spadBytes)

/-- Whether a granule reads as poisoned, and whether that is a new detection (R117). -/
def Spad.granState (sp : Spad) (g : Nat) : Bool × Bool :=
  let p := sp.poison.has g
  let b := sp.badParity.has g
  (p || b, b && !p)

/-- The granules of a span, in order. -/
def granSpan (addr len : Nat) : List Nat :=
  if len = 0 then [] else
    (List.range ((addr % 4 + len + 3) / 4)).map fun k => (addr / 4 + k) % (spadBytes / 4)

/-- The bytes of a span with the poison of their granules. -/
def Spad.read (sp : Spad) (addr len : Nat) : List (Byte × Bool) :=
  (List.range len).map fun i =>
    let a := (addr + i) % spadBytes
    (sp.byte a, (sp.granState (a / 4)).1)

/-- The new detections of a read. -/
def Spad.detects (sp : Spad) (addr len : Nat) : Detections :=
  ((granSpan addr len).filter fun g => (sp.granState g).2).map (· * 4)

/-- A write of some bytes of one granule: from byte `o` of it, with the poison of the data (R118). -/
def Spad.writeGran (sp : Spad) (g o : Nat) (bs : List (Byte × Bool)) : Spad :=
  let p := bs.any Prod.snd
  let full := decide (o = 0) && decide (bs.length = 4)
  let keep := if full then false else (sp.granState g).1
  { bytes := (List.range bs.length).foldl
      (fun m i => Memory.put m (4 * g + o + i) ((bs.getD i (0, false)).1)) sp.bytes,
    poison := sp.poison.mark g (p || keep),
    badParity := sp.badParity.mark g false }

/-- A write that starts in byte `o` of granule `g`, granule by granule; `fuel` is at least the data's length. -/
def Spad.writeFrom : Nat → Spad → Nat → Nat → List (Byte × Bool) → Spad
  | 0, sp, _, _, _ => sp
  | fuel + 1, sp, g, o, bs =>
    match bs with
    | [] => sp
    | _ => Spad.writeFrom fuel (sp.writeGran g o (bs.take (4 - o))) ((g + 1) % (spadBytes / 4)) 0 (bs.drop (4 - o))

def Spad.write (sp : Spad) (addr : Nat) (bs : List (Byte × Bool)) : Spad :=
  Spad.writeFrom bs.length sp (addr % spadBytes / 4) (addr % 4) bs

/-- The detections of a write: granules of the span that it covers in part and that fail their check (R118). -/
def Spad.writeDetects (sp : Spad) (addr len : Nat) : Detections :=
  let g0 := addr % spadBytes / 4
  let g1 := (addr + len - 1) % spadBytes / 4
  let part := (if addr % 4 ≠ 0 ∨ len < 4 then [g0] else []) ++
    (if (addr + len) % 4 ≠ 0 ∧ g1 ≠ g0 then [g1] else [])
  (part.filter fun g => decide (len ≠ 0) && (sp.granState g).2).map (· * 4)

/-- Granules as the die network and the engines carry them (R119). -/
def Spad.readGrans (sp : Spad) (addr len : Nat) : List Gran :=
  (granSpan (addr / 4 * 4) len).map fun g =>
    { bits := BitVec.ofNat 32 (leNat ((List.range 4).map fun i => sp.byte (4 * g + i))), poison := (sp.granState g).1 }

/-- The bytes of granules, each with its granule's poison. -/
def gransBytes (l : List Gran) : List (Byte × Bool) :=
  l.flatMap fun g => (leBytes 4 g.bits.toNat).map fun b => (b, g.poison)

/-- Granules of a byte list whose length is a multiple of 4: each takes the poison of its bytes. -/
def bytesGrans : Nat → List (Byte × Bool) → List Gran
  | 0, _ => []
  | n + 1, l =>
    { bits := BitVec.ofNat 32 (leNat ((l.take 4).map Prod.fst)), poison := (l.take 4).any Prod.snd } ::
      bytesGrans n (l.drop 4)

/-- Whether one command after another still falls in one row cycle of the tile: it runs, and no bank-conflict hold passes
(log 47). -/
def Tile.inCycle (t : Tile) : Bool := decide (t.st = .run) && decide (t.bankHold = 0)

/-- What R117 does to the tile for new detections: poison bits, SPAD_ERR, SPAD_ERR_ADDR and PARITY_COUNT. -/
def Tile.detect (t : Tile) (ds : Detections) : Tile :=
  match ds with
  | [] => t
  | d :: _ =>
    let low := ds.foldl Nat.min d
    let record := !(t.spadParity || t.old.spadParity) || (t.errNow && decide (low < t.errAddr))
    { t with
      spad := { t.spad with poison := ds.foldl (fun m a => m.mark (a / 4) true) t.spad.poison },
      spadParity := true,
      errAddrValid := true,
      errAddr := if record then low else t.errAddr,
      errNow := t.errNow || record && t.inCycle,
      parityCount := t.parityCount + BitVec.ofNat 64 ds.length }

/-- Each detection marks the step (R117, R120). -/
def State.markGrans (s : State) (n : Nat) (ds : Detections) : State :=
  ds.foldl (fun s a => s.mark (.granule n a)) s

/-- The detections of an access to a tile's scratchpad. -/
def State.detect (s : State) (n : Nat) (ds : Detections) : State :=
  (s.modTile n fun t => t.detect ds).markGrans n ds

/-! ### Registers of a tile (R52, R53) -/

/-- A scalar register; g0 reads as zero, poison clear. -/
def Tile.gr (t : Tile) (r : BitVec 5) : GReg := if r = 0 then {} else t.g.get r.toNat {}

def Tile.gv (t : Tile) (r : BitVec 5) : W64 := (t.gr r).v

def Tile.gp (t : Tile) (r : BitVec 5) : Bool := (t.gr r).p

def Tile.vr (t : Tile) (r : BitVec 5) : Lanes := t.v.get r.toNat Lanes.zero

def Tile.kr (t : Tile) (r : Nat) : BitVec 128 := t.k.get r 0

def Tile.fr (t : Tile) (r : BitVec 5) : W32 := t.f.get r.toNat 0

def Tile.lcr (t : Tile) (l : Nat) : LoopCtr := t.lc.get l {}

/-- The key of a row of an accumulator. -/
def accKey (a row : Nat) : Nat := 128 * a + row

def Tile.accRow (t : Tile) (key : Nat) : Lanes := t.acc.get key Lanes.zero

def Tile.sbuf (t : Tile) (b : Nat) : SbBuf := t.sb.get b {}

/-- The bytes of a curve table; one that is not installed holds zeros (R47). -/
def Tile.curve (t : Tile) (c : Nat) : List Byte := t.curves.get c []

def Lanes.at_ (l : Lanes) (i : Nat) : Gran := l.getD i ⟨0, false⟩

/-! ### Semaphores (R144, R146) and the row cycle (R13) -/

/-- The value after a row cycle's increments, which saturate at 0xFFFF, and then its decrements, which stop at 0. -/
def Sem.settle (m : Sem) : Sem :=
  let v := Nat.min (m.value + m.incs) 0xFFFF
  { value := v - m.decs, incs := 0, decs := 0, ovf := m.ovf || decide (0xFFFF < m.value + m.incs),
    unf := m.unf || decide (v < m.decs) }

/-- Whether settling saturates or falls below zero. -/
def Sem.overflows (m : Sem) : Bool := decide (0xFFFF < m.value + m.incs)
def Sem.underflows (m : Sem) : Bool := decide (Nat.min (m.value + m.incs) 0xFFFF < m.decs)

def Tile.sem (t : Tile) (i : Nat) : Sem := t.sems.get i {}

/-- Every semaphore takes what the row cycle has gathered; SYNC_STATUS gathers the flags (R146, R172). -/
def Tile.settleSems (t : Tile) : Tile :=
  { t with sems := t.sems.map fun (x : Nat × Sem) => (x.1, x.2.settle),
           syncSemOvf := t.syncSemOvf || t.sems.any (fun x => x.2.overflows),
           syncSemUnf := t.syncSemUnf || t.sems.any (fun x => x.2.underflows) }

/-- A change of a local semaphore: it waits for the end of the row cycle, or applies at once where none is open. -/
def Tile.setSem (t : Tile) (i : Nat) (m : Sem) : Tile :=
  let t1 := { t with sems := t.sems.set i m }
  if t.inCycle then t1 else t1.settleSems

def Tile.semAdd (t : Tile) (i n : Nat) : Tile := t.setSem i { t.sem i with incs := (t.sem i).incs + n }

def Tile.semSub (t : Tile) (i n : Nat) : Tile := t.setSem i { t.sem i with decs := (t.sem i).decs + n }

/-- The flags of two cycles together. -/
def TileFlags.or (a b : TileFlags) : TileFlags :=
  { ctrlPoison := a.ctrlPoison || b.ctrlPoison, imemParity := a.imemParity || b.imemParity, arith := a.arith.join b.arith,
    spadParity := a.spadParity || b.spadParity, spadPoisonIn := a.spadPoisonIn || b.spadPoisonIn,
    engBadDesc := a.engBadDesc || b.engBadDesc, engQovf := a.engQovf || b.engQovf,
    engNoRoute := a.engNoRoute || b.engNoRoute, engCtrlDiscard := a.engCtrlDiscard || b.engCtrlDiscard,
    engForeign := a.engForeign || b.engForeign, engLengthClamp := a.engLengthClamp || b.engLengthClamp,
    engMisalign := a.engMisalign || b.engMisalign, engStray := a.engStray || b.engStray,
    syncNoRoute := a.syncNoRoute || b.syncNoRoute, syncReaderGone := a.syncReaderGone || b.syncReaderGone,
    syncSemUnf := a.syncSemUnf || b.syncSemUnf, syncSemOvf := a.syncSemOvf || b.syncSemOvf,
    syncWdogToll := a.syncWdogToll || b.syncWdogToll, syncWdogSy := a.syncWdogSy || b.syncWdogSy }

/-- The flags that this row cycle has set. -/
def Tile.newFlags (t : Tile) : TileFlags :=
  { ctrlPoison := t.ctrlPoison, imemParity := t.imemParity, arith := t.arith, spadParity := t.spadParity,
    spadPoisonIn := t.spadPoisonIn, engBadDesc := t.engBadDesc, engQovf := t.engQovf, engNoRoute := t.engNoRoute,
    engCtrlDiscard := t.engCtrlDiscard, engForeign := t.engForeign, engLengthClamp := t.engLengthClamp,
    engMisalign := t.engMisalign, engStray := t.engStray, syncNoRoute := t.syncNoRoute,
    syncReaderGone := t.syncReaderGone, syncSemUnf := t.syncSemUnf, syncSemOvf := t.syncSemOvf,
    syncWdogToll := t.syncWdogToll, syncWdogSy := t.syncWdogSy }

/-- The flags as a reader sees them. -/
def Tile.shown (t : Tile) : TileFlags := t.newFlags.or t.old

/-- The tile with these flags, none of them set in this row cycle. -/
def Tile.withFlags (t : Tile) (f : TileFlags) : Tile :=
  { t with old := f, ctrlPoison := false, imemParity := false, arith := {}, spadParity := false, spadPoisonIn := false,
           engBadDesc := false, engQovf := false, engNoRoute := false, engCtrlDiscard := false, engForeign := false,
           engLengthClamp := false, engMisalign := false, engStray := false, syncNoRoute := false,
           syncReaderGone := false, syncSemUnf := false, syncSemOvf := false, syncWdogToll := false,
           syncWdogSy := false }

/-- A row cycle ends: semaphores settle, its flags join the earlier ones, and the engines reach what was enqueued in it
(R13, R126, R142, R146). -/
def Tile.endRow (t : Tile) : Tile :=
  let t1 := t.settleSems
  { t1.withFlags t1.shown with
    errNow := false, ldq := t.ldq.map fun c => { c with fresh := false }, stq := t.stq.map fun c => { c with fresh := false } }

/-! ### The issue cycle (R54, R55) -/

/-- Whether the bundle at the head of issue fails its parity (R76). -/
def Tile.headBad (t : Tile) : Bool := t.imemBad.has (t.half.toNat * 4096 + t.pc.toNat)

/-- Whether the tile is in an issue cycle that issues a bundle. -/
def Tile.canIssue (t : Tile) : Bool :=
  decide (t.st = .run) && !t.bubble && decide (t.bankHold = 0) && !t.bHold && !t.syHold && !t.headBad

/-- Whether a stopped tile has nothing in flight (R60). -/
def Tile.drained (t : Tile) : Bool :=
  decide (t.st = .run ∨ t.st = .hold) && decide (t.ctl = .stopped) && t.bubble && t.flight.isEmpty

/-- Whether the tile is in an issue cycle, of a bundle or of a bubble. -/
def Tile.inIssue (t : Tile) : Bool :=
  decide (t.st = .run) && decide (t.bankHold = 0) && !t.bHold && !t.syHold && (t.bubble || !t.headBad) && !t.drained

/-- A slot or a mark of the bundle has acted in this issue cycle. -/
def Tile.take (t : Tile) (x : BSlot) : Tile := { t with used := x :: t.used }

/-- An effect that becomes visible `lat` issue cycles from now. -/
def Tile.fly (t : Tile) (lat : Nat) (e : Effect) : Tile := { t with flight := t.flight ++ [⟨t.cyc + lat, e⟩] }

def Tile.flyAll (t : Tile) (l : List (Nat × Effect)) : Tile :=
  l.foldl (fun t x => t.fly x.1 x.2) t

/-- The flags of an instruction (R50). -/
def Tile.flags (t : Tile) (f : ArithFlags) : Tile := { t with arith := t.arith.join f }

/-- The words that a span touches (R105). -/
def wordsOf (addr len : Nat) : List Nat :=
  if len = 0 then [] else
    ((List.range ((addr % 64 + len + 63) / 64)).map fun k => (addr / 64 + k) % 32768)

/-- The bank of a word (R110). -/
def bankOf (hash w : Nat) : Nat :=
  let b0 := w % 32
  let b1 := w / 32 % 32
  let b2 := w / 1024 % 32
  if hash = 0 then b0 else if hash = 1 then b0 ^^^ b1 else b0 ^^^ b1 ^^^ b2

/-- The row cycles of the bank-conflict hold after an issue cycle with these requests (R106). -/
def stallCycles (hash : Nat) (rd wr : List Nat) : Nat :=
  let r := rd.eraseDups
  let w := wr.eraseDups
  let n (b : Nat) := (r.filter fun x => bankOf hash x = b).length + (w.filter fun x => bankOf hash x = b).length
  ((List.range 32).map n).foldl Nat.max 0 - 1

/-- One column's contributions added into an accumulator element (R41, R89, R92). -/
def addColumn (e : Gran) (z : Bool) (c : DotCol) : Gran × ArithFlags :=
  let start : W32 := if z then 0 else e.bits
  let (v, fl) := c.blocks.foldl
    (fun (acc : W32 × ArithFlags) b =>
      let (x, f) := addContrib acc.1 b
      (x, acc.2.join f)) (start, ArithFlags.none)
  ({ bits := v, poison := (!z && e.poison) || c.poison }, fl)

/-- An effect as it becomes visible (R55). -/
def Tile.apply (t : Tile) (e : Effect) : Tile × Detections :=
  match e with
  | .g r v p => (if r = 0 then t else { t with g := t.g.set r ⟨v, p⟩ }, [])
  | .v r val => ({ t with v := t.v.set r val }, [])
  | .k r val => ({ t with k := t.k.set r val }, [])
  | .f r val => ({ t with f := t.f.set r ((val.setWidth 8).setWidth 32) }, [])
  | .lcCount l c => ({ t with lc := t.lc.set l { t.lcr l with count := c } }, [])
  | .lcIndex l i => ({ t with lc := t.lc.set l { t.lcr l with index := i } }, [])
  | .spad addr data =>
    let ds := t.spad.writeDetects addr data.length
    (({ t with spad := t.spad.write addr data }).detect ds, ds)
  | .accStream row z cols =>
    let old := t.accRow row
    let rs := (List.range 128).map fun j => addColumn (old.at_ j) z (cols.getD j ⟨[], false⟩)
    (({ t with acc := t.acc.set row (rs.map Prod.fst) }).flags (ArithFlags.joinAll (rs.map Prod.snd)), [])
  | .accMul row lanes =>
    let old := t.accRow row
    let rs := (List.range 128).map fun j => f32Mul (old.at_ j).bits (lanes.at_ j).bits
    let ls := (List.range 128).map fun j =>
      (⟨(rs.getD j (0, ArithFlags.none)).1, (old.at_ j).poison || (lanes.at_ j).poison⟩ : Gran)
    (({ t with acc := t.acc.set row ls }).flags (ArithFlags.joinAll (rs.map Prod.snd)), [])
  | .accClear row => ({ t with acc := t.acc.set row Lanes.zero }, [])
  | .fillRead _ _ => (t, [])
  | .fillSwitch key sb =>
    ({ t with sb := t.sb.set sb { t.fills.get key {} with filled := true }, fills := t.fills.erase key }, [])
  | .bankWrite words => ({ t with reqW := t.reqW ++ words }, [])

/-- Effects in the order in which they were issued. -/
def Tile.applyAll (t : Tile) (es : List InFlight) : Tile × Detections :=
  es.foldl (fun (acc : Tile × Detections) e =>
    let (t', d) := acc.1.apply e.eff
    (t', acc.2 ++ d)) (t, [])

def Effect.isFillRead : Effect → Bool
  | .fillRead _ _ => true
  | _ => false

/-- Column `j` of a stationary block as a fill reads it (R83, R88). -/
def readColumn (tables : SMap (List Byte)) (sp : Spad) (q : FillReq) (j : Nat) : SbCol × List (Nat × Nat) :=
  let code := fmtCode q.fmt
  if code = 1 ∨ code = 2 then
    let a := (q.e + 256 * j) % spadBytes
    let bs := sp.read a 256
    ({ codes := (List.range 128).map fun k =>
         (leNat ((bs.drop (2 * k)).take 2 |>.map Prod.fst), ((bs.drop (2 * k)).take 2).any Prod.snd),
       scales := [] }, [(a, 256)])
  else
    match bfmt? tables code with
    | none => (⟨[], []⟩, [])
    | some b =>
      let ks := if b.width = 4 then 256 else 128
      let cb := ks * b.width / 8
      let ns := ks / b.block
      let a := (q.e + cb * j) % spadBytes
      let sa := (q.s + ns * j) % spadBytes
      let bs := sp.read a cb
      let packed := leNat (bs.map Prod.fst)
      let codes := unpackNat b.width ks packed
      ({ codes := (List.range ks).map fun k =>
           (codes.getD k 0,
            (((bs.drop (k * b.width / 8)).take ((k * b.width % 8 + b.width + 7) / 8)).any Prod.snd)),
         scales := (sp.read sa ns).map fun x => (x.1.toNat, x.2) }, [(a, cb), (sa, ns)])

/-- Reads a fill's eight columns of this issue cycle: their contents join the block, their words the requests of the
cycle (R88, R105). -/
def Tile.runFillRead (t : Tile) (tables : SMap (List Byte)) (q : FillReq) (i : Nat) : Tile × Detections :=
  let cols := (List.range 8).map fun k => (8 * i + k, readColumn tables t.spad q (8 * i + k))
  let spans := cols.flatMap fun c => c.2.2
  let ds := (spans.flatMap fun x => t.spad.detects x.1 x.2).eraseDups
  let old := t.fills.get q.key {}
  let new : SbBuf := { old with fmt := q.fmt, cols := cols.foldl (fun m c => m.set c.1 c.2.1) old.cols }
  (({ t with fills := t.fills.set q.key new,
             reqR := t.reqR ++ spans.flatMap fun (x : Nat × Nat) => wordsOf x.1 x.2 }).detect ds, ds)

/-- The fill reads that fall in this issue cycle. -/
def Tile.runFills (t : Tile) (tables : SMap (List Byte)) : Tile × Detections :=
  let now := t.flight.filter fun x => decide (x.due = t.cyc) && x.eff.isFillRead
  let rest := t.flight.filter fun x => !(decide (x.due = t.cyc) && x.eff.isFillRead)
  now.foldl (fun (acc : Tile × Detections) x =>
    match x.eff with
    | .fillRead q i =>
      let (t', d) := acc.1.runFillRead tables q i
      (t', acc.2 ++ d)
    | _ => acc) ({ t with flight := rest }, [])

/-- What the next issue cycle issues (R54, R60, R67, R71). TILE_STATUS.HALF shows the old half through the bubble of an
`iswap`: DESIGN CHOICE (log 95). -/
def Tile.moveOn (t : Tile) : Tile :=
  match t.ctl with
  | .seq => { t with pc := t.pc + 1, bubble := false }
  | .jump h target => { t with bubble := true, ctl := .land h target }
  | .land h target => { t with half := h, pc := target, bubble := false, ctl := .seq }
  | .back target => { t with pc := target, bubble := false, ctl := .seq }
  | .stopped => { t with bubble := true }

/-- The next issue cycle begins: effects that fall due become visible, and the sequencer moves (R54, R55). -/
def Tile.advance (t : Tile) : Tile × Detections :=
  let c := t.cyc + 1
  let due := t.flight.filter fun x => decide (x.due ≤ c) && !x.eff.isFillRead
  let rest := t.flight.filter fun x => !(decide (x.due ≤ c) && !x.eff.isFillRead)
  let (t', d) := ({ t with cyc := c, flight := rest, reqR := [], reqW := [], used := [] }).applyAll due
  (t'.moveOn, d)

/-- The end of an issue cycle: the fill reads of the cycle, then a bank-conflict hold (R106), or the next issue cycle. -/
def Tile.endCycle (t : Tile) (tables : SMap (List Byte)) : Tile × Detections :=
  let (t0, d1) := t.runFills tables
  let t1 := (if t0.bubble then t0 else { t0 with lastPc := t0.pc }).endRow
  let stall := stallCycles t1.hash t1.reqR t1.reqW
  if stall = 0 then
    let (t2, d2) := t1.advance
    (t2, d1 ++ d2)
  else ({ t1 with bankHold := stall }, d1)

/-- Whether a slot of the tile's bundle can issue now: an issue cycle of a bundle in which it has not issued (R54, R77). -/
def State.mayIssue (s : State) (n : Nat) (x : BSlot) : Bool := (s.tile n).canIssue && !(s.tile n).used.contains x

/-- The state in which a slot issues. -/
def State.take (s : State) (n : Nat) (x : BSlot) : State := s.modTile n fun t => t.take x

/-- A slot's command acts where the slot can issue; otherwise it does nothing. -/
def State.issue (s : State) (n : Nat) (x : BSlot) (f : Tile → Tile) : State :=
  if s.mayIssue n x then (s.take n x).modTile n f else s

/-- The same for an instruction that also acts beyond its tile. -/
def State.issueS (s : State) (n : Nat) (x : BSlot) (f : Tile → State → State) : State :=
  if s.mayIssue n x then f ((s.take n x).tile n) (s.take n x) else s

/-- The same for an instruction that some operands stop (R5). -/
def State.issueR (s : State) (n : Nat) (x : BSlot) (f : Tile → State → Res) : Res :=
  if s.mayIssue n x then f ((s.take n x).tile n) (s.take n x) else .next s

/-- The draws of a tile's roundings (R38). -/
def State.draws (s : State) (n : Nat) : Draws :=
  { seed := s.seed, unit := (s.logicalOf n).getD 0, step := s.step }

end Sys2Proof.Machine
end

