-- ==== Sys2Proof/Machine/Hbm.lean ====
section
/-! DEFINITION. HBM: the segment map, and reads and writes of 64-byte units with their poison (R119, R291 to R301, R313). -/

namespace Sys2Proof.Machine

open Sys2Proof

/-! ### Depots and hbmStacks -/

def State.depot (s : State) (d : Nat) : Depot := s.depots.get d {}

def State.modDepot (s : State) (d : Nat) (f : Depot → Depot) : State :=
  { s with depots := s.depots.set d (f (s.depot d)) }

def Depot.stack (d : Depot) (k : Nat) : Stack := d.hbmStacks.get k {}

def State.modStack (s : State) (d k : Nat) (f : Stack → Stack) : State :=
  s.modDepot d fun x => { x with hbmStacks := x.hbmStacks.set k (f (x.stack k)) }

/-! ### The segment map (R291, R292) -/

/-- The size of the HBM offset space. -/
def hbmSpace : Nat := 2 ^ 41

def State.mapEntry (s : State) (seg : Nat) : W64 := s.hbm.map.get seg 0

/-- STATE, WP and GROUP of an entry. -/
def entState (e : W64) : Nat := e.toNat / 2 ^ 62
def entWp (e : W64) : Bool := e.toNat / 2 ^ 61 % 2 = 1
def entGroup (e : W64) : Nat := e.toNat / 2 ^ 48 % 4096

/-- Whether the segment is served: STATE 1 or 2. -/
def entMapped (e : W64) : Bool := decide (entState e = 1) || decide (entState e = 2)

/-- The row that serves the segment, and the destination of its migration. -/
def entRow (e : W64) : HRow := ⟨e.toNat / 2 ^ 18 % 8, e.toNat / 2 ^ 13 % 32, e.toNat % 8192⟩
def entDst (e : W64) : HRow := ⟨e.toNat / 2 ^ 40 % 8, e.toNat / 2 ^ 35 % 32, e.toNat / 2 ^ 22 % 8192⟩

/-- A row as an index over the package, and a unit of it. -/
def rowKey (d : Nat) (r : HRow) : Nat := ((d * 5 + r.stack) * 32 + r.chan) * 4291 + r.row
def unitKey (d : Nat) (r : HRow) (u : Nat) : Nat := rowKey d r * 8192 + u

/-- The place that ERR_ADDR and a detection record (R313). -/
def errPlace (r : HRow) (u : Nat) : Nat := r.stack * 2 ^ 40 + r.chan * 2 ^ 35 + r.row * 2 ^ 22 + u

/-! ### Detections (R296, R298, R313) -/

/-- A migration is requested, unless one runs or waits already (R293, R301). -/
def State.wantMigration (s : State) (seg : Nat) : State :=
  if entState (s.mapEntry seg) = 2 ∨ seg ∈ s.hbm.migQueue then s
  else { s with hbm := { s.hbm with migQueue := s.hbm.migQueue ++ [seg] } }

/-- An uncorrectable unit is read: counted, recorded, and a migration follows; `marks` says that the step is marked. -/
def State.ueDetect (s : State) (seg : Nat) (r : HRow) (u : Nat) (marks : Bool) : State :=
  let d := seg % 4
  let s1 := s.modDepot d fun x =>
    { x with
      errAddrValid := true,
      errAddr := if x.err.hbmUe then x.errAddr else BitVec.ofNat 64 (errPlace r u),
      err := { x.err with hbmUe := true },
      hbmStacks := x.hbmStacks.set r.stack { x.stack r.stack with ue := (x.stack r.stack).ue + 1 } }
  let s2 := if marks then s1.mark (.hbm d r.stack r.chan r.row u) else s1
  s2.wantMigration seg

/-- 24 hours, in 1/256 ns of GTC. -/
def dayTicks : Nat := 86400 * 10 ^ 9 * 256

/-- A unit is corrected: counted, and the sixteenth of the segment within 24 hours brings a migration. -/
def State.ceCount (s : State) (seg : Nat) (r : HRow) : State :=
  let d := seg % 4
  let now := s.clock.gtc
  let times := ((s.hbm.corrected.get seg []).filter fun t => decide (now - t < dayTicks)) ++ [now]
  let s1 := s.modDepot d fun x =>
    { x with
      err := { x.err with hbmCe := true },
      hbmStacks := x.hbmStacks.set r.stack { x.stack r.stack with ce := (x.stack r.stack).ce + 1 } }
  let s2 := { s1 with hbm := { s1.hbm with corrected := s1.hbm.corrected.set seg times } }
  if 16 ≤ times.length then s2.wantMigration seg else s2

/-- What a read of a unit finds of its code: the detection or the correction. -/
def State.codeCheck (s : State) (seg : Nat) (r : HRow) (u : Nat) (marks : Bool) : State :=
  let k := unitKey (seg % 4) r u
  if s.hbm.ue.has k then s.ueDetect seg r u marks
  else if s.hbm.ce.has k then s.ceCount seg r
  else s

/-! ### Units -/

/-- The stored bytes of a unit. -/
def Hbm.unitBytes (h : Hbm) (k : Nat) : List Byte := (List.range 64).map fun i => Memory.get h.bytes (64 * k + i)

/-- Whether a unit reads as poisoned: stored so, or uncorrectable. -/
def Hbm.unitPoison (h : Hbm) (k : Nat) : Bool := h.poison.has k || h.ue.has k

/-- A unit of the offset space: its segment and its number in it. -/
def segOf (unit : Nat) : Nat := unit / 8192 % 4194304
def unitIn (unit : Nat) : Nat := unit % 8192

/-- The value of a unit as a reader gets it: zeros where the segment is unmapped (R294). -/
def State.unitValue (s : State) (unit : Nat) : Unit64 :=
  let seg := segOf unit
  let e := s.mapEntry seg
  if entMapped e then
    let k := unitKey (seg % 4) (entRow e) (unitIn unit)
    ⟨s.hbm.unitBytes k, s.hbm.unitPoison k⟩
  else ⟨List.replicate 64 0, false⟩

/-- The detection or correction that reading a unit brings. -/
def State.touchUnit (s : State) (unit : Nat) (marks : Bool) : State :=
  let seg := segOf unit
  let e := s.mapEntry seg
  if entMapped e then s.codeCheck seg (entRow e) (unitIn unit) marks else s

/-- Bytes written into a stored unit: from byte `lo`, with the poison of the data. A part write merges, and stays poisoned
where the unit was or could not be corrected (R297). -/
def Hbm.writeUnit (h : Hbm) (k lo : Nat) (bs : List Byte) (p : Bool) : Hbm :=
  let full := decide (lo = 0) && decide (bs.length = 64)
  let keep := if full then false else h.unitPoison k
  { h with
    bytes := (List.range bs.length).foldl (fun m i => Memory.put m (64 * k + lo + i) (bs.getD i 0)) h.bytes,
    poison := h.poison.mark k (p || keep), ue := h.ue.mark k false, ce := h.ce.mark k false }

/-- A write of part of a unit at its place, and at the destination too while the segment migrates (R300). -/
def State.storeUnit (s : State) (unit lo : Nat) (bs : List (Byte × Bool)) : State :=
  let seg := segOf unit
  let e := s.mapEntry seg
  let d := seg % 4
  let k := unitKey d (entRow e) (unitIn unit)
  let p := bs.any Prod.snd
  let data := bs.map Prod.fst
  let s1 := if lo = 0 ∧ bs.length = 64 then s else s.codeCheck seg (entRow e) (unitIn unit) true
  let h1 := s1.hbm.writeUnit k lo data p
  { s1 with hbm := if entState e = 2 then h1.writeUnit (unitKey d (entDst e) (unitIn unit)) lo data p else h1 }

/-! ### Spans -/

/-- The units that a span touches: unit number, first byte in it, number of bytes. -/
def unitSpan (off len : Nat) : List (Nat × Nat × Nat) :=
  if len = 0 then [] else
    (List.range ((off % 64 + len + 63) / 64)).map fun k =>
      let lo := if k = 0 then off % 64 else 0
      let stop := Min.min 64 (off % 64 + len - 64 * k)
      ((off / 64 + k) % (hbmSpace / 64), lo, stop - lo)

/-- The segments of a span that are not mapped, and those that are protected. -/
def State.unmappedIn (s : State) (off len : Nat) : List Nat :=
  (((unitSpan off len).map fun u => segOf u.1).eraseDups).filter fun g => !entMapped (s.mapEntry g)

def State.protectedIn (s : State) (off len : Nat) : List Nat :=
  (((unitSpan off len).map fun u => segOf u.1).eraseDups).filter fun g =>
    entMapped (s.mapEntry g) && entWp (s.mapEntry g)

/-- An access that touched unmapped segments counts once for each (R294). -/
def State.countUnmapped (s : State) (segs : List Nat) : State :=
  segs.foldl (fun s g => s.modDepot (g % 4) fun d =>
    { d with unmapped := d.unmapped + 1, err := { d.err with unmapped := true } }) s

def State.countWp (s : State) (segs : List Nat) : State :=
  segs.foldl (fun s g => s.modDepot (g % 4) fun d =>
    { d with wpDiscards := d.wpDiscards + 1, err := { d.err with wpDiscard := true } }) s

/-- The bytes of a span of HBM, each with the poison of its unit (R119). -/
def State.hbmBytes (s : State) (off len : Nat) : List (Byte × Bool) :=
  (unitSpan off len).flatMap fun u =>
    let v := s.unitValue u.1
    ((v.bytes.drop u.2.1).take u.2.2).map fun b => (b, v.poison)

/-- The state after a read of a span: detections, corrections and unmapped accesses. -/
def State.hbmTouch (s : State) (off len : Nat) (marks : Bool) : State :=
  ((unitSpan off len).foldl (fun s u => s.touchUnit u.1 marks) s).countUnmapped (s.unmappedIn off len)

/-- A write of a span. Unmapped segments discard it; so do protected ones, unless `wp` is false (R294). -/
def State.hbmWrite (s : State) (off : Nat) (data : List (Byte × Bool)) (wp : Bool) : State :=
  let step (acc : State × List (Byte × Bool)) (u : Nat × Nat × Nat) : State × List (Byte × Bool) :=
    let e := s.mapEntry (segOf u.1)
    let part := acc.2.take u.2.2
    (if entMapped e && !(wp && entWp e) then acc.1.storeUnit u.1 u.2.1 part else acc.1, acc.2.drop u.2.2)
  let s1 := ((unitSpan off data.length).foldl step (s, data)).1
  (s1.countUnmapped (s.unmappedIn off data.length)).countWp
    (if wp then s.protectedIn off data.length else [])

/-- Whole units as bytes with poison, and bytes as units of 64. -/
def unitsBytes (l : List Unit64) : List (Byte × Bool) := l.flatMap fun u => u.bytes.map fun b => (b, u.poison)

def bytesUnits : Nat → List (Byte × Bool) → List Unit64
  | 0, _ => []
  | n + 1, l => ⟨(l.take 64).map Prod.fst, (l.take 64).any Prod.snd⟩ :: bytesUnits n (l.drop 64)

/-- The bytes of granules as units of 64. -/
def gransUnits (l : List Gran) : List Unit64 := bytesUnits ((l.length + 15) / 16) (gransBytes l)

/-! ### Spare pools (R295) -/

/-- Rows of a channel's pool that may still be taken. -/
def Hbm.poolLeft (h : Hbm) (d stack chan : Nat) : List Nat :=
  ((List.range 86).map (· + 4205)).filter fun r =>
    !(h.taken.has (rowKey d ⟨stack, chan, r⟩) || h.retired.has (rowKey d ⟨stack, chan, r⟩))

/-- Rows left in a stack's 32 pools (R314). -/
def Hbm.spares (h : Hbm) (d stack : Nat) : Nat :=
  ((List.range 32).map fun c => (h.poolLeft d stack c).length).foldl (· + ·) 0

/-- The destination of a migration in a depot: the channel with the most rows left, lowest stack and channel on a tie, and
its lowest row (R300). -/
def Hbm.pickSpare (h : Hbm) (d : Nat) : Option HRow :=
  let chans := (List.range 160).map fun i => (i / 32, i % 32, h.poolLeft d (i / 32) (i % 32))
  let best := chans.foldl (fun (acc : Option (Nat × Nat × List Nat)) c =>
    match acc with
    | none => if c.2.2 = [] then none else some c
    | some a => if a.2.2.length < c.2.2.length then some c else some a) none
  match best with
  | some (st, ch, r :: _) => some ⟨st, ch, r⟩
  | _ => none

/-- Entries of a slice with STATE 1 or 2 (R314). -/
def State.mappedIn (s : State) (d : Nat) : Nat :=
  (s.hbm.map.filter fun x => decide (x.1 % 4 = d) && entMapped x.2).length

end Sys2Proof.Machine
end

