-- ==== Sys2Proof/Machine/ControlRead.lean ====
section
/-! DEFINITION. Control space as its readers see it (R480 to R488): the aligned 8-byte word at an offset, window by window.
A register's layout is that of the rule named beside it. -/

namespace Sys2Proof

/-- A ledger entry as four words (R373). -/
def LedgerEntry.words (e : LedgerEntry) : List W64 :=
  [e.stamp, BitVec.ofNat 64 (e.cls * 2 ^ 56 + e.state * 2 ^ 48 + e.position * 2 ^ 32), e.step, e.place]

end Sys2Proof

namespace Sys2Proof.Machine

open Sys2Proof

/-! ### Words -/

/-- A flag as a number. -/
def bitAt (b : Bool) (k : Nat) : Nat := if b then 2 ^ k else 0

/-- An 8-byte word from its two halves. -/
def halves (lo hi : Nat) : Nat := lo % 2 ^ 32 + 2 ^ 32 * (hi % 2 ^ 32)

/-- A signed number in `w` bits. -/
def twos (w : Nat) (i : Int) : Nat := (i % ((2 ^ w : Nat) : Int)).toNat

/-- The 8-byte word at an offset of a register held as bytes, zero beyond its end. -/
def bytesWord (b : List Byte) (off : Nat) : Nat := leAt b off 8

/-! ### Tiles (R50, R51, R80, R81, R139 to R143, R170 to R176, R206) -/

/-- TILE_STATUS.STATE (R80). -/
def Tile.stateCode (t : Tile) : Nat :=
  match t.st with
  | .idle => 0
  | .run => if decide (0 < t.bankHold) || t.bHold || t.syHold then 2 else 1
  | .hold => 2
  | .done => 3
  | .fault => 4

def Tile.statusWord (t : Tile) : Nat :=
  bitAt t.shown.ctrlPoison 23 + bitAt t.shown.imemParity 22 + t.stateCode * 2 ^ 19 + bitAt t.half 18 + t.lastPc.toNat

def Tile.spadErrWord (t : Tile) : Nat := bitAt t.shown.spadPoisonIn 1 + bitAt t.shown.spadParity 0

def Tile.engWord (t : Tile) : Nat :=
  t.stq.length * 2 ^ 20 + t.ldq.length * 2 ^ 10 + bitAt t.shown.engBadDesc 8 + bitAt t.shown.engQovf 7 + bitAt t.shown.engNoRoute 6
    + bitAt t.shown.engCtrlDiscard 5 + bitAt t.shown.engForeign 4 + bitAt t.shown.engLengthClamp 3 + bitAt t.shown.engMisalign 2
    + bitAt t.shown.engStray 1

def Tile.syncWord (t : Tile) : Nat :=
  bitAt t.shown.syncNoRoute 6 + bitAt t.shown.syncReaderGone 5 + bitAt t.shown.syncSemUnf 4 + bitAt t.shown.syncSemOvf 3
    + bitAt t.shown.syncWdogToll 2 + bitAt t.shown.syncWdogSy 1

def Sem.word (m : Sem) : Nat := bitAt m.unf 17 + bitAt m.ovf 16 + m.value

def BPort.cfgWord (b : BPort) : Nat := bitAt b.valid 63 + b.chip * 2 ^ 32 + b.index
def BPort.stateWord (b : BPort) : Nat := b.rel.toNat * 16 + b.next.toNat * 4 + b.tag.toNat

def Chan.cfgWord (c : Chan) : Nat :=
  bitAt c.valid 63 + c.src * 2 ^ 61 + c.size * 2 ^ 21 + c.base
def Chan.stateWord (c : Chan) : Nat :=
  c.expSeq.toNat * 2 ^ 48 + bitAt c.seqGap 34 + bitAt c.staged.isSome 33 + c.rdPos

def OPort.cfgWord (o : OPort) : Nat :=
  bitAt o.valid 63 + o.chip * 2 ^ 42 + o.tile * 2 ^ 34 + o.ch * 2 ^ 30 + o.size * 2 ^ 17 + o.toll * 2 ^ 11
def OPort.stateWord (o : OPort) : Nat :=
  o.seq.toNat * 2 ^ 48 + bitAt o.broken 13 + bitAt o.readerGone 12 + o.wrPos

/-- G_POISON (R81). -/
def Tile.poisonWord (t : Tile) : Nat :=
  (List.range 32).foldl (fun acc i => acc + bitAt (t.gp (BitVec.ofNat 5 i)) i) 0

/-- The word at an offset of a tile's window. -/
def Tile.word (t : Tile) (formats : SMap (List Byte)) (o : Nat) : Nat :=
  if o = 0x000 then t.statusWord
  else if o = 0x800 then t.shown.arith.word
  else if o = 0x900 then halves t.hash t.spadErrWord
  else if o = 0x908 then bitAt t.errAddrValid 63 + t.errAddr
  else if o = 0x910 then t.engWord
  else if o = 0x920 then t.parityCount.toNat
  else if o = 0x928 then t.ldDone.toNat
  else if o = 0x930 then t.stDone.toNat
  else if o = 0x938 then t.ldBytes.toNat
  else if o = 0x940 then t.stBytes.toNat
  else if o = 0x948 then t.strayRows.toNat
  else if o = 0x950 then t.tollWait.toNat
  else if o = 0x958 then t.inboundBytes.toNat
  else if o = 0xA00 then t.syncWord
  else if o = 0xA08 then t.wdogLimit.toNat
  else if o = 0xB00 then t.cyc % 2 ^ 64
  else if o = 0xB08 then t.holdBank.toNat
  else if o = 0xB10 then t.holdWait.toNat
  else if o = 0xB18 then t.holdBoundary.toNat
  else if o = 0xB20 then t.slipStep.toNat
  else if 0x1000 ≤ o ∧ o < 0x1100 then (t.gv (BitVec.ofNat 5 ((o - 0x1000) / 8))).toNat
  else if o = 0x1100 then t.poisonWord
  else if 0x1200 ≤ o ∧ o < 0x1220 then
    let l := t.lcr ((o - 0x1200) / 8)
    halves l.count.toNat l.index.toNat
  else if 0x1400 ≤ o ∧ o < 0x1480 then
    halves (t.fr (BitVec.ofNat 5 ((o - 0x1400) / 4))).toNat (t.fr (BitVec.ofNat 5 ((o - 0x1400) / 4 + 1))).toNat
  else if 0x1800 ≤ o ∧ o < 0x1880 then (t.kr ((o - 0x1800) / 16)).toNat / 2 ^ (8 * (o % 16)) % 2 ^ 64
  else if 0x2000 ≤ o ∧ o < 0x2100 then
    halves (t.sem ((o - 0x2000) / 4)).word (t.sem ((o - 0x2000) / 4 + 1)).word
  else if 0x2200 ≤ o ∧ o < 0x2280 then
    let b := t.bp.get ((o - 0x2200) / 16) {}
    if o % 16 = 0 then b.cfgWord else b.stateWord
  else if 0x2400 ≤ o ∧ o < 0x2800 then
    let c := t.ch.get ((o - 0x2400) / 64) {}
    match o % 64 with
    | 0x00 => c.cfgWord
    | 0x08 => c.stateWord
    | 0x10 => c.delivered.toNat
    | 0x18 => c.received.toNat
    | 0x20 => c.recvStall.toNat
    | 0x28 => c.duplicates.toNat
    | _ => 0
  else if 0x2800 ≤ o ∧ o < 0x2C00 then
    let p := t.oc.get ((o - 0x2800) / 64) {}
    match o % 64 with
    | 0x00 => p.cfgWord
    | 0x08 => p.stateWord
    | 0x10 => p.sent.toNat
    | 0x18 => p.discarded.toNat
    | 0x20 => p.stall.toNat
    | _ => 0
  else if 0x1_0000 ≤ o ∧ o < 0x1_4000 then
    let v := t.vr (BitVec.ofNat 5 ((o - 0x1_0000) / 0x200))
    halves (v.at_ (o % 0x200 / 4)).bits.toNat (v.at_ (o % 0x200 / 4 + 1)).bits.toNat
  else if 0x4_0000 ≤ o ∧ o < 0x5_0000 then
    bytesWord ((formats.get (16 + (o - 0x4_0000) / 0x1000) []).take 2064) (o % 0x1000)
  else if 0x6_0000 ≤ o ∧ o < 0x8_0000 then
    bytesWord ((t.curve ((o - 0x6_0000) / 0x2000)).take 4112) (o % 0x2000)
  else if 0x8_0000 ≤ o ∧ o < 0xE_0000 then
    (t.imem.get ((o - 0x8_0000) / 48) 0).toNat / 2 ^ (8 * ((o - 0x8_0000) % 48)) % 2 ^ 64
  else 0

/-! ### Global semaphores (R145, R177) -/

def GsMode.code : GsMode → Nat
  | .unused => 0
  | .counter => 1
  | .belay => 2

def GSem.cfgWord (g : GSem) : Nat :=
  g.mode.code * 2 ^ 62 +
    (match g.parent with
     | some (c, i) => 2 ^ 61 + c * 2 ^ 41 + i * 2 ^ 29
     | none => 0) + g.count

def GSem.stateWord (g : GSem) : Nat :=
  bitAt g.overrun 35 + bitAt g.ovf 34 + bitAt g.unf 33 + bitAt g.fwd 32 + g.gen.toNat * 2 ^ 30 + g.nxt * 2 ^ 16 + g.value

def State.gsem (s : State) (i : Nat) : GSem := s.gs.get i {}

/-- The word at an offset of the semaphore windows of the holder whose first semaphore is `first`. -/
def State.gsWord (s : State) (first count o : Nat) : Nat :=
  if o / 16 < count then
    let g := s.gsem (first + o / 16)
    if o % 16 = 0 then g.cfgWord else g.stateWord
  else 0

/-! ### Depots (R310 to R314, R333 to R335) -/

def Depot.stackUp (d : Depot) : Nat :=
  (List.range 5).foldl (fun acc k => acc + bitAt (d.stack k).up k) 0

def Depot.statusWord (d : Depot) : Nat :=
  d.modules * 2 ^ 16 + ((List.range 5).filter fun k => (d.stack k).mig.isSome).length * 2 ^ 8 + d.stackUp

def DepotErr.word (e : DepotErr) : Nat :=
  bitAt e.spareExhausted 7 + bitAt e.d2dPoison 6 + bitAt e.d2dModuleLost 5 + bitAt e.wpDiscard 4 + bitAt e.unmapped 3
    + bitAt e.hbmUe 1 + bitAt e.hbmCe 0

/-- Bytes of one slot of a SUM descriptor (R304). -/
def RedDesc.slotBytes (r : RedDesc) : Nat :=
  let e := 32 * r.e32
  let w := if r.fmt = 1 then 2 else 4
  let l := if r.localC = 0xFFFF then 0 else 1
  e * 4 + (r.n - 1 - l) * e * w

/-- RED_BYTES of a depot (R310). -/
def State.redBytes (s : State) (d : Nat) : Nat :=
  ((s.reds.filter fun r => decide (r.role = 0) && decide (r.depot = d)).map fun r => r.slots * r.slotBytes).foldl (· + ·) 0

/-- A group entry as eight words (R318). -/
def UpdGroup.words (g : UpdGroup) : List W32 := [g.lr, g.beta1, g.beta2, g.eps, g.wd, g.clip, g.t0, g.sched]

/-- The blocks of an update unit that wait in its input buffer, and whether one is in progress (R334). -/
def UpdUnit.waiting (u : UpdUnit) : List UBlock := u.queue.filter fun b => !b.written
def UpdUnit.active (u : UpdUnit) : List UBlock := u.queue.filter fun b => b.written

def UpdUnit.statusWord (u : UpdUnit) : Nat :=
  u.waiting.length * 2 ^ 9 + bitAt (u.active.any UBlock.replay) 8 + bitAt u.cairnHold 7 + bitAt (u.active.length != 0) 6

def State.depotWord (s : State) (d o : Nat) : Nat :=
  let x := s.depot d
  if o = 0x000 then x.statusWord
  else if o = 0x008 then x.err.word
  else if o = 0x010 then x.arith.word
  else if o = 0x018 then bitAt x.errAddrValid 63 + x.errAddr.toNat
  else if o = 0x020 then 2 ^ 24 + s.mappedIn d
  else if o = 0x100 then x.unmapped.toNat
  else if o = 0x108 then x.wpDiscards.toNat
  else if o = 0x110 then x.redBlocks.toNat
  else if o = 0x118 then s.redBytes d
  else if o = 0x120 then x.d2dRetries.toNat
  else if o = 0x128 then x.d2dPoisonCount.toNat
  else if 0x1000 ≤ o ∧ o < 0x1500 then
    let k := (o - 0x1000) / 0x100
    let y := x.stack k
    match o % 0x100 with
    | 0x00 => y.temp * 2 ^ 16 + s.hbm.spares d k * 2 ^ 4 + bitAt y.mig.isSome 3 + bitAt y.hot 2 + bitAt y.up 0
    | 0x08 => y.ce.toNat
    | 0x10 => y.ue.toNat
    | 0x18 => y.scrubs.toNat
    | 0x20 => y.migrations.toNat
    | 0x28 => y.refreshWait.toNat
    | 0x30 => match y.mig with
      | some m => 2 ^ 63 + m.seg
      | none => 0
    | 0x38 => match y.mig with
      | some m => m.units
      | none => 0
    | _ => 0
  else if 0x2000 ≤ o ∧ o < 0x2500 then
    let u := (x.stack ((o - 0x2000) / 0x100)).upd
    match o % 0x100 with
    | 0x00 => u.statusWord
    | 0x08 => u.blocks.toNat
    | 0x10 => u.params.toNat
    | 0x18 => u.replayed.toNat
    | 0x20 => u.cairnWait.toNat
    | 0x28 => u.busy.toNat
    | 0x30 => u.last.toNat
    | _ => 0
  else if o = 0x2800 then bitAt x.updTSat 1 + bitAt x.updBadGroup 0
  else if o = 0x2808 then x.badGroupCount.toNat
  else if 0x80_0000 ≤ o ∧ o < 0x80_3000 then s.gsWord (768 * d) 768 (o - 0x80_0000)
  else if 0x100_0000 ≤ o ∧ o < 0x180_0000 then (s.mapEntry (4 * ((o - 0x100_0000) / 8) + d)).toNat
  else if 0x200_0000 ≤ o ∧ o < 0x202_0000 then
    match s.groups[(o - 0x200_0000) / 32]? with
    | some g => halves (g.words.getD (o % 32 / 4) 0).toNat (g.words.getD (o % 32 / 4 + 1) 0).toNat
    | none => 0
  else if 0x202_0000 ≤ o ∧ o < 0x204_0000 then
    bytesWord ((s.scheds.getD ((o - 0x202_0000) / 0x2000) []).take 4112) (o % 0x2000)
  else 0

/-! ### Caravan (R285 to R290) -/

def PortSt.code : PortSt → Nat
  | .down => 0
  | .train => 1
  | .caps => 2
  | .align => 3
  | .up => 4
  | .failed => 5

def State.port (s : State) (p : Nat) : CvPort := s.ports.get p {}

def State.modPort (s : State) (p : Nat) (f : CvPort → CvPort) : State :=
  { s with ports := s.ports.set p (f (s.port p)) }

def CvPort.cfgWord (p : CvPort) : Nat := bitAt p.enable 8 + p.wdogLog2.toNat

def CvPort.statusWord (p : CvPort) : Nat :=
  p.alt * 2 ^ 24 + p.tbl * 2 ^ 22 + bitAt p.open_ 21 + p.retry.length * 2 ^ 9 + p.st.code

def CvPort.errWord (p : CvPort) : Nat :=
  bitAt p.errBufEcc 6 + bitAt p.errLaneFail 5 + bitAt p.errRetryLimit 4 + bitAt p.errWdog 3 + bitAt p.errCable 2
    + bitAt p.errCap 1 + bitAt p.errImage 0

def State.cvPortWord (s : State) (p o : Nat) : Nat :=
  let x := s.port p
  if o = 0x00 then halves x.cfgWord x.statusWord
  else if o = 0x08 then x.errWord
  else if o = 0x10 then
    x.pVersion * 2 ^ 56 + x.pPort * 2 ^ 52 + x.pRole * 2 ^ 50 + x.pId * 2 ^ 32 + leAt x.pImageTag 0 4
  else if o = 0x18 then x.rtt
  else if 0x100 ≤ o ∧ o < 0x188 then (x.counters.get o 0).toNat
  else 0

def CvChip.tableWord (c : CvChip) : Nat :=
  c.alt * 2 ^ 24 + c.tbl * 2 ^ 22 + bitAt c.open_ 21 +
    (match c.pending with
     | some r => 2 ^ 20 + r.alt * 2 ^ 12 + bitAt r.flush 11
     | none => 0) + bitAt c.late 10 + c.epoch

def State.cvChipWord (s : State) (o : Nat) : Nat :=
  if o = 0x00 then s.cv.slotCount % 2 ^ 64
  else if o = 0x08 then s.cv.tableWord
  else if o = 0x10 then s.cv.switchAt.toNat
  else 0

/-! ### Host ports (R445 to R447) -/

def State.hport (s : State) (h : Nat) : HPort := s.hports.get h {}

def State.modHport (s : State) (h : Nat) (f : HPort → HPort) : State :=
  { s with hports := s.hports.set h (f (s.hport h)) }

def HPort.cfgWord (p : HPort) : Nat :=
  bitAt p.enable 31 + p.speed * 2 ^ 28 + bitAt p.macsec 27 + p.rocePrio.toNat * 2 ^ 24 + p.tetherPrio.toNat * 2 ^ 21
    + bitAt p.pfc 20

def HPort.statusWord (p : HPort) (h : Nat) : Nat :=
  p.speedNow * 2 ^ 29 + bitAt p.up 28 + p.gaddrs.length * 2 ^ 25 + bitAt (decide (4 ≤ h)) 24

def HPort.errWord (p : HPort) : Nat :=
  bitAt p.errQp 4 + bitAt p.errMacsec 3 + bitAt p.errAuth 2 + bitAt p.errFec 1 + bitAt p.errDown 0

def State.hportWord (s : State) (h o : Nat) : Nat :=
  let p := s.hport h
  if o = 0x00 then halves p.cfgWord (p.statusWord h)
  else if o = 0x08 then p.errWord
  else if o = 0x10 then (s.fuses.macBase.toNat + h) % 2 ^ 48
  else if 0x100 ≤ o ∧ o < 0x178 then (p.counters.get o 0).toNat
  else 0

/-! ### Clock, reset and power (R242 to R247, R404 to R408, R478, R479, R504) -/

/-- The frequencies of the operating points, in MHz (R390): row, depot. -/
def opMhz : Nat → Nat × Nat
  | 0 => (1700, 1600)
  | 1 => (1550, 1450)
  | 2 => (1400, 1300)
  | 3 => (1250, 1150)
  | 4 => (1100, 1000)
  | 5 => (950, 850)
  | 6 => (800, 700)
  | _ => (600, 600)

/-- The set voltages and the droop threshold of a point (R391). -/
def State.setCore (s : State) (p : Nat) : Nat :=
  s.fuses.vnomCore.getD p 0 + s.power.wearCore.get p 0 + s.fuses.guardCore.getD p 0
def State.setDep (s : State) (p : Nat) : Nat :=
  s.fuses.vnomDep.getD p 0 + s.power.wearDep.get p 0 + s.fuses.guardDep.getD p 0
def State.droopCore (s : State) (p : Nat) : Nat := s.fuses.vnomCore.getD p 0 + s.power.wearCore.get p 0

/-- The eight words of OP_ENTRYp (R407). -/
def State.opEntry (s : State) (p : Nat) : List Nat :=
  [(opMhz p).1 * 65536 + (opMhz p).2,
   s.fuses.vnomCore.getD p 0 * 65536 + s.fuses.vnomDep.getD p 0,
   s.power.wearCore.get p 0 * 65536 + s.power.wearDep.get p 0,
   s.fuses.guardCore.getD p 0 * 65536 + s.fuses.guardDep.getD p 0,
   s.setCore p * 65536 + s.setDep p,
   s.droopCore p * 65536,
   s.fuses.sensCore.getD p 0 % 256 * 2 ^ 24 + s.fuses.sensDep.getD p 0 % 256 * 2 ^ 16
     + bitAt (s.power.retired.getLsbD p) 0,
   0]

def Clock.statusWord (c : Clock) : Nat :=
  c.parentPort.toNat * 2 ^ 12 + c.hops % 128 * 2 ^ 5 + bitAt c.stepped 4 + bitAt c.parentLost 3 + bitAt c.hasParent 2
    + bitAt c.root 1 + bitAt c.settled 0

def Clock.refWord (c : Clock) : Nat :=
  bitAt c.bLost 5 + bitAt c.aLost 4 + bitAt c.holdover 3 + bitAt c.bOk 2 + bitAt c.aOk 1 + bitAt c.active 0

def Clock.freqWord (c : Clock) : Nat :=
  bitAt c.freqLate 8 + bitAt c.freqPending 7 + c.pendOp * 16 + c.curOp

/-- GTC in whole nanoseconds (R224). -/
def Clock.ns (c : Clock) : Nat := c.gtc / 256 % 2 ^ 64

def BQueue.full (q : BQueue) : Nat := (q.slots.filter fun x => x.2.full).length

def Power.cfgWord (p : Power) : Nat := p.hbmThrottleC.toNat * 2 ^ 24 + p.throttleC.toNat * 2 ^ 16 + p.capOp.toNat
def Power.statusWord (p : Power) : Nat := p.conditions.toNat * 2 ^ 8 + p.thermal * 8 + p.ceiling
def Power.errWord (p : Power) : Nat := bitAt p.avsTimeout 2 + bitAt p.regFault 1 + bitAt p.vlate 0
def Power.wearWord (p : Power) : Nat :=
  bitAt p.replanning 3 + bitAt p.worn 2 + bitAt p.fresh 1 + bitAt p.ledgerOk 0

def ResetUnit.causeWord (r : ResetUnit) : Nat := bitAt r.cold 8 + r.cause.toNat
def ResetUnit.blockWord (r : ResetUnit) : Nat := r.brKind.toNat * 2 ^ 28 + r.brIndex.toNat * 2 ^ 20 + r.timeoutUs.toNat
def ResetUnit.statusWord (r : ResetUnit) : Nat :=
  r.lastKind.toNat * 2 ^ 13 + r.lastIndex.toNat * 2 ^ 5 + bitAt r.timedOut 1 + bitAt r.busy.isSome 0

/-- SIDEBAND with the pins as they read now, and PKG_STATUS (R504). -/
def State.sidebandWord (s : State) : Nat :=
  s.pkg.gpioOe.toNat * 2 ^ 24 + s.pkg.gpioOut.toNat * 2 ^ 16 + (Config.gpioIn s.freeCtr).toNat * 2 ^ 8
    + bitAt s.pkg.alert 1 + bitAt s.pkg.fault 0
def Package.statusWord (p : Package) : Nat :=
  p.smba.toNat * 2 ^ 5 + bitAt p.testmode 4 + p.tripSrc.toNat * 4 + bitAt p.tripLast 1

def State.clockWord (s : State) (o : Nat) : Nat :=
  if o = 0x00 then s.clock.ns
  else if o = 0x08 then s.clock.gtcFrac.toNat
  else if o = 0x10 then s.clock.statusWord
  else if o = 0x18 then twos 64 s.clock.offset
  else if o = 0x20 then twos 32 s.clock.trim
  else if o = 0x40 then halves (bitAt s.clock.prefer 0) s.clock.refWord
  else if o = 0x48 then s.clock.refSwitches.toNat
  else if o = 0x60 then s.clock.freqWord
  else if o = 0x68 then s.clock.freqAt.toNat
  else if 0x100 ≤ o ∧ o < 0x200 then
    let r := s.row ((o - 0x100) / 0x20)
    match o % 0x20 with
    | 0x00 => bitAt r.denied 4 + r.op
    | 0x08 => r.stretches.toNat
    | 0x10 => r.stretchDenied.toNat
    | _ => 0
  else if 0x200 ≤ o ∧ o < 0x3C0 then
    let q := s.bqs.get ((o - 0x200) / 0x20) {}
    match o % 0x20 with
    | 0x00 => bitAt q.stuck 16 + q.full * 2 ^ 8 + q.maxDepth
    | 0x08 => q.entries.toNat
    | 0x10 => q.holdEmpty.toNat
    | 0x18 => q.holdFull.toNat
    | _ => 0
  else if o = 0x1000 then halves s.power.cfgWord s.power.statusWord
  else if o = 0x1008 then s.power.errWord
  else if o = 0x1010 then s.power.throttles.toNat
  else if o = 0x1018 then s.power.marginEvents.toNat
  else if 0x1020 ≤ o ∧ o < 0x10A0 then
    let r := s.row ((o - 0x1020) / 0x10)
    if o % 0x10 = 0 then r.tokenOver.toNat else r.tokenMax.toNat
  else if 0x2000 ≤ o ∧ o < 0x2100 then
    let w := s.opEntry ((o - 0x2000) / 0x20)
    halves (w.getD (o % 0x20 / 4) 0) (w.getD (o % 0x20 / 4 + 1) 0)
  else if o = 0x3000 then s.power.wearWord
  else if o = 0x3008 then s.power.hours.toNat
  else if o = 0x3010 then s.power.ledgerSeq.toNat
  else if 0x3100 ≤ o ∧ o < 0x3340 then
    halves (twos 32 (s.power.mon.get ((o - 0x3100) / 4) 0)) (twos 32 (s.power.mon.get ((o - 0x3100) / 4 + 1) 0))
  else if o = 0x4000 then s.rst.causeWord
  else if o = 0x4008 then s.rst.resetAt.toNat
  else if o = 0x4010 then s.rst.warmResets.toNat
  else if o = 0x4018 then s.rst.blockResets.toNat
  else if o = 0x4020 then halves s.rst.blockWord s.rst.statusWord
  else if o = 0x5000 then halves s.sidebandWord s.pkg.statusWord
  else 0

/-! ### Security (R465, R466) -/

def Security.statusWord (x : Security) : Nat :=
  bitAt x.lead 3 + bitAt x.runOpen 2 + bitAt x.certOk 1 + bitAt x.keyOk 0

/-- A place of the step-digest ring as its 128 bytes (R465). -/
def Security.ringBytes (x : Security) (i : Nat) : List Byte :=
  match x.ring.get? i with
  | some (n, sd, c) => leBytes 8 n.toNat ++ sd ++ List.replicate 8 0 ++ c ++ List.replicate 16 0
  | none => List.replicate 128 0

def State.securityWord (s : State) (o : Nat) : Nat :=
  if o = 0x00 then s.sec.statusWord
  else if 0x40 ≤ o ∧ o < 0x70 then bytesWord s.fuses.deviceId (o - 0x40)
  else if 0x80 ≤ o ∧ o < 0xB0 then bytesWord s.fuses.romDigest (o - 0x80)
  else if 0xC0 ≤ o ∧ o < 0xF0 then bytesWord s.sec.tablesDigest (o - 0xC0)
  else if 0x100 ≤ o ∧ o < 0x130 then bytesWord s.sec.timetableDigest (o - 0x100)
  else if 0x140 ≤ o ∧ o < 0x170 then bytesWord s.sec.runChain (o - 0x140)
  else if o = 0x180 then s.sec.runFirst.toNat
  else if o = 0x188 then s.sec.runLast.toNat
  else if o = 0x190 then s.sec.quotes.toNat
  else if o = 0x198 then s.sec.waybills.toNat
  else if 0x1_0000 ≤ o ∧ o < 0x3_0000 then bytesWord (s.sec.ringBytes ((o - 0x1_0000) / 128)) (o % 128)
  else 0

/-! ### Base camp (R404, R405, R485, R486, R194 to R196, R372 to R375, R403, R445, R448, R449) -/

def BaseCore.statusWord (b : BaseCore) : Nat := bitAt b.lockup 7 + b.lockupCore.toNat * 16 + bitAt b.dormas 0

/-- CHIP_INFO (R485). -/
def State.chipInfo (s : State) : Nat :=
  2 ^ 24 + 2 ^ 16 + s.fuses.stepping.toNat * 2 ^ 8 + bitAt s.fuses.clsM 7
    + (s.fuses.present.filter fun x => x = 1).length / 8

def State.loadStatusWord (s : State) : Nat :=
  (match s.image with
   | some i => 2 ^ 31 + bitAt i.relax 30 + bitAt i.clsM 29 + i.position
   | none => 0) + s.loadCode * 2 ^ 16

def State.recStatusWord (s : State) : Nat :=
  let r := s.recov
  r.role * 2 ^ 29 + r.phase * 2 ^ 26 + bitAt r.prot 25 + bitAt r.refill 24
    + Nat.min 255 (r.ledger.filter fun x => x.2.state = 0).length * 2 ^ 16
    + (match r.team with
       | some t => t.team
       | none => 0)

/-- DEV_STATE.STATE and REASON (R432, R448). -/
def DevSt.code : DevSt → Nat
  | .off => 0
  | .rom => 1
  | .loaded => 2
  | .ready => 3
  | .armed => 4
  | .running => 5
  | .halted => 6
  | .faulted => 7
  | .recovering => 8

def Reason.code : Reason → Nat
  | .none => 0
  | .done => 1
  | .host => 2
  | .hbm => 3

def State.devStateWord (s : State) : Nat := s.reason.code * 16 + s.dev.code

def Tether.sessionsWord (t : Tether) : Nat :=
  t.group * 2 ^ 16 + bitAt (t.sessions.any Session.owner) 7 + (t.sessions.filter fun x => !x.owner).length * 2 ^ 5
    + t.halfOpen.length

def QpSt.code : QpSt → Nat
  | .ready => 1
  | .error => 2
  | .broken => 3

/-- The four words of QP_ENTRYi (R449). -/
def State.qpWords (s : State) (i : Nat) : List Nat :=
  match s.qps.get? i with
  | none => []
  | some q =>
    let h := s.senders.get (16 * q.body.tile + q.body.ch) {}
    let c := q.body.chan
    [q.st.code * 2 ^ 60 + bitAt c 59 + q.body.port * 2 ^ 56 + (if c then q.body.tile * 2 ^ 40 + q.body.ch * 2 ^ 32 else 0)
       + q.body.qpn,
     if c then h.seq.toNat * 2 ^ 48 + q.body.tollGs else 0, q.delivered.toNat, q.discarded.toNat]

def State.baseWord (s : State) (o : Nat) : Nat :=
  if o = 0x00 then s.base.statusWord
  else if o = 0x08 then s.base.wdogLimit.toNat * 2 ^ 8
  else if o = 0x10 then s.base.svn * 2 ^ 8 + s.base.fwCode
  else if o = 0x18 then s.base.lockups.toNat
  else if 0x40 ≤ o ∧ o < 0x70 then bytesWord s.base.fwDigest (o - 0x40)
  else if o = 0x80 then s.chipInfo
  else if 0x100 ≤ o ∧ o < 0x200 then
    bytesWord ((s.fuses.present.take 200).map fun x => (BitVec.ofNat 8 x : Byte)) (o - 0x100)
  else if 0x80_0000 ≤ o ∧ o < 0x80_4000 then s.gsWord 3072 1024 (o - 0x80_0000)
  else if o = 0x80_8000 then s.sigDiscards.toNat
  else if o = 0x90_0000 then s.loadStatusWord
  else if o = 0x90_0008 then s.loadWhere.toNat
  else if o = 0x90_0010 then s.seed.toNat
  else if 0x90_0040 ≤ o ∧ o < 0x90_0070 then
    bytesWord ((s.image.map Image.imageDigest).getD []) (o - 0x90_0040)
  else if 0x90_0080 ≤ o ∧ o < 0x90_00B0 then
    bytesWord ((s.image.map Image.bindingDigest).getD []) (o - 0x90_0080)
  else if 0x90_0100 ≤ o ∧ o < 0x90_01C0 then
    bytesWord ((List.range 192).map fun l => (BitVec.ofNat 8 ((s.physicalOf l).getD 0xFF) : Byte)) (o - 0x90_0100)
  else if o = 0xA0_0000 then s.recStatusWord
  else if o = 0xA0_0008 then s.recov.recStep.toNat
  else if o = 0xA0_0010 then bitAt s.recov.candValid 63 + s.recov.cand
  else if o = 0xA0_0018 then s.recov.cairnLow.toNat
  else if o = 0xA0_0100 then s.recov.halts.toNat
  else if o = 0xA0_0108 then s.recov.reruns.toNat
  else if o = 0xA0_0110 then s.recov.recoveries.toNat
  else if o = 0xA0_0118 then s.recov.escalations.toNat
  else if o = 0xA0_0120 then s.recov.chunksSent.toNat
  else if o = 0xA0_0128 then s.recov.logAppends.toNat
  else if o = 0xA0_0130 then s.recov.logWait.toNat
  else if o = 0xA0_0138 then s.recov.hbMisses.toNat
  else if o = 0xA0_0140 then s.recov.ledgerCount.toNat
  else if 0xA1_0000 ≤ o ∧ o < 0xA1_8000 then
    match s.recov.ledger.get? ((o - 0xA1_0000) / 32) with
    | some e => (e.words.getD (o % 32 / 8) 0).toNat
    | none => 0
  else if 0xB0_0000 ≤ o ∧ o < 0xB0_0100 then bytesWord s.power.telemetry (o - 0xB0_0000)
  else if o = 0xC0_0000 then s.devStateWord
  else if o = 0xC0_0008 then s.tether.sessionsWord
  else if 0xC0_0040 ≤ o ∧ o < 0xC0_0070 then bytesWord s.tether.ownerKey (o - 0xC0_0040)
  else if o = 0xC0_0100 then s.tether.opened.toNat
  else if o = 0xC0_0108 then s.tether.lostCount.toNat
  else if o = 0xC0_0110 then s.tether.handshakeFails.toNat
  else if o = 0xC0_0118 then s.tether.eventsLost.toNat
  else if 0xC1_0000 ≤ o ∧ o < 0xC1_8000 then (s.qpWords ((o - 0xC1_0000) / 32)).getD (o % 32 / 8) 0
  else 0

/-! ### The whole of control space (R480, R483, R487) -/

/-- Whether a physical tile is fused off (R486, R487). -/
def State.absent (s : State) (n : Nat) : Bool := s.fuses.present.getD n 0 = 0

/-- The aligned 8-byte word at an offset; an absent tile reads as ones, what nothing is assigned to as zero. -/
def State.ctlWord (s : State) (o : Nat) : Nat :=
  if o < 0x1000_0000 then s.baseWord o
  else if o < 0x1C80_0000 then
    let n := (o - 0x1000_0000) / 0x10_0000
    if s.absent n then 2 ^ 64 - 1 else (s.tile n).word s.formats (o % 0x10_0000)
  else if o < 0x2000_0000 then 0
  else if o < 0x3000_0000 then s.depotWord ((o - 0x2000_0000) / 0x400_0000) (o % 0x400_0000)
  else if o < 0x3100_0000 then s.cvPortWord ((o - 0x3000_0000) / 0x10_0000) (o % 0x10_0000)
  else if o < 0x3110_0000 then s.cvChipWord (o - 0x3100_0000)
  else if o < 0x3800_0000 then 0
  else if o < 0x3880_0000 then s.hportWord ((o - 0x3800_0000) / 0x10_0000) (o % 0x10_0000)
  else if o < 0x3C00_0000 then 0
  else if o < 0x3E00_0000 then s.clockWord (o - 0x3C00_0000)
  else if o < 0x4000_0000 then s.securityWord (o - 0x3E00_0000)
  else 0

/-- The bytes of a span of control space, each word read as one value (R482). -/
def State.ctlBytes (s : State) (off len : Nat) : List Byte :=
  if len = 0 then [] else
    let first := off / 8
    let words := (List.range ((off % 8 + len + 7) / 8)).map fun k => s.ctlWord (8 * (first + k))
    ((words.flatMap (leBytes 8)).drop (off % 8)).take len

/-- Whether a span reads the register GTC (R243). -/
def coversGtc (off len : Nat) : Bool := decide (off < 0x3C00_0008) && decide (0x3C00_0000 < off + len)

/-- The fraction at the instant of a read of GTC is latched (R243). -/
def State.latchGtc (s : State) : State :=
  { s with clock := { s.clock with gtcFrac := BitVec.ofNat 8 s.clock.gtc } }

/-- What a read of control space leaves behind. -/
def State.ctlTouch (s : State) (off len : Nat) : State := if coversGtc off len then s.latchGtc else s

/-- The bytes of the security window (R124, R465). -/
def securityWindow (off : Nat) : Bool := decide (0x3E00_0000 ≤ off) && decide (off < 0x4000_0000)

end Sys2Proof.Machine
end

