-- ==== Sys2Proof/Machine/Events.lean ====
section
/-! DEFINITION. What the device tells its sessions: numbered packets, events and the device state (R423, R430, R433,
R443). -/

namespace Sys2Proof.Machine

open Sys2Proof

/-! ### Counters of a host port (R445) -/

/-- The offset of a host port's counter (R445). -/
def hpRxFrames : Nat := 0x100
def hpTxFrames : Nat := 0x108
def hpFcsErrors : Nat := 0x110
def hpFecCorrected : Nat := 0x118
def hpFecUncorrected : Nat := 0x120
def hpOtherDrops : Nat := 0x128
def hpVerDrops : Nat := 0x130
def hpTetherBad : Nat := 0x138
def hpAuthDrops : Nat := 0x140
def hpRoceDrops : Nat := 0x148
def hpRoceNaks : Nat := 0x150
def hpRnrNaks : Nat := 0x158
def hpMacsecDrops : Nat := 0x160
def hpPfcPaused : Nat := 0x168
def hpLinkDowns : Nat := 0x170

def HPort.count (p : HPort) (off n : Nat) : HPort :=
  { p with counters := p.counters.upd off 0 fun x => x + BitVec.ofNat 64 n }

/-! ### Numbered packets (R423) -/

/-- The last packet number of a direction (R422). -/
def lastPn : Nat := 2 ^ 48

/-- Sends packets of the queue while fewer than 64 are unacknowledged and packet numbers are left; `fuel` is at least the
queue's length. -/
def Session.pumpGo : Nat → Session → List Output → Session × List Output
  | 0, x, o => (x, o)
  | fuel + 1, x, o =>
    match x.queue with
    | [] => (x, o)
    | p :: q =>
      if x.unacked.length < 64 ∧ x.pnOut ≤ lastPn then
        Session.pumpGo fuel
          { x with queue := q, seqOut := x.seqOut + 1, pnOut := x.pnOut + 1,
                   unacked := x.unacked ++ [⟨x.seqOut, 0, 2⟩] } (p :: o)
      else (x, o)

def Output.isEvent : Output → Bool
  | .event _ _ => true
  | _ => false

/-- The events that wait in a session's queue. -/
def Session.eventsQueued (x : Session) : Nat := (x.queue.filter Output.isEvent).length

/-- The LOST event joins the queue once there is room again (R443). -/
def Session.tellLost (x : Session) (stamp : W64) : Session :=
  if 0 < x.lost ∧ x.eventsQueued < 256 then
    { x with queue := x.queue ++ [.event x.id ⟨9, stamp, beBytes 8 x.lost⟩], lost := 0 }
  else x

/-- A session sends what it may. -/
def Session.pump (x : Session) (stamp : W64) : Session × List Output :=
  let (y, o) := Session.pumpGo x.queue.length x []
  let z := y.tellLost stamp
  Session.pumpGo z.queue.length z o

/-- The local GTC of a region in 1/256 ns (R226): rows 0 to 7, depots 8 to 11, base camp 12, Caravan ports 13 to 28, host
ports 29 to 36. -/
def Clock.localGtc (c : Clock) (region : Nat) : Nat := (((c.gtc : Int) + c.regionErr.get region 0) % 2 ^ 72).toNat

/-- Base camp's local GTC in whole nanoseconds, as events and entries carry it. -/
def State.stamp (s : State) : W64 := BitVec.ofNat 64 (s.clock.localGtc 12 / 256)

/-- Frames sent on a port (R445). -/
def State.sentFrames (s : State) (h n : Nat) : State := if n = 0 then s else s.modHport h fun p => p.count hpTxFrames n

/-- What the sessions that pumped have put out, and the sessions that stay. -/
def State.sendAll (s : State) (rs : List (Session × List Output)) (stay : List Session) : State :=
  rs.foldl (fun s (r : Session × List Output) => ({ s with out := r.2 ++ s.out }).sentFrames r.1.port r.2.length)
    { s with tether := { s.tether with sessions := stay } }

/-- Every session changed by `f`, then sending what it may; a session whose next packet number would exceed 2⁴⁸ ends
(R422). -/
def State.sessionsMap (s : State) (f : Session → Session) : State :=
  let rs := s.tether.sessions.map fun x => (f x).pump s.stamp
  let spent := (rs.map Prod.fst).filter fun x => decide (lastPn < x.pnOut)
  let s1 := s.sendAll rs ((rs.map Prod.fst).filter fun x => decide (x.pnOut ≤ lastPn))
  { s1 with out := spent.foldl (fun o x => .closed x.id :: o) s1.out }

/-- One session changed by `f`. -/
def State.onSession (s : State) (id : Nat) (f : Session → Session) : State :=
  s.sessionsMap fun x => if x.id = id then f x else x

/-- The session of a number. -/
def State.session? (s : State) (id : Nat) : Option Session := s.tether.sessions.find? fun x => decide (x.id = id)

/-- A numbered packet of a session. -/
def State.sendOn (s : State) (id : Nat) (o : Output) : State :=
  s.onSession id fun x => { x with queue := x.queue ++ [o] }

/-- The packets that a payload of this length takes (R424). -/
def packetsOf (len : Nat) : Nat := Nat.max 1 ((len + 8191) / 8192)

/-- A response to a command of a session (R436): status, code and body beside the device state of this moment. -/
def State.respond (s : State) (id req status code : Nat) (body : List Byte) : State :=
  s.onSession id fun x =>
    { x with queue := x.queue ++ .response id req status s.dev.code code body ::
        List.replicate (packetsOf (16 + body.length) - 1) (.more id) }

/-! ### Events (R443) -/

/-- Whether a session takes events. -/
def Session.takes (x : Session) : Bool := x.owner || x.events

/-- An event: queued for each session that takes events, dropped and counted where 256 wait. -/
def State.raise (s : State) (code : Nat) (body : List Byte) : State :=
  let full := s.tether.sessions.filter fun x => x.takes && decide (256 ≤ x.eventsQueued)
  let s1 := { s with tether := { s.tether with eventsLost := s.tether.eventsLost + BitVec.ofNat 64 full.length } }
  s1.sessionsMap fun x =>
    if x.takes then
      if x.eventsQueued < 256 then { x with queue := x.queue ++ [.event x.id ⟨code, s.stamp, body⟩] }
      else { x with lost := x.lost + 1 }
    else x

/-- A transition of R433 with its STATE event; `k` is the K of the event. -/
def State.enter (s : State) (d : DevSt) (r : Reason) (k : W64) : State :=
  if s.dev = d ∧ s.reason = r then s
  else
    ({ s with dev := d, reason := r,
              sec := { s.sec with runOpen := s.sec.runOpen && decide (d ≠ DevSt.faulted) && decide (r ≠ Reason.done) } }).raise 1
      ([BitVec.ofNat 8 s.dev.code, BitVec.ofNat 8 d.code, BitVec.ofNat 8 r.code] ++ List.replicate 5 0 ++ beBytes 8 k.toNat)

/-- A port went up or down: KIND, PORT, STATE. -/
def State.linkEvent (s : State) (kind port st : Nat) : State :=
  s.raise 6 [BitVec.ofNat 8 kind, BitVec.ofNat 8 port, BitVec.ofNat 8 st]

/-- A reference switch, a holdover or the loss of the parent. -/
def State.clockEvent (s : State) : State :=
  s.raise 7 (beBytes 4 s.clock.refWord ++ beBytes 4 s.clock.statusWord)

/-- A regulator fault or a change of ceiling. -/
def State.powerEvent (s : State) : State :=
  s.raise 5 (beBytes 4 s.power.errWord ++ beBytes 4 s.power.statusWord)

end Sys2Proof.Machine
end

