-- ==== Sys2Proof/Machine/Records.lean ====
section
/-! DEFINITION. Flits and records (R256 to R259, R277, R355): the 32 bytes of a record, the 64-byte units of a flit, and the
flits that carry a record with its data. -/

namespace Sys2Proof.Machine

open Sys2Proof

/-! ### Units and flits -/

/-- The 512 bits of a unit, byte k in bits 8k + 7 to 8k. -/
def unitBits (u : Unit64) : BitVec 512 := BitVec.ofNat 512 (leNat u.bytes)

/-- The unit of 512 bits. -/
def unitOfBits (b : BitVec 512) (poison : Bool) : Unit64 := ⟨leBytes 64 b.toNat, poison⟩

/-- A quarter of a flit (R256). -/
def quarter (f : BitVec 2048) (q : Nat) : BitVec 512 := f.extractLsb' (512 * q) 512

/-- The four quarters of a flit as units, with the poison that PSN names (R259). -/
def flitUnits (f : BitVec 2048) (psn : Nat) : List Unit64 :=
  (List.range 4).map fun q => unitOfBits (quarter f q) (psn.testBit q)

/-- Bits laid end to end from bit 0 of a flit. -/
def packFlit {w : Nat} (l : List (BitVec w)) : BitVec 2048 :=
  l.foldr (fun x acc => (acc <<< w) ||| x.setWidth 2048) 0

/-- The PSN of up to four units. -/
def psnOf (l : List Unit64) : Nat := (l.map Unit64.poison).foldr (fun b acc => (if b then 1 else 0) + 2 * acc) 0

/-! ### The 32 bytes of a record -/

/-- A field of a record: `width` bits from bit `lo` of word `k`. -/
def recField (r : BitVec 256) (k lo width : Nat) : Nat := (r.extractLsb' (64 * k + lo) width).toNat

/-- A word of a record. -/
def recWord (r : BitVec 256) (k : Nat) : W64 := r.extractLsb' (64 * k) 64

/-- A record with one field at its place. -/
def recPut (k lo width v : Nat) : BitVec 256 := (BitVec.ofNat width v).setWidth 256 <<< (64 * k + lo)

/-- A record with some fields at their places, the others zero. -/
def recOf (typ : Nat) (fields : List (Nat × Nat × Nat × Nat)) : BitVec 256 :=
  fields.foldl (fun r f => r ||| recPut f.1 f.2.1 f.2.2.1 f.2.2.2) (recPut 0 56 8 typ)

def recType (r : BitVec 256) : Nat := recField r 0 56 8

/-- The units of data that a record announces (R257, R258). -/
def recAnnounced (r : BitVec 256) : Nat :=
  match recType r with
  | 0x01 => recField r 0 0 16
  | 0x06 => recField r 0 0 2 + 1
  | 0x07 => recField r 0 0 16
  | 0x08 => recField r 0 0 16
  | 0x15 => recField r 0 0 16
  | _ => 0

/-- The words of a log header (R355). -/
def logHead (r : RecLog) : W64 := BitVec.ofNat 64 (r.owner % 2 ^ 16 * 2 ^ 48 + r.gfmt % 2 ^ 5 * 2 ^ 32 + r.e32 % 2 ^ 9)

/-- Words as units of 64 bytes, eight to a unit. -/
def wordUnits : Nat → List W64 → List Unit64
  | 0, _ => []
  | n + 1, l => unitOfBits ((packFlit (l.take 8)).setWidth 512) false :: wordUnits n (l.drop 8)

/-- The words of units. -/
def unitWords (l : List Unit64) : List W64 :=
  l.flatMap fun u => (List.range 8).map fun k => (unitBits u).extractLsb' (64 * k) 64

/-- The data of a record, as its body carries it (R257, R355, R371). -/
def recData : Rec → List Unit64
  | .write r => r.data
  | .msg r => r.data
  | .reduce r => r.data
  | .log r => unitOfBits ((logHead r).setWidth 512) false :: r.data
  | .mgmt r => wordUnits ((r.words.length + 7) / 8) r.words
  | _ => []

/-- A record with the data that its body brought. -/
def recFill (b : Rec) (l : List Unit64) : Rec :=
  match b with
  | .write r => .write { r with data := l }
  | .msg r => .msg { r with data := l }
  | .reduce r => .reduce { r with data := l }
  | .log r =>
    let h := (unitWords (l.take 1)).headD 0
    .log { r with owner := h.toNat / 2 ^ 48, gfmt := h.toNat / 2 ^ 32 % 2 ^ 5, e32 := h.toNat % 2 ^ 9, data := l.drop 1 }
  | .mgmt r => .mgmt { r with words := unitWords l }
  | b => b

/-- Whether a record belongs to the dynamic class by its TYPE (R276); a WRITE does by its routing word. -/
def dynType (t : Nat) : Bool := decide (t = 0x10) || decide (t = 0x11) || decide (t = 0x13) || decide (t = 0x14) || decide (t = 0x15)

/-- The routing word of a dynamic record (R276). -/
def routing (r : Routed) : List (Nat × Nat × Nat × Nat) :=
  if r.dyn then [(3, 40, 20, r.dst), (3, 20, 20, r.src), (3, 0, 8, r.ttl)] else []

/-- The 32 bytes of a record (R258, R276, R277). -/
def recBits (r : Routed) : BitVec 256 :=
  let units := (recData r.body).length
  match r.body with
  | .null => 0
  | .write w => recOf 0x01 ([(0, 40, 8, w.srcTile), (0, 0, 16, units), (1, 0, 64, w.addr.toNat)] ++ routing r)
  | .post w => recOf 0x02 [(0, 40, 8, w.srcTile), (0, 0, 8, w.inc), (1, 0, 64, w.ref.toNat)]
  | .signal w => recOf 0x03 [(0, 40, 8, w.srcTile), (0, 0, 8, w.inc), (1, 0, 64, w.ref.toNat)]
  | .arrive w => recOf 0x04 [(0, 40, 8, w.srcTile), (0, 0, 2, w.tag), (1, 0, 64, w.ref.toNat)]
  | .release w => recOf 0x05 [(0, 8, 2, if w.toPort then 1 else 0), (0, 0, 2, w.gen), (1, 0, 64, w.ref.toNat)]
  | .msg w =>
    recOf 0x06 [(0, 40, 8, w.srcTile), (0, 32, 4, w.oc), (0, 16, 16, w.seq), (0, 8, 1, if w.pad then 1 else 0),
      (0, 0, 2, units - 1), (1, 40, 20, w.chip), (1, 16, 8, w.tile), (1, 0, 4, w.ch), (2, 16, 12, w.w), (2, 0, 12, w.pos)]
  | .reduce w =>
    recOf 0x07 [(0, 48, 1, if w.eager then 1 else 0), (0, 40, 5, w.fmt), (0, 32, 8, w.contrib), (0, 0, 16, units),
      (1, 48, 16, w.rid), (1, 0, 32, w.block)]
  | .log w => recOf 0x08 [(0, 0, 16, units), (1, 0, 64, w.step), (2, 48, 16, w.rid), (2, 0, 32, w.block)]
  | .waypoint w =>
    recOf 0x10 [(0, 32, 8, w.t3 % 256), (0, 24, 8, w.t1 % 256), (0, 16, 8, w.t2 % 256), (0, 8, 8, w.hops),
      (0, 0, 1, if w.settled then 1 else 0), (1, 0, 64, w.t3 / 256), (2, 0, 64, w.t1 / 256), (3, 0, 64, w.t2 / 256)]
  | .switch w =>
    recOf 0x11 ([(0, 32, 16, w.team), (0, 16, 8, w.epoch), (0, 8, 8, w.alt), (0, 0, 1, if w.flush then 1 else 0),
      (1, 0, 64, w.instant)] ++ routing r)
  | .detour w => recOf 0x12 [(0, 48, 4, w.oport), (0, 40, 2, w.otbl), (0, 32, 2, w.oleg), (0, 0, 10, w.oslot)]
  | .freq op instant => recOf 0x13 ([(0, 0, 3, op), (1, 0, 64, instant)] ++ routing r)
  | .broken chip tile ch => recOf 0x14 ([(1, 40, 20, chip), (1, 16, 8, tile), (1, 0, 4, ch)] ++ routing r)
  | .mgmt w => recOf 0x15 ([(0, 32, 8, w.subtype), (0, 0, 16, units)] ++ routing r)

/-- The body that 32 bytes spell, without its data; none where the TYPE is reserved. -/
def recBody (r : BitVec 256) : Option Rec :=
  let f := recField r
  match recType r with
  | 0x00 => some .null
  | 0x01 => some (.write ⟨f 0 40 8, recWord r 1, []⟩)
  | 0x02 => some (.post ⟨f 0 40 8, f 0 0 8, recWord r 1⟩)
  | 0x03 => some (.signal ⟨f 0 40 8, f 0 0 8, recWord r 1⟩)
  | 0x04 => some (.arrive ⟨f 0 40 8, f 0 0 2, recWord r 1⟩)
  | 0x05 => some (.release ⟨decide (f 0 8 2 = 1), f 0 0 2, recWord r 1⟩)
  | 0x06 => some (.msg ⟨f 0 40 8, f 0 32 4, f 0 16 16, decide (f 0 8 1 = 1), f 1 40 20, f 1 16 8, f 1 0 4, f 2 16 12, f 2 0 12, []⟩)
  | 0x07 => some (.reduce ⟨decide (f 0 48 1 = 1), f 0 40 5, f 0 32 8, f 1 48 16, f 1 0 32, []⟩)
  | 0x08 => some (.log ⟨f 1 0 64, f 2 48 16, f 2 0 32, 0, 0, 0, []⟩)
  | 0x10 => some (.waypoint ⟨256 * f 1 0 64 + f 0 32 8, 256 * f 2 0 64 + f 0 24 8, 256 * f 3 0 64 + f 0 16 8, f 0 8 8, decide (f 0 0 1 = 1)⟩)
  | 0x11 => some (.switch ⟨f 0 32 16, f 0 16 8, f 0 8 8, decide (f 0 0 1 = 1), f 1 0 64⟩)
  | 0x12 => some (.detour ⟨f 0 48 4, f 0 40 2, f 0 32 2, f 0 0 10⟩)
  | 0x13 => some (.freq (f 0 0 3) (f 1 0 64))
  | 0x14 => some (.broken (f 1 40 20) (f 1 16 8) (f 1 0 4))
  | 0x15 => some (.mgmt ⟨f 0 32 8, []⟩)
  | _ => none

/-- The record that 32 bytes spell, with its routing word where it is of the dynamic class. -/
def recRouted (r : BitVec 256) : Option Routed :=
  let d := dynType (recType r) || (decide (recType r = 0x01) && decide (recWord r 3 ≠ 0))
  (recBody r).map fun b =>
    if d ∧ recType r ≠ 0x10 then ⟨true, recField r 3 40 20, recField r 3 20 20, recField r 3 0 8, b⟩ else ⟨d, 0, 0, 0, b⟩

/-- A record as it is acted on: none where its TYPE is reserved or a field that must be zero is not (R258). -/
def recParse (r : BitVec 256) : Option Routed :=
  match recRouted r with
  | none => none
  | some x =>
    let zeros : List Unit64 := List.replicate (recAnnounced r) ⟨[], false⟩
    let whole : Routed := { x with body := match x.body with
      | .log w => .log { w with data := zeros.drop 1 }
      | .mgmt w => .mgmt { w with words := List.replicate (8 * recAnnounced r) 0 }
      | b => recFill b zeros }
    if recBits whole = r then some x else none

/-- The eight records of a head flit. -/
def headRecords (f : BitVec 2048) : List (BitVec 256) := (List.range 8).map fun k => f.extractLsb' (256 * k) 256

/-- A head flit of up to eight records. -/
def headFlit (l : List (BitVec 256)) : BitVec 2048 := packFlit (l.take 8)

/-! ### The flits that carry a record -/

/-- The body flits of some data, each of four units, the unused quarters zero (R257). -/
def bodyFlits (rec_ : Option Routed) : Nat → List Unit64 → List QFlit
  | 0, _ => []
  | n + 1, l =>
    { kind := 2, psn := psnOf (l.take 4), flit := packFlit ((l.take 4).map unitBits), rec_ := rec_ } ::
      bodyFlits rec_ n (l.drop 4)

/-- Whether a record goes out as an eager flit: EAGER with 1 to 3 units (R270). -/
def eagerRec (b : Rec) : Bool :=
  match b with
  | .reduce r => r.eager && decide (1 ≤ r.data.length) && decide (r.data.length ≤ 3)
  | _ => false

/-- The flits of a record: its head, then its body (R257, R270). Head flits carry PSN 0 (R259). -/
def recFlits (r : Routed) : List QFlit :=
  let data := recData r.body
  let whole := if r.dyn then some r else none
  if eagerRec r.body then
    [{ kind := 1, flit := packFlit ((recBits r).setWidth 512 :: data.map unitBits) }]
  else { kind := 1, flit := headFlit [recBits r], rec_ := whole } :: bodyFlits whole ((data.length + 3) / 4) data

/-- Whether a head flit is an eager flit, by its record 0 (R270). -/
def eagerHead (f : BitVec 2048) : Option RecReduce :=
  let r := f.extractLsb' 0 256
  match recParse r with
  | some ⟨_, _, _, _, .reduce w⟩ =>
    let n := recAnnounced r
    if w.eager ∧ 1 ≤ n ∧ n ≤ 3 then some { w with data := ((flitUnits f 0).drop 1).take n } else none
  | _ => none

/-- The records of a head flit in order, each with the units that follow it; none for one that is discarded. NULL places
are left out. -/
def headGroup (f : BitVec 2048) : List (Option Routed × Nat) :=
  ((headRecords f).filter fun r => decide (r ≠ 0)).map fun r => (recParse r, recAnnounced r)

/-- Whether a head flit holds records of the dynamic class, and only such (R276). -/
def dynHead (f : BitVec 2048) : Bool :=
  let l := (headRecords f).filter fun r => decide (r ≠ 0)
  !l.isEmpty && l.all fun r => match recRouted r with
    | some x => x.dyn
    | none => false

/-- The DETOUR records of a head flit (R282). -/
def headDetours (f : BitVec 2048) : List RecDetour :=
  (headRecords f).filterMap fun r => match recParse r with
    | some ⟨_, _, _, _, .detour d⟩ => some d
    | _ => none

end Sys2Proof.Machine
end

