-- ==== Sys2Proof/Machine/Net.lean ====
section
/-! DEFINITION. Traffic between units: routes and Caravan queues (R265, R268, R269), remote signals (R152, R153), belays
(R154 to R157) and tolls granted to senders (R133, R165). -/

namespace Sys2Proof.Machine

open Sys2Proof

/-! ### Routes and queues -/

/-- The offset of a Caravan counter (R285). -/
def cvTxFlits : Nat := 0x100
def cvRxFlits : Nat := 0x108
def cvNaksSent : Nat := 0x110
def cvNaksReceived : Nat := 0x118
def cvRetries : Nat := 0x120
def cvDuplicates : Nat := 0x128
def cvFecCorrected : Nat := 0x130
def cvFecUncorrected : Nat := 0x138
def cvDynTx : Nat := 0x140
def cvDynRx : Nat := 0x148
def cvDiscards : Nat := 0x150
def cvStrictDiscards : Nat := 0x158
def cvDetoured : Nat := 0x160
def cvFwdFull : Nat := 0x168
def cvLinkDowns : Nat := 0x170
def cvQueueWait : Nat := 0x178
def cvRedDiscards : Nat := 0x180

/-- A counter of a port goes up. -/
def CvPort.count (p : CvPort) (off n : Nat) : CvPort :=
  { p with counters := p.counters.upd off 0 fun x => x + BitVec.ofNat 64 n }

/-- The table that a port uses now. -/
def CvPort.table (p : CvPort) : Option TTable := p.cur.bind fun i => p.tables[i]?

/-- Whether the table in use gives a queue slots: scheduled ones of its own, or opportunistic ones for an EAGER queue. -/
def CvPort.serves (p : CvPort) (q : Nat) (eager : Bool) : Bool :=
  match p.table with
  | some t => t.tx.any fun e => decide (e.cls = 1) && (if eager then e.opp else decide (e.queue = q))
  | none => false

/-- The queue of a source for a destination on one port (R265, R268). -/
def CvPort.queueFor (p : CvPort) (src detail dest : Nat) (eager : Bool := false) : Option Nat :=
  (List.range p.qtab.length).find? fun q =>
    match p.qtab[q]? with
    | some e => decide (e.src = src) && decide (e.detail = detail) && decide (e.dest = dest) && (e.eager == eager)
        && p.serves q eager
    | none => false

/-- The one route of a source to a destination position: port and queue. -/
def State.route? (s : State) (src detail dest : Nat) (eager : Bool := false) : Option (Nat × Nat) :=
  (List.range 16).findSome? fun p => ((s.port p).queueFor src detail dest eager).map fun q => (p, q)

/-- Whether a queue has room: fewer than LIMIT flits (R269). -/
def CvPort.room (p : CvPort) (q : Nat) : Bool :=
  match p.qtab[q]? with
  | some e => decide ((p.queues.get q []).length < e.limit)
  | none => false

/-- A flit joins its queue, or waits behind it until there is room (R269). -/
def CvPort.offer (p : CvPort) (q : Nat) (f : QFlit) : CvPort :=
  if (p.offers.get q []).isEmpty && p.room q then { p with queues := p.queues.upd q [] fun l => l ++ [f] }
  else { p with offers := p.offers.upd q [] fun l => l ++ [f] }

/-- The flits of a record on a route, head first (R257). -/
def State.offerRec (s : State) (pq : Nat × Nat) (r : Routed) : State :=
  s.modPort pq.1 fun p => (recFlits r).foldl (fun p f => p.offer pq.2 f) p

/-- Whether the run allows arrival order (R210). -/
def State.relaxed (s : State) : Bool := (s.image.map Image.relax).getD false

/-- A contribution for an EAGER queue (R270): it is marked EAGER, where its data is of 1 to 3 units. -/
def eagerForm (b : Rec) : Option Rec :=
  match b with
  | .reduce r => let e : Rec := .reduce { r with eager := true }
    if eagerRec e then some e else none
  | _ => none

/-- A record of the scheduled class from a source to a position, on its route; none where no route exists. Under RELAX
the one queue of a reduction engine may be an EAGER one (R268, R270). -/
def State.sendScheduled (s : State) (src detail dest : Nat) (r : Rec) : Option State :=
  match s.route? src detail dest with
  | some pq => some (s.offerRec pq ⟨false, 0, 0, 0, r⟩)
  | none =>
    if s.relaxed then
      match eagerForm r, s.route? src detail dest true with
      | some e, some pq => some (s.offerRec pq ⟨false, 0, 0, 0, e⟩)
      | _, _ => none
    else none

/-- Whether a source still waits to hand something on. -/
def State.waitsToSend (s : State) (src detail : Nat) : Bool :=
  (List.range 16).any fun k =>
    let p := s.port k
    p.offers.any fun x => !x.2.isEmpty && (match p.qtab[x.1]? with
      | some e => decide (e.src = src) && decide (e.detail = detail)
      | none => false)

/-! ### Remote-signal references (R152) -/

def refKind (r : W64) : Nat := r.toNat / 2 ^ 62
def refChip (r : W64) : Nat := r.toNat / 2 ^ 40 % 2 ^ 20
def refTile (r : W64) : Nat := r.toNat / 2 ^ 16 % 256
def refIndex (r : W64) : Nat := r.toNat % 4096

/-- A reference to a local semaphore of a logical tile, and to a global semaphore. -/
def refLocal (chip tile i : Nat) : W64 := BitVec.ofNat 64 (chip * 2 ^ 40 + tile * 2 ^ 16 + i)
def refGlobal (chip i : Nat) : W64 := BitVec.ofNat 64 (2 ^ 62 + chip * 2 ^ 40 + i)

/-- Whether every field that must be zero is zero. An INDEX of 64 or more with KIND 0 names no local semaphore: such a
signal is discarded and counted like one with a field that is not zero (DESIGN CHOICE, log 100). -/
def refClean (r : W64) : Bool :=
  decide (r.toNat / 2 ^ 60 % 4 = 0) && decide (r.toNat / 2 ^ 24 % 2 ^ 16 = 0) && decide (r.toNat / 2 ^ 12 % 16 = 0)
    && decide (refChip r < 65536) && (decide (refKind r ≠ 1) || decide (refTile r = 0))
    && (decide (refKind r ≠ 0) || decide (refIndex r < 64))

/-! ### Global semaphores (R145, R146, R177) -/

def State.setGsem (s : State) (i : Nat) (g : GSem) : State := { s with gs := s.gs.set i g }

/-- An increment and a decrement in counter mode (R146). -/
def GSem.add (g : GSem) (n : Nat) : GSem :=
  if 0xFFFF < g.value + n then { g with value := 0xFFFF, ovf := true } else { g with value := g.value + n }
def GSem.sub (g : GSem) (n : Nat) : GSem :=
  if g.value < n then { g with value := 0, unf := true } else { g with value := g.value - n }

/-- A signal that reaches this chip and can act on nothing (R153). -/
def State.sigDiscard (s : State) : State := { s with sigDiscards := s.sigDiscards + 1 }

/-- A remote signal, post or grant at its target (R146, R153). -/
def State.applySignal (s : State) (ref : W64) (inc : Nat) : State :=
  if !refClean ref then s.sigDiscard
  else if refKind ref = 0 then
    match s.physicalOf (refTile ref) with
    | some n => s.modTile n fun t => t.semAdd (refIndex ref) inc
    | none => s.sigDiscard
  else if refKind ref = 1 then
    let g := s.gsem (refIndex ref)
    if g.mode = .counter then s.setGsem (refIndex ref) (g.add inc) else s.sigDiscard
  else s.sigDiscard

/-! ### Sending signals and arrivals -/

/-- A signal of physical tile `n`: over the die network on this chip, else in the slots of its route; `src` is 1 for the
sync unit and 0 for a post of the store engine. -/
def State.signalFrom (s : State) (n src : Nat) (ref : W64) (inc : Nat) : State :=
  let stream := if src = 0 then some n else none
  if refChip ref = s.position then { s with net := s.net ++ [.signal ⟨stream, ref, inc⟩] }
  else
    let l := (s.logicalOf n).getD 0
    let r : RecSignal := ⟨l, inc, ref⟩
    match s.sendScheduled src l (refChip ref) (if src = 0 then .post r else .signal r) with
    | some s' => s'
    | none => s.modTile n fun t => { t with syncNoRoute := true }

/-- An arrival of physical tile `n` at the belay that a port names. -/
def State.arriveFrom (s : State) (n chip index tag : Nat) : State :=
  if chip = s.position then { s with net := s.net ++ [.arrive (refGlobal chip index) tag] }
  else
    let l := (s.logicalOf n).getD 0
    match s.sendScheduled 1 l chip (.arrive ⟨l, tag, refGlobal chip index⟩) with
    | some s' => s'
    | none => s.modTile n fun t => { t with syncNoRoute := true }

/-- The source that sends for the holder of a global semaphore (R155). -/
def holderSrc (i : Nat) : Nat × Nat := if i < 3072 then (4, i / 768) else (6, 0)

/-- An arrival that an agent or a belay on this chip sends; one without a route is lost. -/
def State.agentArrive (s : State) (src detail chip index tag : Nat) : State :=
  if chip = s.position then { s with net := s.net ++ [.arrive (refGlobal chip index) tag] }
  else (s.sendScheduled src detail chip (.arrive ⟨0xFF, tag, refGlobal chip index⟩)).getD s

/-! ### Belays (R154, R155) -/

/-- A release reaches a belay port of this chip. -/
def State.releasePort (s : State) (l bp : Nat) (gen : BitVec 2) : State :=
  match s.physicalOf l with
  | some n => s.modTile n fun t => { t with bp := t.bp.upd bp {} fun b => { b with rel := gen } }
  | none => s.sigDiscard

/-- Releases to the ports bound to a belay, and to base camp where it takes part. -/
def State.releasePorts (s : State) (i : Nat) (gen : BitVec 2) : State :=
  let s1 := (s.gsem i).ports.foldl (fun s p =>
    if p.chip = s.position then s.releasePort p.tile p.bp gen
    else (s.sendScheduled (holderSrc i).1 (holderSrc i).2 p.chip
      (.release ⟨true, gen.toNat, refLocal p.chip p.tile p.bp⟩)).getD s) s
  match s1.image with
  | some m => if m.stepBelay = i then { s1 with stepReleases := s1.stepReleases + 1 } else s1
  | none => s1

/-- What can happen at a belay: CUR may have reached COUNT, it completes, or a parent's release reaches it. -/
inductive BelayAct where
  | check (i : Nat)
  | complete (i : Nat)
  | release (i : Nat) (gen : BitVec 2)
  deriving DecidableEq, Repr

/-- The belay machinery of R155. `fuel` bounds the depth of a tree, at most four levels. A release that reaches a belay in
OVERRUN is discarded and counted, also where the belay has forwarded and the generation matches (DESIGN CHOICE, log 101). -/
def belayGo : Nat → State → BelayAct → State
  | 0, s, _ => s
  | fuel + 1, s, .check i =>
    let g := s.gsem i
    if g.mode = .belay ∧ !g.overrun ∧ !g.fwd ∧ g.value = g.count ∧ 0 < g.count then
      match g.parent with
      | none => belayGo fuel s (.complete i)
      | some (c, j) =>
        (s.setGsem i { g with fwd := true }).agentArrive (holderSrc i).1 (holderSrc i).2 c j g.gen.toNat
    else s
  | fuel + 1, s, .complete i =>
    let g := s.gsem i
    let gen := g.gen + 1
    let s1 := (s.setGsem i { g with gen := gen, value := g.nxt, nxt := 0, fwd := false }).releasePorts i gen
    let s2 := g.children.foldl (fun s c =>
      if refChip c = s.position then belayGo fuel s (.release (refIndex c) gen)
      else (s.sendScheduled (holderSrc i).1 (holderSrc i).2 (refChip c) (.release ⟨false, gen.toNat, c⟩)).getD s) s1
    belayGo fuel s2 (.check i)
  | fuel + 1, s, .release i gen =>
    let g := s.gsem i
    if g.mode = .belay ∧ !g.overrun ∧ g.fwd ∧ gen = g.gen + 1 then belayGo fuel s (.complete i) else s.sigDiscard

/-- Levels of a tree and repetitions, with room to spare. -/
def belayFuel : Nat := 64

/-- An arrival at a global semaphore of this chip (R153, R154). -/
def State.belayArrive (s : State) (ref : W64) (tag : Nat) : State :=
  let i := refIndex ref
  let g := s.gsem i
  if !refClean ref || decide (refKind ref ≠ 1) || decide (g.mode ≠ .belay) then s.sigDiscard
  else if g.overrun then s
  else
    let d := BitVec.ofNat 2 tag
    if d = g.gen then belayGo belayFuel (s.setGsem i { g with value := g.value + 1 }) (.check i)
    else if d = g.gen + 1 then s.setGsem i { g with nxt := g.nxt + 1 }
    else s.setGsem i { g with overrun := true }

/-- A release from another chip's belay. -/
def State.belayRelease (s : State) (ref : W64) (gen : Nat) : State :=
  belayGo belayFuel s (.release (refIndex ref) (BitVec.ofNat 2 gen))

/-! ### Packets of the die network -/

/-- The store stream that a packet belongs to. -/
def NetPkt.stream : NetPkt → Option Nat
  | .write w => some w.stream
  | .signal r => r.stream
  | .arrive _ _ => none
  | .msg m => m.stream

/-- The packets that precede the first equal one; all of them where it is not listed. -/
def beforePkt (p : NetPkt) : List NetPkt → List NetPkt
  | [] => []
  | q :: l => if q = p then [] else q :: beforePkt p l

/-- Whether a packet may act: nothing of its stream that was sent earlier is still on its way (R136, R137, R164). -/
def State.mayLand (s : State) (p : NetPkt) : Bool :=
  match p.stream with
  | none => true
  | some k => if p ∈ s.net then !((beforePkt p s.net).any fun q => decide (q.stream = some k)) else true

/-- The network without the first packet equal to `p`. -/
def State.land (s : State) (p : NetPkt) : State := { s with net := s.net.erase p }

/-- A queue pair bound to a channel of this chip that becomes BROKEN (R420). -/
def Qp.broken (q : Qp) (l c : Nat) : Qp :=
  if q.st = .ready ∧ q.body.chan ∧ q.body.tile = l ∧ q.body.ch = c then { q with st := .broken } else q

/-- The outbound ports and queue pairs of this chip that send to a channel become BROKEN (R169, R420). -/
def State.breakSenders (s : State) (chip l c : Nat) : State :=
  { s with
    tiles := s.tiles.map fun x =>
      (x.1, { x.2 with oc := x.2.oc.map fun y =>
        (y.1, if y.2.valid ∧ y.2.chip = chip ∧ y.2.tile = l ∧ y.2.ch = c then { y.2 with broken := true } else y.2) }),
    qps := if chip = s.position then s.qps.map fun (x : Nat × Qp) => (x.1, x.2.broken l c) else s.qps }

/-! ### Tolls (R133, R165, R166) -/

/-- A grant to the sender of a channel: a remote signal of the receiving tile. -/
def State.grant (s : State) (n c tolls : Nat) : State :=
  let x := (s.tile n).ch.get c {}
  if tolls = 0 then s
  else if x.src = 1 then
    let l := (s.logicalOf n).getD 0
    match (s.senders.get (16 * l + c) {}).tollGs with
    | some g => s.signalFrom n 1 (refGlobal s.position g) tolls
    | none => s.signalFrom n 1 x.tollRef tolls
  else s.signalFrom n 1 x.tollRef tolls

end Sys2Proof.Machine
end

