-- ==== Sys2Proof/Machine/Dyn.lean ====
section
/-! DEFINITION. The dynamic class (R272, R274, R276): who this chip is, where a record goes next, and the records that
this chip sends, forwards and floods. -/

namespace Sys2Proof.Machine

open Sys2Proof

/-! ### Chip ids (R272) -/

/-- The chip-id field of a spare that holds no position. -/
def spareId (n : Nat) : Nat := 2 ^ 19 + n

/-- The chip id under which records reach this chip: the position of its image, else the TEAM body's. -/
def State.selfId (s : State) : Option Nat :=
  match s.image with
  | some m => some m.position
  | none => s.recov.team.map fun t => if t.spare then spareId t.self else t.self

/-- Position or spare number with bit 63 for a spare, as messages name their sender (R371). -/
def State.senderWord (s : State) : W64 :=
  match s.selfId with
  | some i => if 2 ^ 19 ≤ i then BitVec.ofNat 64 (2 ^ 63 + (i - 2 ^ 19)) else BitVec.ofNat 64 i
  | none => 0

/-- The node of a chip id in the chip map: positions first, then spares. -/
def ChipMap.node? (m : ChipMap) (id : Nat) : Option Node :=
  if 2 ^ 19 ≤ id then
    if id - 2 ^ 19 < m.spares then m.nodes[m.nodes.length - m.spares + (id - 2 ^ 19)]? else none
  else if id < m.nodes.length - m.spares then m.nodes[id]? else none

/-- The chip id that a port of a node is cabled to. -/
def Node.peer (x : Node) (p : Nat) : Option Nat :=
  match x.cables[p]? with
  | some (1, _, n) => some n
  | some (2, _, n) => some (spareId n)
  | _ => none

/-! ### Routes (R276; ties by log 16) -/

/-- Ports in UP. -/
def State.upPorts (s : State) : List Nat := (List.range 16).filter fun p => decide ((s.port p).st = .up)

/-- The ports that carry dynamic records: all in UP once an image is installed, the host's setting before. -/
def State.dynPorts (s : State) : List Nat :=
  if s.image.isSome then s.upPorts else s.upPorts.filter fun p => s.cv.routePorts.getLsbD p

/-- One step of a torus dimension of size `d` from `a` toward `b`, the shorter way round. -/
def torusStep (d a b : Nat) : Nat := if 2 * ((b + d - a) % d) ≤ d then (a + 1) % d else (a + d - 1) % d

/-- The ports of the torus dimensions in which a node differs from the destination, in the order X, Y, Z. -/
def ChipMap.torusHops (m : ChipMap) (me dst : Node) : List (Nat × Nat × Nat) :=
  if m.dimX = 0 ∨ m.dimY = 0 ∨ m.dimZ = 0 then []
  else
    (if me.x ≠ dst.x then [(torusStep m.dimX me.x dst.x, me.y, me.z)] else []) ++
    (if me.y ≠ dst.y then [(me.x, torusStep m.dimY me.y dst.y, me.z)] else []) ++
    (if me.z ≠ dst.z then [(me.x, me.y, torusStep m.dimZ me.z dst.z)] else [])

/-- The lowest port in UP whose cable leads to a chip that satisfies `f`. -/
def State.portTo (s : State) (me : Node) (f : Nat → Bool) : Option Nat :=
  s.upPorts.find? fun p => match me.peer p with
    | some i => f i
    | none => false

/-- The chips from which `k` hops reach the destination. -/
def ChipMap.within (m : ChipMap) (dst : Nat) : Nat → List Nat
  | 0 => [dst]
  | k + 1 =>
    let l := ChipMap.within m dst k
    ((List.range (m.nodes.length - m.spares)) ++ (List.range m.spares).map spareId).filter fun i =>
      decide (i ∈ l) || (match m.node? i with
        | some x => (List.range 16).any fun p => match x.peer p with
          | some j => decide (j ∈ l)
          | none => false
        | none => false)

/-- The chip id of this chip's own node: a spare keeps its node when it plays a position. -/
def State.nodeId (s : State) : Option Nat :=
  match s.recov.team with
  | some t => if t.spare then some (spareId t.self) else s.selfId
  | none => s.selfId

/-- Whether records for a chip id are for this chip. -/
def State.isSelf (s : State) (id : Nat) : Bool := decide (s.selfId = some id) || decide (s.nodeId = some id)

/-- The node that plays a position under the run's alternate: the spare of a position case (R275). -/
def State.playedBy (s : State) (dst : Nat) : Nat :=
  match s.chipmap.cases.find? fun c =>
      decide (c.kind = 2) && decide (c.alt = s.recov.runAlt) && decide (c.position = dst) with
  | some c => spareId c.sub
  | none => dst

/-- The next port toward a destination: its cable where one leads there, dimension order where a torus applies, else the
fewest hops. -/
def State.nextPort (s : State) (to_ : Nat) : Option Nat :=
  let dst := s.playedBy to_
  match s.nodeId.bind s.chipmap.node? with
  | none => none
  | some me =>
    match s.portTo me (fun i => decide (i = dst)) with
    | some p => some p
    | none =>
      let m := s.chipmap
      let hops := match m.node? dst with
        | some d => if 2 ^ 19 ≤ dst then [] else m.torusHops me d
        | none => []
      match hops.findSome? fun c => s.portTo me fun i => decide (i < 2 ^ 19) && (match m.node? i with
          | some x => decide ((x.x, x.y, x.z) = c)
          | none => false) with
      | some p => some p
      | none => (List.range 64).findSome? fun k => s.portTo me fun i => decide (i ∈ m.within dst k)

/-! ### Sending -/

/-- A record joins the dynamic records that wait at a port. -/
def State.dynOn (s : State) (p : Nat) (r : Routed) : State := s.modPort p fun x => { x with dynq := x.dynq ++ [r] }

/-- A record on each of some ports. -/
def State.dynOnAll (s : State) (ps : List Nat) (r : Routed) : State := ps.foldl (fun s p => s.dynOn p r) s

/-- A record goes on toward its destination; `from_` is the port it came in on. -/
def State.dynForward (s : State) (from_ : Option Nat) (r : Routed) : State :=
  if s.image.isSome then
    match s.nextPort r.dst with
    | some p => s.dynOn p r
    | none => s
  else s.dynOnAll (s.dynPorts.filter fun p => decide (some p ≠ from_)) r

/-- TTL at the start: 64, or the host's setting before an image is installed. -/
def State.firstTtl (s : State) : Nat := if s.image.isSome then 64 else s.cv.routeHops

/-- A dynamic record from this chip; one for this chip itself is delivered at once. -/
def State.sendDyn (s : State) (dst : Nat) (b : Rec) : State :=
  let r : Routed := ⟨true, dst, s.selfId.getD 0, s.firstTtl, b⟩
  if s.isSelf dst then { s with delivered := s.delivered ++ [r] } else s.dynForward none r

/-- A base-camp message of one body unit (R371). -/
def State.sendMgmt (s : State) (dst sub : Nat) (words : List W64) : State := s.sendDyn dst (.mgmt ⟨sub, words⟩)

/-- A record of this chip sent once on every port in UP (R280). -/
def State.flood (s : State) (b : Rec) : State := s.dynOnAll s.dynPorts ⟨true, 0, s.selfId.getD 0, s.firstTtl, b⟩

/-- A flooded record that came in on port `p` goes out once on every other port in UP while it has hops left (R276, R280). -/
def State.floodOn (s : State) (p : Nat) (r : Routed) : State :=
  if r.ttl ≤ 1 then s else s.dynOnAll (s.dynPorts.filter fun q => decide (q ≠ p)) { r with ttl := r.ttl - 1 }

/-- The first delivered record with this body, with its routing; else one that sets out here. -/
def State.deliveredAs (s : State) (b : Rec) : Routed :=
  (s.delivered.find? fun r => decide (r.body = b)).getD ⟨true, 0, s.selfId.getD 0, s.firstTtl, b⟩

/-! ### Records that have been delivered -/

/-- The list without the first delivered record that satisfies `f`. -/
def State.took (s : State) (f : Rec → Bool) : State := { s with delivered := s.delivered.eraseP fun r => f r.body }

/-- The list without the first delivered message of a subtype with these words. -/
def State.tookMgmt (s : State) (sub : Nat) (words : List W64) : State :=
  s.took fun b => match b with
    | .mgmt m => decide (m.subtype = sub) && decide (m.words.take words.length = words)
    | _ => false

end Sys2Proof.Machine
end

