-- ==== Sys2Proof/Machine/Ledger.lean ====
section
/-! DEFINITION. The rope team as base camp knows it, the fault ledger, and the report of an event to the lead (R337, R339,
R342, R370, R373). -/

namespace Sys2Proof.Machine

open Sys2Proof

/-! ### The team (R337, R339, R508) -/

/-- Sorted insertion, and a list in ascending order. -/
def insertNat (x : Nat) : List Nat → List Nat
  | [] => [x]
  | y :: l => if x ≤ y then x :: y :: l else y :: insertNat x l
def sortNats : List Nat → List Nat
  | [] => []
  | x :: l => insertNat x (sortNats l)

/-- The positions of the team, ascending; a device without a configuration is a team of its own position. -/
def State.teamPositions (s : State) : List Nat :=
  match s.recov.team with
  | some t => sortNats (t.holders.map HolderRow.position)
  | none => (s.image.map Image.position).toList

/-- The positions that are not lost. -/
def State.livePositions (s : State) : List Nat := s.teamPositions.filter fun p => decide (p ∉ s.recov.lost)

def State.leadPos (s : State) : Option Nat := s.livePositions.head?
def State.deputyPos (s : State) : Option Nat := s.livePositions[1]?

/-- Whether this chip leads: with a team by its position, without one when it is a run of one position (R508). -/
def State.isLead (s : State) : Bool :=
  match s.image with
  | some m => decide (s.leadPos = some m.position) && (s.recov.team.isSome || decide (m.positions = 1))
  | none => false

def State.isDeputy (s : State) : Bool :=
  match s.image with
  | some m => s.recov.team.isSome && decide (s.deputyPos = some m.position)
  | none => false

/-- The team's number: of the configuration, else of this position's node. -/
def State.teamNo (s : State) : Nat :=
  match s.recov.team with
  | some t => t.team
  | none => ((s.chipmap.node? s.position).map Node.team).getD 0

/-- The spares of the team, by number: those that a failure case of a team position names. -/
def State.teamSpares (s : State) : List Nat :=
  ((s.chipmap.cases.filter fun c => decide (c.kind = 2) && decide (c.position ∈ s.teamPositions)).map
    FailCase.sub).eraseDups

/-! ### The fault ledger (R370, R373) -/

/-- PLACE of an entry. -/
def Place.word : Place → Nat
  | .granule t a => t * 2 ^ 56 + a / 4 * 4
  | .control t => t * 2 ^ 56
  | .hbm _ st c r u => st * 2 ^ 40 + c * 2 ^ 35 + r * 2 ^ 22 + u
  | .d2d d => d
  | .port p => p
  | .seqGap t c => t * 2 ^ 56 + c

/-- CLASS of an entry for a poison report. -/
def Place.cls : Place → Nat
  | .granule _ _ => 1
  | .control _ => 4
  | .hbm _ _ _ _ _ => 2
  | .d2d _ => 3
  | .port _ => 3
  | .seqGap _ _ => 17

/-- The physical tile of a place. -/
def Place.tile? : Place → Option Nat
  | .granule t _ => some t
  | .control t => some t
  | .seqGap t _ => some t
  | _ => none

/-- The bytes of an entry. -/
def entryBytes (e : LedgerEntry) : List Byte := e.words.flatMap fun w => leBytes 8 w.toNat

/-- An entry is written: it takes the next place of the ledger, the host hears of it, and the lead copies it to the
deputy. -/
def State.record (s : State) (e : LedgerEntry) : State :=
  let n := s.recov.ledgerCount.toNat
  let s1 := ({ s with recov :=
    { s.recov with ledger := s.recov.ledger.set (n % 1024) e, ledgerCount := s.recov.ledgerCount + 1 } }).raise 3
      (entryBytes e)
  if s1.isLead then
    match s1.deputyPos with
    | some d => s1.sendMgmt d 0x0A e.words
    | none => s1
  else s1

/-- An entry of this chip, stamped now. -/
def State.entry (s : State) (cls st position : Nat) (step place : W64) : LedgerEntry :=
  ⟨s.stamp, cls, st, position, step, place⟩

/-- An event at this chip: its base camp writes it down and reports it to the lead. -/
def State.notify (s : State) (cls : Nat) (place : W64) : State :=
  let e := s.entry cls 0 (s.selfId.getD 0 % 65536) s.step place
  let s1 := s.record e
  match s1.leadPos with
  | some l => s1.sendMgmt l 0x02 e.words
  | none => s1

end Sys2Proof.Machine
end

