-- ==== Sys2Proof/Machine/Operands.lean ====
section
/-! DEFINITION. Operand forms of the slots: immediates, static addresses and rows (R61, R65, R85, R97). -/

namespace Sys2Proof

/-- IMM sign-extended and zero-extended to 64 bits (R62). -/
def ScF.simm (f : ScF) : W64 := f.imm.signExtend 64
def ScF.zimm (f : ScF) : W64 := f.imm.setWidth 64

/-- The third register of a scalar slot, X[4:0] (R61). -/
def ScF.c (f : ScF) : BitVec 5 := f.x.setWidth 5

/-- The loop level of a scalar slot, X[1:0]. -/
def ScF.level (f : ScF) : Nat := f.x.toNat % 4

/-- The width in bytes of a scalar access, from X[8:7] (R65). -/
def ScF.bytes (f : ScF) : Nat := 8 / 2 ^ (f.x.toNat / 128 % 4)

/-- The lanes that LEN spans: 8 × LEN, LEN 0 meaning 16 (R97). -/
def VeF.lanes (f : VeF) : Nat := if f.sub.toNat % 16 = 0 then 128 else 8 * (f.sub.toNat % 16)

/-- The element type T of a vector slot (R93, R95). -/
def VeF.ty (f : VeF) : Nat := f.sub.toNat % 4

end Sys2Proof

namespace Sys2Proof.Machine

open Sys2Proof

/-- The index of the loop level that an L field names; zero without a loop term (R65, R85, R97). -/
def Tile.loopIdx (t : Tile) (l : Nat) : Nat := if l = 0 then 0 else (t.lcr (l - 1)).index.toNat

/-- The byte address of `lds` and `sts` (R65). -/
def Tile.scAddr (t : Tile) (f : ScF) : Nat :=
  (t.gv f.a + t.gv f.b * BitVec.ofNat 64 (t.loopIdx (f.x.toNat / 8 % 8)) + f.imm.signExtend 64).toNat % spadBytes

/-- The element address, the scale address and the row of a matrix slot (R85). -/
def Tile.mxE (t : Tile) (f : MxF) : Nat :=
  (t.gv f.a + t.gv f.b * BitVec.ofNat 64 (t.loopIdx f.l.toNat) + f.off.setWidth 64).toNat % spadBytes

def Tile.mxS (t : Tile) (f : MxF) : Nat :=
  ((t.gv f.c).toNat % spadBytes + (t.gv f.b * BitVec.ofNat 64 (t.loopIdx f.l.toNat)).toNat) % spadBytes

def Tile.mxRow (t : Tile) (f : MxF) : Nat := (f.row.toNat + t.loopIdx f.l.toNat) % 128

/-- The address of `vld` and `vst` (R97). -/
def Tile.veAddr (t : Tile) (f : VeF) : Nat :=
  (t.gv f.ga + t.gv f.gb * BitVec.ofNat 64 (t.loopIdx f.l.toNat) + f.imm.setWidth 64).toNat % spadBytes

/-- The lanes that KM selects (R94). -/
def Tile.lanesOf (t : Tile) (f : VeF) : BitVec 128 :=
  if f.km = 0 then BitVec.allOnes 128 else t.kr f.km.toNat

/-- The bytes of a v register, lane 0 first. -/
def Lanes.bytes (l : Lanes) : List (Byte × Bool) := gransBytes ((List.range 128).map l.at_)

end Sys2Proof.Machine
end

