-- ==== Sys2Proof/Machine/TileWrite.lean ====
section
/-! DEFINITION. Control writes inside a tile's window (R12, R50, R80, R141, R143, R170 to R176, R482). A write reaches each
4-byte word as a value and the mask of the bits it covers. -/

namespace Sys2Proof.Machine

open Sys2Proof

/-- A 4-byte part of a control write: the value and the bits it covers. -/
structure Part where
  v : W32
  m : W32
  deriving DecidableEq, Repr

/-- Whether the write clears a W1C bit. -/
def Part.clears (p : Part) (i : Nat) : Bool := p.v.getLsbD i && p.m.getLsbD i

/-- A W1C flag after the write. -/
def Part.w1c (p : Part) (i : Nat) (b : Bool) : Bool := b && !p.clears i

/-- An RW field of `w` bits from bit `i` after the write. -/
def Part.rw (p : Part) (i w : Nat) (old : BitVec w) : BitVec w :=
  let m : BitVec w := (p.m >>> i).setWidth w
  (old &&& ~~~m) ||| ((p.v >>> i).setWidth w &&& m)

/-- A one-bit RW field after the write. -/
def Part.rwBit (p : Part) (i : Nat) (old : Bool) : Bool := if p.m.getLsbD i then p.v.getLsbD i else old

/-- The flags of R50 after a write. -/
def ArithFlags.write (f : ArithFlags) (p : Part) : ArithFlags :=
  { invalid := p.w1c 0 f.invalid, overflow := p.w1c 1 f.overflow, underflow := p.w1c 2 f.underflow,
    saturated := p.w1c 3 f.saturated, scaleNan := p.w1c 4 f.scaleNan, alignInexact := p.w1c 5 f.alignInexact }

/-- Flags cleared: those of earlier row cycles only while a row cycle is open, since what it has set stays set (R13). -/
def Tile.clearFlags (t : Tile) (f : TileFlags → TileFlags) : Tile :=
  if t.inCycle then { t with old := f t.old } else t.withFlags (f t.shown)

/-- A write to one 4-byte word of a tile's window; what no register covers discards it. -/
def Tile.ctlWrite (t : Tile) (o : Nat) (p : Part) : Tile :=
  if o = 0x000 then
    t.clearFlags fun x => { x with ctrlPoison := p.w1c 23 x.ctrlPoison, imemParity := p.w1c 22 x.imemParity }
  else if o = 0x800 then t.clearFlags fun x => { x with arith := x.arith.write p }
  else if o = 0x904 then
    t.clearFlags fun x => { x with spadPoisonIn := p.w1c 1 x.spadPoisonIn, spadParity := p.w1c 0 x.spadParity }
  else if o = 0x910 then
    t.clearFlags fun x =>
      { x with engBadDesc := p.w1c 8 x.engBadDesc, engQovf := p.w1c 7 x.engQovf, engNoRoute := p.w1c 6 x.engNoRoute,
               engCtrlDiscard := p.w1c 5 x.engCtrlDiscard, engForeign := p.w1c 4 x.engForeign,
               engLengthClamp := p.w1c 3 x.engLengthClamp, engMisalign := p.w1c 2 x.engMisalign,
               engStray := p.w1c 1 x.engStray }
  else if o = 0xA00 then
    t.clearFlags fun x =>
      { x with syncNoRoute := p.w1c 6 x.syncNoRoute, syncReaderGone := p.w1c 5 x.syncReaderGone,
               syncSemUnf := p.w1c 4 x.syncSemUnf, syncSemOvf := p.w1c 3 x.syncSemOvf,
               syncWdogToll := p.w1c 2 x.syncWdogToll, syncWdogSy := p.w1c 1 x.syncWdogSy }
  else if o = 0xA08 then { t with wdogLimit := p.rw 0 6 t.wdogLimit }
  else if 0x2000 ≤ o ∧ o < 0x2100 then
    let i := (o - 0x2000) / 4
    if p.clears 16 || p.clears 17 then
      { t with sems := t.sems.upd i {} fun m => { m with ovf := p.w1c 16 m.ovf, unf := p.w1c 17 m.unf } }
    else t
  else if 0x2400 ≤ o ∧ o < 0x2800 ∧ o % 64 = 0x0C then
    if p.clears 2 then { t with ch := t.ch.upd ((o - 0x2400) / 64) {} fun c => { c with seqGap := false } } else t
  else if 0x2800 ≤ o ∧ o < 0x2C00 ∧ o % 64 = 0x08 then
    if p.clears 12 then { t with oc := t.oc.upd ((o - 0x2800) / 64) {} fun c => { c with readerGone := false } } else t
  else t

/-- The parts of a write of bytes at an offset: the 4-byte words it covers, with value and mask. -/
def writeParts (off : Nat) (data : List Byte) : List (Nat × Part) :=
  if data = [] then [] else
    let first := off / 4
    (List.range ((off % 4 + data.length + 3) / 4)).map fun k =>
      let at_ (j : Nat) : Option Byte := if 4 * (first + k) + j < off then none else data[4 * (first + k) + j - off]?
      (4 * (first + k),
       { v := BitVec.ofNat 32 (leNat ((List.range 4).map fun j => (at_ j).getD 0)),
         m := BitVec.ofNat 32 (leNat ((List.range 4).map fun j => if (at_ j).isSome then 0xFF else 0)) })

/-- A write of bytes inside the window of a physical tile, `off` from its start; an absent tile discards it (R487). -/
def State.tileCtlWrite (s : State) (n off : Nat) (data : List Byte) : State :=
  if s.fuses.present.getD n 0 = 0 then s
  else s.modTile n fun t => (writeParts off data).foldl (fun t x => t.ctlWrite x.1 x.2) t

end Sys2Proof.Machine
end

