-- ==== Sys2Proof/Machine/Engines.lean ====
section
/-! DEFINITION. The load and store slots and the two engines (R121 to R137, R163, R507): a slot enqueues a command with the
register values of its issue cycle; an engine acts on the command at the head of its queue. -/

namespace Sys2Proof.Machine

open Sys2Proof

/-! ### Enqueueing (R122, R129, R507) -/

/-- The commands that a queue holds at most. -/
def queueLimit : Nat := 512

def Tile.enqueueLd (t : Tile) (c : EngCmd) : Tile :=
  if t.ldq.length < queueLimit then { t with ldq := t.ldq ++ [{ c with fresh := true }] } else { t with engQovf := true }

/-- A command joins the tail of the store queue. -/
def Tile.joinSt (t : Tile) (c : EngCmd) : Tile :=
  if t.stq.length < queueLimit then { t with stq := t.stq ++ [{ c with fresh := true }] } else { t with engQovf := true }

/-- The same, with the ST slot's command ahead of the `send` that its own bundle has enqueued (R149). -/
def Tile.enqueueSt (t : Tile) (c : EngCmd) : Tile :=
  match t.stq.getLast? with
  | some l =>
    if l.fresh ∧ l.kind = .send ∧ c.kind ≠ .send then (({ t with stq := t.stq.dropLast }).joinSt c).joinSt l
    else t.joinSt c
  | none => t.joinSt c

/-- A command of a slot; poison in a register that it names makes it act on nothing. -/
def State.enqueue (s : State) (n : Nat) (x : BSlot) (c : Tile → EngCmd) (poison : Tile → Bool) : State :=
  s.issueS n x fun t s =>
    let cmd := { c t with dead := poison t }
    (s.modTile n fun t => if x = .ld then t.enqueueLd cmd else t.enqueueSt cmd).ctrlPoisonIf n (poison t)

/-- The fields that every command of a slot carries. -/
def lsBase (k : EngKind) (f : LsF) : EngCmd :=
  { kind := k, sv := f.sv = 1, sem := f.sem.toNat, imm := f.imm.toNat, tv := f.tv = 1, toll := f.toll.toNat }

def execLdNop (n : Nat) (s : State) : Res := .next (s.issue n .ld fun t => t)
def execStNop (n : Nat) (s : State) : Res := .next (s.issue n .st fun t => t)

/-- The command of `ld` and `st`: scratchpad address, global address, and a length in gGC or IMM. -/
def copyCmd (k : EngKind) (f : LsF) (t : Tile) : EngCmd :=
  { lsBase k f with a := t.gv f.ga, b := t.gv f.gb, c := t.gv f.gc, useC := f.gc ≠ 0 }

def copyPoison (f : LsF) (t : Tile) : Bool := t.gp f.ga || t.gp f.gb || t.gp f.gc

def execLd (n : Nat) (f : LsF) (s : State) : Res := .next (s.enqueue n .ld (copyCmd .ld f) (copyPoison f))
def execSt (n : Nat) (f : LsF) (s : State) : Res := .next (s.enqueue n .st (copyCmd .st f) (copyPoison f))

/-- The command of `ld.strm` and `st.strm`: the descriptor's address and a count. -/
def streamCmd (k : EngKind) (f : LsF) (t : Tile) : EngCmd :=
  { lsBase k f with b := t.gv f.gb, c := t.gv f.gc, useC := f.gc ≠ 0 }

def streamPoison (f : LsF) (t : Tile) : Bool := t.gp f.gb || t.gp f.gc

def execLdStrm (n : Nat) (f : LsF) (s : State) : Res :=
  .next (s.enqueue n .ld (streamCmd .ldStrm f) (streamPoison f))
def execStStrm (n : Nat) (f : LsF) (s : State) : Res :=
  .next (s.enqueue n .st (streamCmd .stStrm f) (streamPoison f))
def execLdOvl (n : Nat) (f : LsF) (s : State) : Res :=
  .next (s.enqueue n .ld (fun _ => lsBase .ldOvl f) (fun _ => false))
def execStPost (n : Nat) (f : LsF) (s : State) : Res :=
  .next (s.enqueue n .st (fun t => { lsBase .stPost f with b := t.gv f.gb }) (fun t => t.gp f.gb))

/-! ### Global addresses (R6, R14, R123) -/

def gaSpace (g : W64) : Nat := g.toNat / 2 ^ 61
def gaChip (g : W64) : Nat := g.toNat / 2 ^ 41 % 65536
def gaOff (g : W64) : Nat := g.toNat % 2 ^ 41

/-- A reserved space, or unused chip-id bits that are not zero: the result is unpredictable (R6). -/
def gaBad (g : W64) : Bool := decide (3 ≤ gaSpace g) || decide (g.toNat / 2 ^ 57 % 16 ≠ 0)

/-- An address moved by a distance: it stays in its logical tile, or wraps modulo 2^41 in HBM (R123). -/
def gaMove (g : W64) (d : Nat) : W64 :=
  let x := g.toNat
  if gaSpace g = 0 then BitVec.ofNat 64 (x - gaOff g + (gaOff g + d) % 2 ^ 41)
  else if gaSpace g = 1 then BitVec.ofNat 64 (x - x % spadBytes + (x % spadBytes + d) % spadBytes)
  else BitVec.ofNat 64 (x + d)

/-- Bits 1:0 cleared. -/
def word4 (g : W64) : W64 := g &&& ~~~3

/-! ### Reach of the engines (R124) -/

/-- A stray row or transfer. -/
def Tile.stray (t : Tile) : Tile := { t with engStray := true, strayRows := t.strayRows + 1 }

/-- Zeros with poison clear. -/
def zeroBytes (len : Nat) : List (Byte × Bool) := List.replicate len (0, false)

/-- What a load engine reads at a global address, and the state with the read's detections and flags. A read that the
security window covers only in part returns zeros as a whole: DESIGN CHOICE (log 96). -/
def State.engineRead (s : State) (n : Nat) (g : W64) (len : Nat) : State × List (Byte × Bool) :=
  if gaChip g ≠ s.position then (s.modTile n fun t => { t with engForeign := true }, zeroBytes len)
  else if gaSpace g = 0 then (s.hbmTouch (gaOff g) len true, s.hbmBytes (gaOff g) len)
  else if gaSpace g = 1 then
    match s.physicalOf (gaOff g / spadBytes) with
    | some m =>
      let a := gaOff g % spadBytes
      (s.detect m ((s.tile m).spad.detects a len), (s.tile m).spad.read a len)
    | none => (s.modTile n Tile.stray, zeroBytes len)
  else if securityWindow (gaOff g) || securityWindow (gaOff g + len - 1) then
    (s.modTile n fun t => { t with engCtrlDiscard := true }, zeroBytes len)
  else (s.ctlTouch (gaOff g) len, (s.ctlBytes (gaOff g) len).map fun b => (b, false))

/-- Data that an engine, a remote writer or a channel sender writes into a scratchpad (R118, R141). -/
def Tile.takeData (t : Tile) (a : Nat) (data : List (Byte × Bool)) : Tile :=
  { t with spad := t.spad.write a data, spadPoisonIn := t.spadPoisonIn || data.any Prod.snd }

/-- The load engine writes its tile's scratchpad. -/
def Tile.landLoad (t : Tile) (a : Nat) (data : List (Byte × Bool)) : Tile :=
  { t.takeData a data with ldBytes := t.ldBytes + BitVec.ofNat 64 data.length }

/-- The start of a tile's control window (R480). -/
def tileWindow (n : Nat) : Nat := 0x1000_0000 + n * 0x10_0000

/-- What a store engine writes at a global address (R124, R135 to R137); `tolled` says that the command carries TV. A
control write that leaves the tile's own window in part is discarded as a whole: DESIGN CHOICE (log 96). -/
def State.engineWrite (s : State) (n : Nat) (g : W64) (data : List (Byte × Bool)) (tolled : Bool) : Res :=
  let sent (s : State) : State := s.modTile n fun t => { t with stBytes := t.stBytes + BitVec.ofNat 64 data.length }
  let flag (s : State) : State := s.modTile n fun t => { t with engCtrlDiscard := true }
  if gaSpace g = 2 then
    if gaChip g = s.position ∧ tileWindow n ≤ gaOff g ∧ gaOff g + data.length ≤ tileWindow n + 0x10_0000 then
      .next (sent (s.tileCtlWrite n (gaOff g - tileWindow n) (data.map Prod.fst)))
    else if gaChip g ≠ s.position ∧ (s.route? 0 ((s.logicalOf n).getD 0) (gaChip g)).isNone then
      .next (s.modTile n fun t => { t with engNoRoute := true })
    else .next (flag s)
  else if gaChip g ≠ s.position then
    if gaSpace g = 1 ∧ !tolled then .fault .noToll
    else
      let l := (s.logicalOf n).getD 0
      match s.sendScheduled 0 l (gaChip g) (.write ⟨l, g, bytesUnits ((data.length + 63) / 64) data⟩) with
      | some s' => .next (sent s')
      | none => .next (s.modTile n fun t => { t with engNoRoute := true })
  else if gaSpace g = 0 then .next (sent (s.hbmWrite (gaOff g) data true))
  else
    match s.physicalOf (gaOff g / spadBytes) with
    | none => .next (s.modTile n Tile.stray)
    | some m =>
      if m = n then .next (sent (s.modTile n fun t => t.takeData (gaOff g % spadBytes) data))
      else if tolled then
        .next (sent { s with net := s.net ++ [.write ⟨n, m, gaOff g % spadBytes, bytesGrans (data.length / 4) data⟩] })
      else .fault .noToll

/-! ### The head of a queue -/

/-- Whether an engine may act on a command: the tile is not in FAULT (R160), and the row cycle of the enqueue has passed
(R126). -/
def Tile.ready (t : Tile) (c : EngCmd) (k : EngKind) : Bool :=
  decide (t.st ≠ .fault) && decide (c.kind = k) && !c.done && !c.fresh

def Tile.setLd (t : Tile) (c : EngCmd) : Tile := { t with ldq := c :: t.ldq.tail }
def Tile.setSt (t : Tile) (c : EngCmd) : Tile := { t with stq := c :: t.stq.tail }

/-- The command has moved everything. -/
def State.doneLd (s : State) (n : Nat) (c : EngCmd) : State := s.modTile n fun t => t.setLd { c with done := true }
def State.doneSt (s : State) (n : Nat) (c : EngCmd) : State := s.modTile n fun t => t.setSt { c with done := true }

/-- An engine runs the command at the head of its load queue; `f` sets what is left of the command. -/
def State.runLd (s : State) (n : Nat) (k : EngKind) (f : EngCmd → State → Res) : Res :=
  match (s.tile n).ldq with
  | [] => .next s
  | c :: _ =>
    if (s.tile n).ready c k then
      if c.dead then .next (s.doneLd n c) else f c s
    else .next s

/-- The same for the store queue, where a command that waits for tolls does not run. -/
def State.runSt (s : State) (n : Nat) (k : EngKind) (f : EngCmd → State → Res) : Res :=
  match (s.tile n).stq with
  | [] => .next s
  | c :: _ =>
    if (s.tile n).ready c k && decide (c.waiting = 0) then
      if c.dead then .next (s.doneSt n c) else f c s
    else .next s

/-- The tolls that a semaphore holds, without what this row cycle has taken (R134, R146). -/
def Tile.tollsIn (t : Tile) (sem : Nat) : Nat := (t.sem sem).value - (t.sem sem).decs

/-- The store engine waits for tolls, or takes them at once where the semaphore holds them (R134). -/
def Tile.askTolls (t : Tile) (c : EngCmd) (sem need : Nat) : Tile × Option EngCmd :=
  if need ≤ t.tollsIn sem then
    ({ (t.semSub sem need).setSt { c with tolls := need, waiting := 0 } with tollCount := 0 },
     some { c with tolls := need, waiting := 0 })
  else (t.setSt { c with waiting := need }, none)

/-- `go` once the command holds its tolls, where it needs any. -/
def State.withTolls (s : State) (n : Nat) (c : EngCmd) (sem need : Nat) (go : EngCmd → State → Res) : Res :=
  if need = 0 ∨ c.tolls ≠ 0 then go c s
  else
    match (s.tile n).askTolls c sem need with
    | (t, some c') => go c' (s.setTile n t)
    | (t, none) => .next (s.setTile n t)

/-! ### `ld` and `st` (R123) -/

/-- The length of a copy in bytes, whether low bits were ignored and whether it was clamped. -/
def EngCmd.length (c : EngCmd) : Nat × Bool × Bool :=
  let raw := if c.useC then c.c.toNat % 2 ^ 22 else 64 * c.imm
  let mis := decide (raw % 4 ≠ 0) || decide (c.a.toNat % 4 ≠ 0) || decide (c.b.toNat % 4 ≠ 0)
  let len := raw / 4 * 4
  (Nat.min len spadBytes, mis, decide (spadBytes < len))

/-- The flags that the lengths and addresses of a copy set. -/
def Tile.copyFlags (t : Tile) (c : EngCmd) : Tile :=
  { t with engMisalign := t.engMisalign || c.length.2.1, engLengthClamp := t.engLengthClamp || c.length.2.2 }

/-- The scratchpad address of a copy. -/
def EngCmd.localAddr (c : EngCmd) : Nat := c.a.toNat % spadBytes / 4 * 4

/-- The 64-byte unit of a copy that the engine moves next: how far it lies from the start, and its bytes (R134, R160). -/
def EngCmd.unit (c : EngCmd) : Nat × Nat := (64 * c.row, Nat.min 64 (c.length.1 - 64 * c.row))

/-- The command after its unit. -/
def EngCmd.step (c : EngCmd) : EngCmd := { c with row := c.row + 1, done := decide (c.length.1 ≤ 64 * (c.row + 1)) }

/-- One unit of an `ld` (R123); the flags of the command are set with each (log 98). -/
def execLdExecute (n : Nat) (s : State) : Res :=
  s.runLd n .ld fun c s =>
    if c.length.1 = 0 then .next ((s.doneLd n c).modTile n fun t => t.copyFlags c)
    else if gaBad (word4 c.b) then .fault .badAddress
    else
      let (s1, data) := s.engineRead n (gaMove (word4 c.b) c.unit.1) c.unit.2
      .next (s1.modTile n fun t =>
        ((t.landLoad ((c.localAddr + c.unit.1) % spadBytes) data).setLd c.step).copyFlags c)

/-- One unit of an `st` (R123, R134): the tolls of the whole copy are taken before its first. -/
def execStExecute (n : Nat) (s : State) : Res :=
  s.runSt n .st fun c s =>
    if c.length.1 = 0 then .next ((s.doneSt n c).modTile n fun t => t.copyFlags c)
    else if gaBad (word4 c.b) then .fault .badAddress
    else
      s.withTolls n c c.toll (if c.tv then (c.length.1 + 63) / 64 else 0) fun c s =>
        let a := (c.localAddr + c.unit.1) % spadBytes
        let t := s.tile n
        match ((s.modTile n fun t => t.setSt c.step).detect n (t.spad.detects a c.unit.2)).engineWrite n
            (gaMove (word4 c.b) c.unit.1) (t.spad.read a c.unit.2) c.tv with
        | .next s1 => .next (s1.modTile n fun t => t.copyFlags c)
        | r => r

/-! ### Streams (R130 to R132) -/

/-- The descriptor in 64 bytes of scratchpad (R130), and whether R132 refuses it. -/
def strmDesc (b : List (Byte × Bool)) : StrmDesc :=
  let w (i : Nat) : Nat := leNat (((b.drop (8 * i)).take 8).map Prod.fst)
  let runits := w 3 / 2 ^ 32 % 128
  { tbase := word4 (BitVec.ofNat 64 (w 0)), ibase := BitVec.ofNat 64 (w 1),
    tlen := w 2 / 2 ^ 32, count := w 2 % 2 ^ 32, runits := runits, tstride := w 3 % 2 ^ 32 / 4 * 4,
    lstride := w 4 / 2 ^ 32 / 4 * 4, lbase := w 4 % spadBytes / 4 * 4, bias := w 5 % 2 ^ 32,
    szero := w 6 / 4 % 2 = 1, isrc := w 6 % 4,
    bad := b.any Prod.snd || decide (w 7 / 2 ^ 56 ≠ 1) || decide (runits = 0) || decide (64 < runits)
      || decide (w 6 % 4 = 3) || decide (w 3 / 2 ^ 39 ≠ 0) || decide (w 4 % 2 ^ 32 / 2 ^ 21 ≠ 0)
      || decide (w 5 / 2 ^ 32 ≠ 0) || decide (w 6 / 8 ≠ 0) || decide (w 7 % 2 ^ 56 ≠ 0) }

/-- Where a command's descriptor starts: bits 5:0 of the address are ignored. -/
def EngCmd.descAddr (c : EngCmd) : Nat := c.b.toNat % spadBytes / 64 * 64

/-- Rows of a stream. -/
def EngCmd.rows (c : EngCmd) (d : StrmDesc) : Nat := if c.useC then c.c.toNat % 2 ^ 32 else d.count

/-- The index of row `j`, with its poison. It is read where the space bits of IBASE point, whichever array ISRC names:
DESIGN CHOICE (log 97). -/
def State.strmIndex (s : State) (n : Nat) (d : StrmDesc) (j : Nat) : State × Nat × Bool :=
  if d.isrc = 0 then (s, j, false)
  else
    let (s', b) := s.engineRead n (gaMove d.ibase (4 * j)) 4
    (s', leNat (b.map Prod.fst), b.any Prod.snd)

/-- The table row that an index names, and whether it is stray. -/
def StrmDesc.tableRow (d : StrmDesc) (x : Nat) : Nat := (x + 2 ^ 32 - d.bias) % 2 ^ 32
def StrmDesc.stray (d : StrmDesc) (x : Nat) (p : Bool) : Bool := p || decide (d.tlen ≤ d.tableRow x)

def StrmDesc.tableAddr (d : StrmDesc) (x : Nat) : W64 := gaMove d.tbase (d.tableRow x * d.tstride % 2 ^ 64)
def StrmDesc.localAddr (d : StrmDesc) (j : Nat) : Nat := (d.lbase + j * d.lstride) % spadBytes

/-- The addresses that a descriptor names and R6 leaves unpredictable. -/
def StrmDesc.badAddress (d : StrmDesc) : Bool := gaBad d.tbase || (decide (d.isrc ≠ 0) && gaBad d.ibase)

/-- The descriptor of a stream: kept with the command, or read now that the command is at the head of its queue, with the
read's detections and flags. `keep` puts the command back. -/
def State.strmStart (s : State) (n : Nat) (c : EngCmd) (keep : Tile → EngCmd → Tile) : State × StrmDesc × EngCmd :=
  match c.desc with
  | some d => (s, d, c)
  | none =>
    let t := s.tile n
    let d := strmDesc (t.spad.read c.descAddr 64)
    let c1 := { c with desc := some d }
    ((s.modTile n fun t =>
      { keep t c1 with
        engMisalign := t.engMisalign || decide (c.b.toNat % 64 ≠ 0), engBadDesc := t.engBadDesc || d.bad }).detect n
      (t.spad.detects c.descAddr 64), d, c1)

/-- The command after a row of its stream. -/
def EngCmd.nextRow (c : EngCmd) (d : StrmDesc) : EngCmd :=
  { c with row := c.row + 1, tolls := 0, done := decide (c.rows d ≤ c.row + 1) }

/-- One gathered row. -/
def State.gatherRow (s : State) (n : Nat) (d : StrmDesc) (j : Nat) : State :=
  let (s1, x, p) := s.strmIndex n d j
  let loc := d.localAddr j
  if d.stray x p then
    (if d.szero then s1.modTile n fun t => t.landLoad loc (List.replicate (64 * d.runits) (0, p)) else s1).modTile n
      Tile.stray
  else
    let (s2, data) := s1.engineRead n (d.tableAddr x) (64 * d.runits)
    s2.modTile n fun t => t.landLoad loc data

/-- One row of an `ld.strm` (R131). -/
def execLdStrmExecute (n : Nat) (s : State) : Res :=
  s.runLd n .ldStrm fun c s =>
    let (s1, d, c1) := s.strmStart n c Tile.setLd
    if d.bad ∨ c1.rows d = 0 then .next (s1.doneLd n c1)
    else if d.badAddress then .fault .badAddress
    else .next ((s1.gatherRow n d c1.row).modTile n fun t => t.setLd (c1.nextRow d))

/-- One row of an `st.strm` (R131, R134). A row whose target tile is not enabled takes its tolls before it is found stray:
DESIGN CHOICE (log 99). -/
def execStStrmExecute (n : Nat) (s : State) : Res :=
  s.runSt n .stStrm fun c s =>
    let (s1, d, c1) := s.strmStart n c Tile.setSt
    if d.bad ∨ c1.rows d = 0 then .next (s1.doneSt n c1)
    else if d.badAddress then .fault .badAddress
    else
      let (s2, x, p) := s1.strmIndex n d c1.row
      if d.stray x p then .next (s2.modTile n fun t => (t.setSt (c1.nextRow d)).stray)
      else
        s2.withTolls n c1 c1.toll (if c1.tv then d.runits else 0) fun c s =>
          let t := s.tile n
          let a := d.localAddr c.row
          ((s.modTile n fun t => t.setSt (c.nextRow d)).detect n (t.spad.detects a (64 * d.runits))).engineWrite n
            (d.tableAddr x) (t.spad.read a (64 * d.runits)) c.tv

/-! ### Overlay fills, posts and sends -/

/-- The section of a type and index that applies to a logical tile: its own, else the one for every tile (R180). -/
def Image.sectionFor (m : Image) (typ index l : Nat) : Option Section :=
  let here (x : Section) : Bool :=
    decide (x.typ = typ) && decide (x.index = index) && decide (x.posLo ≤ m.position) && decide (m.position ≤ x.posHi)
  match m.sections.find? fun x => here x && decide (x.tile = l) with
  | some x => some x
  | none => m.sections.find? fun x => here x && decide (x.tile = 0xFFFF)

/-- A bundle in 48 bytes (R57). -/
def bundleOf (b : List Byte) : BitVec 384 := BitVec.ofNat 384 (leNat b)

/-- Bundles placed into a half from its bundle 0, each with new parity (R74). -/
def Tile.fillHalf (t : Tile) (half : Nat) (data : List Byte) : Tile :=
  (List.range (data.length / 48)).foldl (fun t i =>
    { t with imem := t.imem.set (half * 4096 + i) (bundleOf ((data.drop (48 * i)).take 48)),
             imemBad := t.imemBad.erase (half * 4096 + i) }) t

/-- The bytes of an overlay: those that stand in the image region (R191), but for what the loader's patches changed
(R188; log 27). -/
def State.overlayBytes (s : State) (m : Image) (x : Section) : List Byte :=
  let raw := (m.dir.find? fun y => decide (y.offset = x.offset)).map Section.data
  ((s.hbmBytes (m.base + x.offset) x.data.length).zip (x.data.zip (raw.getD x.data))).map fun z =>
    if z.2.1 = z.2.2 then z.1.1 else z.2.1

def execLdOvlExecute (n : Nat) (s : State) : Res :=
  s.runLd n .ldOvl fun c s =>
    let s1 := s.doneLd n c
    match s.image, s.logicalOf n with
    | some m, some l =>
      match m.sectionFor 1 (c.imm % 4096) l with
      | some x =>
        .next ((s1.hbmTouch (m.base + x.offset) x.data.length true).modTile n fun t =>
          t.fillHalf (c.imm / 4096 % 2) (s.overlayBytes m x))
      | none => .next s1
    | _, _ => .next s1

/-- A post joins its engine's stream (R137). -/
def execStPostExecute (n : Nat) (s : State) : Res :=
  s.runSt n .stPost fun c s => .next ((s.doneSt n c).signalFrom n 0 c.b (c.imm % 256))

/-- The space a message needs, and where it goes (R163): tolls, position, whether a pad comes first. -/
def OPort.plan (o : OPort) (l : Nat) : Nat × Nat × Bool :=
  let e := o.size - o.wrPos
  if l ≤ e then (l, o.wrPos, false) else (e + l, 0, true)

/-- A message set on its way, and the port moved on (R163, R258). -/
def State.sendMessage (s : State) (n : Nat) (c : EngCmd) : State :=
  let t := s.tile n
  let o := t.oc.get c.oc {}
  let (_, at_, pad) := o.plan c.len
  let a := c.a.toNat % spadBytes / 64 * 64
  let data := t.spad.readGrans a (64 * c.len)
  let s1 := (s.modTile n fun t =>
    { t.setSt { c with done := true } with
      oc := t.oc.set c.oc { o with seq := o.seq + 1, wrPos := if o.size = 0 then 0 else (at_ + c.len) % o.size,
                                   sent := o.sent + 1 },
      stBytes := t.stBytes + BitVec.ofNat 64 (64 * c.len) }).detect n (t.spad.detects a (64 * c.len))
  if o.chip = s.position then
    { s1 with net := s1.net ++ [.msg ⟨some n, o.tile, o.ch, o.seq.toNat, pad, o.wrPos, at_, data⟩] }
  else
    let l := (s.logicalOf n).getD 0
    match s1.sendScheduled 0 l o.chip
        (.msg ⟨l, c.oc, o.seq.toNat, pad, o.chip, o.tile, o.ch, o.wrPos, at_, gransUnits data⟩) with
    | some s2 => s2
    | none => s1.modTile n fun t => { t with engNoRoute := true }

/-- A send on a BROKEN port is discarded and completes in its turn (R169). -/
def Tile.dropSend (t : Tile) (c : EngCmd) : Tile :=
  { t.setSt { c with done := true, waiting := 0 } with
    syncReaderGone := true, tollCount := 0,
    oc := t.oc.upd c.oc {} fun o => { o with discarded := o.discarded + 1, readerGone := true } }

/-- A `send` (R163): one whose tolls are taken goes out, though its port has become BROKEN since (R169). -/
def execSendExecute (n : Nat) (s : State) : Res :=
  s.runSt n .send fun c s =>
    let o := (s.tile n).oc.get c.oc {}
    let s1 := s.modTile n fun t => { t with engMisalign := t.engMisalign || decide (c.a.toNat % 64 ≠ 0) }
    if o.broken ∧ c.tolls = 0 then .next (s1.modTile n fun t => t.dropSend c)
    else s1.withTolls n c o.toll (o.plan c.len).1 fun c s => .next (s.sendMessage n c)

/-! ### Tolls and completion -/

/-- The toll semaphore that a waiting command takes from. -/
def Tile.tollSem (t : Tile) (c : EngCmd) : Nat := if c.kind = .send then (t.oc.get c.oc {}).toll else c.toll

/-- One row cycle of a waiting store engine: it takes its tolls, or counts the wait (R134, R159, R163). A send whose port
has become BROKEN stops waiting and is discarded (R169). -/
def execTollTake (n : Nat) (s : State) : Res :=
  .next (match (s.tile n).stq with
    | [] => s
    | c :: _ =>
      if 0 < c.waiting ∧ (s.tile n).st ≠ .fault then
        s.modTile n fun t =>
          if c.kind = .send ∧ (t.oc.get c.oc {}).broken then t.dropSend c
          else if c.waiting ≤ t.tollsIn (t.tollSem c) then
            { (t.semSub (t.tollSem c) c.waiting).setSt { c with tolls := c.waiting, waiting := 0 } with tollCount := 0 }
          else
            { t with
              tollWait := t.tollWait + 1, tollCount := if t.wdogLimit = 0 then t.tollCount else t.tollCount + 1,
              oc := if c.kind = .send then t.oc.upd c.oc {} fun o => { o with stall := o.stall + 1 } else t.oc }
      else s)

/-- Whether the data of this store engine's writes on this chip is in place, and nothing waits to be handed on (R125). -/
def State.storesLanded (s : State) (n : Nat) : Bool :=
  !(s.net.any fun p => match p with
    | .write w => decide (w.stream = n)
    | _ => false) && !s.waitsToSend 0 ((s.logicalOf n).getD 0)

/-- The signal of a completed command. -/
def Tile.signalDone (t : Tile) (c : EngCmd) : Tile := if c.sv then t.semAdd c.sem 1 else t

def execEngineCompletion (n : Nat) (store : Bool) (s : State) : Res :=
  .next (
    if (s.tile n).st = .fault then s
    else if store then
      match (s.tile n).stq with
      | [] => s
      | c :: q =>
        if c.done ∧ s.storesLanded n then
          s.modTile n fun t => { t.signalDone c with stq := q, stDone := t.stDone + 1 }
        else s
    else
      match (s.tile n).ldq with
      | [] => s
      | c :: q =>
        if c.done then s.modTile n fun t => { t.signalDone c with ldq := q, ldDone := t.ldDone + 1 } else s)

end Sys2Proof.Machine
end

