-- ==== Sys2Proof/Machine/Sync.lean ====
section
/-! DEFINITION. The sync slot and the sync unit (R144 to R169): waits, signals, belays and channels, and what reaches a tile
over the die network. -/

namespace Sys2Proof.Machine

open Sys2Proof

/-! ### Holding at a wait (R54, R150, R159) -/

/-- Whether a bundle stands at the head of issue, with nothing but its own wait to hold it. -/
def Tile.atHead (t : Tile) : Bool :=
  decide (t.st = .run) && !t.bubble && decide (t.bankHold = 0) && !t.bHold && !t.headBad && !t.used.contains .sy

/-- A row cycle in which the bundle holds. -/
def Tile.holdCycle (t : Tile) : Tile :=
  { t with syHold := true, holdWait := t.holdWait + 1, syCount := if t.wdogLimit = 0 then t.syCount else t.syCount + 1 }

/-- The bundle issues: the SY count restarts. -/
def Tile.release (t : Tile) : Tile := { t.take .sy with syHold := false, syCount := 0 }

/-- A row cycle of the bundle at the head of issue begins: the one in which it held before has ended. -/
def State.nextHold (s : State) (n : Nat) : State := if (s.tile n).syHold then s.modTile n Tile.endRow else s

/-- A row cycle of a bundle at the head of issue: it issues where the condition holds, else it holds. -/
def State.syWait (s : State) (n : Nat) (cond : Tile → Bool) (go : State → State) (hold : Tile → Tile) : State :=
  if (s.tile n).atHead then
    let s1 := s.nextHold n
    if cond (s1.tile n) then go (s1.modTile n Tile.release) else s1.modTile n fun t => (hold t).holdCycle
  else s

def execSyNop (n : Nat) (s : State) : Res := .next (s.issue n .sy fun t => t)

/-! ### Local semaphores -/

def execWait (n : Nat) (f : SyA) (s : State) : Res :=
  .next (s.syWait n (fun t => decide (f.n.toNat ≤ (t.sem f.sem.toNat).value))
    (fun s => s.modTile n fun t => t.semSub f.sem.toNat f.n.toNat) id)

def execWaitK (n : Nat) (f : SyA) (s : State) : Res :=
  .next (s.syWait n (fun t => decide (f.n.toNat ≤ (t.sem f.sem.toNat).value)) id id)

def execSig (n : Nat) (f : SyA) (s : State) : Res := .next (s.issue n .sy fun t => t.semAdd f.sem.toNat f.n.toNat)

def execSdec (n : Nat) (f : SyA) (s : State) : Res := .next (s.issue n .sy fun t => t.semSub f.sem.toNat f.n.toNat)

/-- `rsig`; a poisoned reference sends nothing (R153, R507). -/
def execRsig (n : Nat) (f : SyB) (s : State) : Res :=
  .next (s.issueS n .sy fun t s => if t.gp f.ga then s.ctrlPoison n else s.signalFrom n 1 (t.gv f.ga) f.n.toNat)

/-! ### Belay ports (R156, R157, R218) -/

/-- The port after an arrival. -/
def BPort.arrived (b : BPort) : BPort := { b with tag := b.next, next := b.next + 1 }

/-- Whether the port's most recent arrival has been released. -/
def BPort.released (b : BPort) : Bool := decide ((b.rel - b.tag - 1).toNat ≤ 1)

/-- One arrival of a port at its belay. -/
def State.arrivePort (s : State) (n bp : Nat) : State :=
  let b := (s.tile n).bp.get bp {}
  let s1 := s.modTile n fun t => { t with bp := t.bp.set bp b.arrived }
  if b.valid then s1.arriveFrom n b.chip b.index b.next.toNat else s1

/-- A completed wait on a belay arms the crossings anchored to it: this issue cycle counts as their cycle 0 (R218). -/
def Tile.armCrossings (t : Tile) (bp : Nat) : Tile :=
  let b := t.bp.get bp {}
  { t with crossings := t.crossings.map fun e =>
      if b.valid ∧ e.anchor = b.index then { e with armed := some t.cyc } else e }

def execArrive (n : Nat) (f : SyC) (s : State) : Res :=
  .next (s.issueS n .sy fun _ s => s.arrivePort n f.bp.toNat)

def execBwait (n : Nat) (f : SyC) (s : State) : Res :=
  .next (s.syWait n (fun t => (t.bp.get f.bp.toNat {}).released)
    (fun s => s.modTile n fun t => t.armCrossings f.bp.toNat) id)

/-- `belay` arrives in its first row cycle and then waits. -/
def execBelay (n : Nat) (f : SyC) (s : State) : Res :=
  .next (if (s.tile n).atHead then
    let s1 := if (s.tile n).belaySent then s else
      (s.arrivePort n f.bp.toNat).modTile n fun t => { t with belaySent := true }
    s1.syWait n (fun t => (t.bp.get f.bp.toNat {}).released)
      (fun s => s.modTile n fun t => { t.armCrossings f.bp.toNat with belaySent := false }) id
  else s)

/-! ### Channels: the slot (R163, R166) -/

def execSend (n : Nat) (f : SyD) (s : State) : Res :=
  .next (s.enqueue n .sy
    (fun t => { kind := .send, sv := f.sv = 1, sem := f.sem.toNat, a := t.gv f.ga, oc := f.oc.toNat,
                len := f.len.toNat + 1 })
    (fun t => t.gp f.ga))

/-- The selected channels that hold a staged message, in the order of a search from channel `first`. -/
def Tile.readyChans (t : Tile) (mask : BitVec 16) (first : Nat) : List Nat :=
  ((List.range 16).map fun k => (first + k) % 16).filter fun c =>
    mask.getLsbD c && (t.ch.get c {}).staged.isSome

/-- Each selected channel counts a row cycle of the hold. -/
def Tile.stallChans (t : Tile) (mask : BitVec 16) : Tile :=
  let chans := (List.range 16).filter fun c => mask.getLsbD c
  { t with ch := chans.foldl (fun m c => m.upd c {} fun x => { x with recvStall := x.recvStall + 1 }) t.ch }

/-- The word that a receive gives gD. -/
def recvWord (m : Staged) (c : Nat) : W64 :=
  BitVec.ofNat 64 (m.seq * 2 ^ 48 + c * 2 ^ 36 + (m.len - 1) * 2 ^ 32 + m.pos)

/-- The message of a channel taken into registers; its entries go back to the sender as tolls. -/
def State.receive (s : State) (n c : Nat) (f : SyE) : State :=
  let x := (s.tile n).ch.get c {}
  match x.staged with
  | none => s
  | some m =>
    let s1 := s.modTile n fun t =>
      let t1 := t.fly 1 (.v f.vd.toNat (m.data ++ List.replicate (128 - m.data.length) ⟨0, false⟩))
      let t2 := t1.fly 1 (.g f.gd.toNat (recvWord m c) false)
      { t2 with
        ch := t.ch.set c { x with staged := none, received := x.received + 1,
                                  rdPos := if x.size = 0 then 0 else (m.pos + m.len) % x.size } }
    s1.grant n c m.len

def execRecv (n : Nat) (f : SyE) (s : State) : Res :=
  .next (s.syWait n (fun t => !(t.readyChans f.mask 0).isEmpty)
    (fun s => match (s.tile n).readyChans f.mask 0 with
      | c :: _ => s.receive n c f
      | [] => s)
    (fun t => t.stallChans f.mask))

/-- The channel at which `recv.r` starts its search (R166). -/
def Tile.rotation (t : Tile) : Nat :=
  match t.lastRecv with
  | some c => (c + 1) % 16
  | none => 0

def execRecvR (n : Nat) (f : SyE) (s : State) : Res :=
  .next (s.syWait n (fun t => !(t.readyChans f.mask 0).isEmpty)
    (fun s => match (s.tile n).readyChans f.mask (s.tile n).rotation with
      | c :: _ => (s.receive n c f).modTile n fun t => { t with lastRecv := some c }
      | [] => s)
    (fun t => t.stallChans f.mask))

/-! ### Inbound writes, signals and arrivals (R136, R137, R153, R154) -/

/-- Data of a remote writer or channel sender, counted in INBOUND_BYTES. -/
def Tile.landInbound (t : Tile) (a : Nat) (data : List (Byte × Bool)) : Tile :=
  { t.takeData a data with inboundBytes := t.inboundBytes + BitVec.ofNat 64 data.length }

def execInboundWrite (w : InWrite) (s : State) : Res :=
  .next (if s.mayLand (.write w) then
    (s.land (.write w)).modTile w.tile fun t => t.landInbound w.addr (gransBytes w.data)
  else s)

def execRemoteSignal (r : InSignal) (s : State) : Res :=
  .next (if s.mayLand (.signal r) then (s.land (.signal r)).applySignal r.ref r.inc else s)

def execBelayArrival (ref : W64) (tag : Nat) (s : State) : Res :=
  .next ((s.land (.arrive ref tag)).belayArrive ref tag)

/-! ### Channels: delivery and staging (R162, R164, R165) -/

/-- A message with the effect of R163 at the receiver. -/
def State.deliver (s : State) (m : InMsg) : State :=
  match s.physicalOf m.ltile with
  | none => s.sigDiscard
  | some n =>
    let x := (s.tile n).ch.get m.ch {}
    if x.valid then
      let len := m.data.length / 16
      let clean (l : List Byte) : List (Byte × Bool) := l.map fun b => (b, false)
      let padRec := clean (leBytes 8 (2 ^ 31 + (x.size - m.w - 1) % 4 * 2 ^ 32))
      let msgRec := clean (leBytes 8 (m.seq * 2 ^ 48 + (len - 1) * 2 ^ 32))
      let d := (m.seq + 65536 - x.expSeq.toNat) % 65536
      let item : RingItem := if d < 32768 then .message m.pos len m.seq else .duplicate m.pos len
      let x1 : Chan := { x with items := x.items ++ (if m.pad then [.pad m.w] else []) ++ [item] }
      let x2 : Chan :=
        if d = 0 then { x1 with expSeq := x.expSeq + 1, delivered := x.delivered + 1 }
        else if d < 32768 then
          { x1 with expSeq := BitVec.ofNat 16 (m.seq + 1), delivered := x.delivered + 1, seqGap := true }
        else { x1 with duplicates := x.duplicates + 1 }
      let s1 := s.modTile n fun t =>
        let t1 := if m.pad then t.landInbound (x.base + 64 * x.size + 8 * m.w) padRec else t
        let t2 := t1.landInbound (x.base + 64 * m.pos) (gransBytes m.data)
        let t3 := t2.landInbound (x.base + 64 * x.size + 8 * m.pos) msgRec
        { t3 with ch := t3.ch.set m.ch x2 }
      if 0 < d ∧ d < 32768 then s1.mark (.seqGap n m.ch) else s1
    else s.sigDiscard

def execMessageDelivery (m : InMsg) (s : State) : Res :=
  .next (if s.mayLand (.msg m) then (s.land (.msg m)).deliver m else s)

/-- The item at the read position of a channel whose staging buffer is free. -/
def Tile.ringHead (t : Tile) (c : Nat) : Option RingItem :=
  if (t.ch.get c {}).staged.isSome then none else (t.ch.get c {}).items.head?

def execStageMessage (n : Nat) (c : Nat) (s : State) : Res :=
  .next (match (s.tile n).ringHead c with
    | some (.message p len q) =>
      let x := (s.tile n).ch.get c {}
      let a := x.base + 64 * p
      let data := (s.tile n).spad.readGrans a (64 * len)
      (s.modTile n fun t =>
        { t with ch := t.ch.set c { x with staged := some ⟨p, q, len, data⟩, items := x.items.tail } }).detect n
          ((s.tile n).spad.detects a (64 * len))
    | _ => s)

def execPadSkip (n : Nat) (c : Nat) (s : State) : Res :=
  .next (match (s.tile n).ringHead c with
    | some (.pad p) =>
      let x := (s.tile n).ch.get c {}
      (s.modTile n fun t => { t with ch := t.ch.set c { x with rdPos := 0, items := x.items.tail } }).grant n c
        (x.size - p)
    | _ => s)

def execDuplicateSkip (n : Nat) (c : Nat) (s : State) : Res :=
  .next (match (s.tile n).ringHead c with
    | some (.duplicate p len) =>
      let x := (s.tile n).ch.get c {}
      (s.modTile n fun t =>
        { t with ch := t.ch.set c { x with rdPos := if x.size = 0 then 0 else (p + len) % x.size,
                                           items := x.items.tail } }).grant n c len
    | _ => s)

/-! ### The wait watchdog (R159, R160) and FAULT -/

/-- A tile enters FAULT: it issues nothing further, its engines stop, and base camp is notified. -/
def State.tileFaults (s : State) (n : Nat) (f : Tile → Tile) : State :=
  let s1 := s.modTile n fun t =>
    { (f t).endRow with
      st := .fault, syHold := false, bHold := false,
      stq := t.stq.map fun c => { c with waiting := 0, fresh := false } }
  { s1 with faultsOut := s1.faultsOut ++ [n] }

/-- The limit that LIMIT_LOG2 sets, none where it turns the counts off. -/
def wdogTicks (l : Nat) : Option Nat :=
  if l = 0 then none else some (2 ^ (if l < 16 then 16 else if 40 < l then 40 else l))

/-- Whether a count has reached the limit. -/
def Tile.wdogDue (t : Tile) (toll : Bool) : Bool :=
  match wdogTicks t.wdogLimit.toNat with
  | none => false
  | some m =>
    if toll then decide (m ≤ t.tollCount) && (match t.stq with
      | c :: _ => decide (0 < c.waiting)
      | [] => false)
    else decide (m ≤ t.syCount) && t.syHold

def execWaitWatchdog (n : Nat) (toll : Bool) (s : State) : Res :=
  .next (if (s.tile n).wdogDue toll ∧ (s.tile n).st ≠ .fault then
    s.tileFaults n fun t =>
      { t with
        lastPc := t.pc, syncWdogToll := t.syncWdogToll || toll, syncWdogSy := t.syncWdogSy || !toll }
  else s)

end Sys2Proof.Machine
end

