-- ==== Sys2Proof/Machine/Caravan.lean ====
section
/-! DEFINITION. Caravan ports (R248 to R284): bringing a link up, slots in both directions, answers, retry, order, and the
records that flits carry. Each slot carries one flit; what the rules leave open of retries and order is in log 22. -/

namespace Sys2Proof.Machine

open Sys2Proof

/-! ### Bringing a link up and down (R253 to R255, R263) -/

/-- The first eight bytes of the installed image's digest, zeros without one (R254). -/
def State.ownTag (s : State) : List Byte :=
  match s.image with
  | some m => m.imageDigest.take 8
  | none => List.replicate 8 0

/-- Whether a tag stands for an installed image. -/
def tagSet (t : List Byte) : Bool := t.any fun b => decide (b ≠ 0)

/-- A port whose partner runs another image carries only dynamic-class traffic (R255). -/
def State.dynOnly (s : State) (p : Nat) : Bool :=
  let t := (s.port p).pImageTag
  s.image.isSome && tagSet t && decide (t.take 8 ≠ s.ownTag)

/-- What a port forgets when its link goes away: answers, and the stamps of the link. -/
def CvPort.unlink (x : CvPort) : CvPort := 
  { x with answers := [], idleAns := [], lastTx := none, rxCount := 0, wpT3 := 0, wpArrival := 0 }

/-- A port leaves UP. -/
def State.leaveUp (s : State) (p : Nat) (st : PortSt) : State :=
  (s.modPort p fun x => { (x.unlink).count cvLinkDowns 1 with st := st }).linkEvent 0 p 0

/-- A port in UP fails (R263): its flag is set and its base camp is notified. -/
def State.portFails (s : State) (p : Nat) (flag : CvPort → CvPort) : State :=
  ((s.modPort p flag).leaveUp p .failed).notify 10 (BitVec.ofNat 64 p)

def execPortEnable (p : Nat) (s : State) : Res := .next (s.modPort p fun x => { x with enable := true })

/-- ENABLE is written 0: electrical idle, and DOWN. -/
def State.disablePort (s : State) (p : Nat) : State :=
  let s1 := s.modPort p fun x => { x with enable := false }
  if (s1.port p).st = .up then s1.leaveUp p .down else s1.modPort p fun x => { x.unlink with st := .down }

def execPortDisable (p : Nat) (s : State) : Res := .next (s.disablePort p)

def execSignalPresent (p : Nat) (s : State) : Res :=
  .next (s.modPort p fun x =>
    if x.st = .down ∧ x.enable ∧ !x.retryWait then { x with st := .train } else x)

def execTrainComplete (p : Nat) (s : State) : Res :=
  .next (s.modPort p fun x => if x.st = .train then { x with st := .caps } else x)

def execTrainTimeout (p : Nat) (neverLocked : Bool) (s : State) : Res :=
  .next (s.modPort p fun x =>
    if x.st = .train then { x with st := .down, retryWait := true, errLaneFail := x.errLaneFail || neverLocked } else x)

def execLinkRetryTimer (p : Nat) (s : State) : Res := .next (s.modPort p fun x => { x with retryWait := false })

/-- Whether the chip map cables this chip's port to that partner (R255, R274). -/
def State.cableAgrees (s : State) (p : Nat) (c : CapFlit) : Bool :=
  match s.chipmap.node? s.position with
  | some me => match me.cables[p]? with
    | some (k, pp, n) => decide (k = c.role) && decide (pp = c.port) && decide (n = c.id)
    | none => false
  | none => false

/-- The partner's capability flit. -/
def execCapabilityFlit (p : Nat) (c : CapFlit) (s : State) : Res :=
  .next (if (s.port p).st ≠ .caps ∨ !c.magicOk then s
    else
      let both := s.image.isSome && tagSet c.imageTag
      if ¬ (c.minver ≤ 1 ∧ 1 ≤ c.maxver) then
        s.modPort p fun x => { x with st := .down, retryWait := true, errCap := true }
      else if both && !s.cableAgrees p c then
        s.modPort p fun x => { x with st := .down, retryWait := true, errCable := true }
      else
        s.modPort p fun x =>
          { x with
            st := .align, pVersion := 1, pPort := c.port, pRole := c.role, pId := c.id, pImageTag := c.imageTag,
            errImage := x.errImage || (both && decide (c.imageTag.take 8 ≠ s.ownTag)) })

/-- The round trip is known. A port that comes UP beside an installed image starts with the dynamic class. -/
def execAlignComplete (p : Nat) (rtt : Nat) (s : State) : Res :=
  .next (if (s.port p).st ≠ .align then s
    else if 640 < rtt then s.modPort p fun x => { x with st := .down, retryWait := true, errCable := true }
    else
      (s.modPort p fun x =>
        { x with
          st := .up, rtt := rtt, lastGood := s.cv.slotCount, tbl := s.cv.tbl, alt := s.cv.alt, open_ := s.cv.open_,
          cur := none, previous := none, prevOpen := false, taken := [], missing := [], reorder := [], groups := [],
          wraps := [] }).linkEvent 0 p 1)

/-- Slots after which the port watchdog fires (R286). -/
def CvPort.wdogSlots (x : CvPort) : Option Nat :=
  let l := x.wdogLog2.toNat
  if l = 0 then none else some (2 ^ (if l < 10 then 10 else if 24 < l then 24 else l))

def execPortWatchdog (p : Nat) (s : State) : Res :=
  let x := s.port p
  .next (match x.wdogSlots with
    | some m => if x.st = .up ∧ x.lastGood + m ≤ s.cv.slotCount then s.portFails p fun x => { x with errWdog := true } else s
    | none => s)

def execRetryLimit (p : Nat) (s : State) : Res :=
  let x := s.port p
  .next (if x.st = .up ∧ (x.retry.any fun i => decide (8 ≤ i.sends) || decide (i.firstAt + 2048 ≤ s.cv.slotCount)) then
    s.portFails p fun x => { x with errRetryLimit := true }
  else s)

def execLaneFail (p : Nat) (s : State) : Res :=
  .next (if (s.port p).st = .up then s.portFails p fun x => { x with errLaneFail := true } else s)

/-! ### The classes of slots (R264, R266, R271) -/

/-- What a port may send in a slot. -/
inductive SlotClass where
  | empty
  | dynamic
  | slack
  | scheduled (queue : Nat) (opp : Bool)
  deriving DecidableEq, Repr

/-- The class of slot `i` on a port; where no table gives a slack window, the dynamic slots carry retries too (log 22). -/
def State.slotClass (s : State) (p i : Nat) : SlotClass :=
  let x := s.port p
  if x.open_ || decide (i % 16 = 15) then .dynamic
  else match x.table with
    | none => .empty
    | some t =>
      match t.tx[i]? with
      | none => .empty
      | some e =>
        if e.cls = 2 then .dynamic
        else if t.slackStart ≤ i then .slack
        else if e.cls = 1 && !s.dynOnly p then .scheduled e.queue e.opp
        else .empty

/-- Whether a port has no slack window for its retries. -/
def CvPort.noSlack (x : CvPort) : Bool := x.open_ || x.table.isNone

/-! ### Answers (R260, R261) -/

/-- The answer of the next header: a NAK for the oldest bad transmission, else an ACK for the newest. -/
def CvPort.answer (x : CvPort) : Nat × Nat × CvPort :=
  match x.answers.find? fun a => a.2 with
  | some a => (2, a.1, ({ x with answers := x.answers.erase a }).count cvNaksSent 1)
  | none =>
    match x.answers.getLast? with
    | some a => (1, a.1, { x with answers := [] })
    | none => (0, 0, x)

/-- The slot count of the last transmission with an index. -/
def slotOf (now idx : Nat) : Nat := now - (now + 1024 - idx) % 1024

/-- The flits that no transmission up to `n` without a NAK confirms. -/
def unconfirmed (n : Nat) (l : List RetryItem) : List RetryItem := l.filter fun i => i.sent.all fun t => decide (n < t)

/-- An answer takes effect at the sender: an ACK of `n` confirms every transmission up to it that has not been NAKed, a
NAK those before it; the flit of a NAKed transmission is lost, and a NAKed idle one is to be named again. -/
def CvPort.answered (x : CvPort) (now ak idx : Nat) : CvPort :=
  let n := slotOf now idx
  if ak = 1 then { x with retry := unconfirmed n x.retry }
  else if ak = 2 then
    let y := x.count cvNaksReceived 1
    let naked := y.retry.map fun i =>
      if n ∈ i.sent then { i with sent := i.sent.erase n, lost := true } else i
    if naked = y.retry then
      { y with retry := unconfirmed (n - 1) y.retry, idleAns := if n ∈ y.idleAns then y.idleAns else y.idleAns ++ [n] }
    else { y with retry := unconfirmed (n - 1) naked }
  else x

/-- Transmissions that no answer has covered in time are lost. -/
def execRetryTimeout (p : Nat) (s : State) : Res :=
  .next (s.modPort p fun x =>
    { x with retry := x.retry.map fun i =>
        if i.sent.getLast?.any fun t => decide (t + x.rtt + 4 < s.cv.slotCount) then { i with lost := true } else i })

/-! ### Sending (R261, R264, R266, R270, R276, R277) -/

/-- The priority of a dynamic record. -/
def recPriority : Rec → Nat
  | .waypoint _ => 0
  | .switch _ => 1
  | .freq _ _ => 1
  | .broken _ _ _ => 1
  | .mgmt _ => 2
  | _ => 3

/-- The first record of the highest priority that waits, and the rest. -/
def pickDyn (l : List Routed) : Option (Routed × List Routed) :=
  ((List.range 4).findSome? fun k => l.find? fun r => decide (recPriority r.body = k)).map fun r => (r, l.erase r)

/-- A waypoint as its slot carries it: stamped with the departure, and with the partner's last one (R227, R277). -/
def State.stampWaypoint (s : State) (p : Nat) (r : Routed) : Routed :=
  match r.body with
  | .waypoint w =>
    let w' := { w with t3 := s.clock.localGtc (13 + p), t1 := (s.port p).wpT3, t2 := (s.port p).wpArrival }
    { r with body := .waypoint w' }
  | _ => r

/-- A slot goes out with the answer that its header carries. -/
def CvPort.emit (x : CvPort) (sl : Slot) : CvPort :=
  let (ak, aslot, y) := x.answer
  { y with lastTx := some { sl with ak := ak, aslot := aslot } }

/-- The header of a first transmission in the current slot (R256). -/
def State.slotNow (s : State) (p kind psn : Nat) (flit : BitVec 2048) : Slot :=
  ⟨kind, s.cv.slotCount / 1024 % 4, s.cv.slotCount % 1024, (s.port p).tbl, 0, 0, psn, flit⟩

/-- An idle slot. -/
def State.sendIdle (s : State) (p : Nat) : State := s.modPort p fun x => x.emit (s.slotNow p 0 0 0)

/-- A link-control slot (R254). -/
def State.sendControl (s : State) (p : Nat) (flit : BitVec 2048) : State :=
  s.modPort p fun x => (x.emit (s.slotNow p 3 0 flit)).count cvTxFlits 1

/-- Flits that the retry buffer holds at most (R261). -/
def retryRoom : Nat := 2048

/-- The flit as it leaves a buffer: an uncorrectable error poisons its four quarters (R259). -/
def spoil (ecc : Bool) (psn : Nat) : Nat := if ecc then 15 else psn

/-- An uncorrectable error in a port's retry or reorder buffer is flagged and marks the step (R259). -/
def State.bufferError (s : State) (ecc : Bool) (p : Nat) : State :=
  if ecc then (s.modPort p fun x => { x with errBufEcc := true }).mark (.port p) else s

/-- The first transmission of a flit of a queue. A flit moved from a failed port has stood in that port's retry buffer. -/
def State.sendFlit (s : State) (p queue : Nat) (f : QFlit) (ecc : Bool) : State :=
  let hurt := ecc && f.wrap.isSome
  let sl := s.slotNow p f.kind (spoil hurt f.psn) f.flit
  let now := s.cv.slotCount
  (s.modPort p fun x =>
    let y := (x.emit sl).count cvTxFlits 1
    let z := if queue = 256 then y.count cvDynTx 1 else y
    let w := if f.wrap.isSome then z.count cvDetoured 1 else z
    { w with retry := w.retry ++ [⟨sl, false, 1, queue, now, [now], f.rec_⟩] }).bufferError hurt (f.wrap.getD p)

/-- A lost flit goes out again, as it was first sent, with the poison of its data. -/
def State.sendRetry (s : State) (p : Nat) (i : RetryItem) (ecc : Bool) : State :=
  let sl := { i.slot with psn := spoil ecc i.slot.psn }
  (s.modPort p fun x =>
    let y := ((x.emit sl).count cvTxFlits 1).count cvRetries 1
    { y with retry := y.retry.map fun j =>
        if j = i then { i with slot := sl, lost := false, sends := i.sends + 1, sent := i.sent ++ [s.cv.slotCount] } else j
      }).bufferError ecc p

/-- An idle slot that names a NAKed idle transmission (R261). -/
def State.sendIdleAnswer (s : State) (p n : Nat) : State :=
  s.modPort p fun x =>
    { x.emit ⟨0, n / 1024 % 4, n % 1024, x.tbl, 0, 0, 0, 0⟩ with idleAns := x.idleAns.erase n }

/-- What a port still sends during a warm reset: waypoints, and the BROKEN records that were handed over before it (R284,
R471, log 26). -/
def sentWarm (b : Rec) : Bool :=
  match b with
  | .waypoint _ => true
  | .broken _ _ _ => true
  | _ => false

/-- The dynamic record that goes out next, once the record before it has gone out whole; only a waypoint goes between
(R276). -/
def State.nextDyn (s : State) (p : Nat) : Option (Routed × List Routed) :=
  let x := s.port p
  let l := if s.rst.warm then x.dynq.filter fun r => sentWarm r.body else x.dynq
  pickDyn (if x.dynOut.isEmpty then l else l.filter fun r => decide (recPriority r.body = 0))

/-- A dynamic slot: a waypoint, the next body flit of the record under way, or the highest-priority record that waits. -/
def State.sendDynamic (s : State) (p : Nat) : State :=
  if retryRoom ≤ (s.port p).retry.length then s.sendIdle p
  else match s.nextDyn p with
    | some (r, _) =>
      match recFlits (s.stampWaypoint p r) with
      | [] => s.sendIdle p
      | f :: l =>
        (s.modPort p fun x => { x with dynq := x.dynq.erase r, dynOut := x.dynOut ++ l }).sendFlit p 256 f false
    | none =>
      match (s.port p).dynOut with
      | [] => s.sendIdle p
      | f :: l => (s.modPort p fun x => { x with dynOut := l }).sendFlit p 256 f false

/-- The lost flit that was first sent earliest, and the earliest NAKed idle transmission. -/
def CvPort.firstLost (x : CvPort) : Option RetryItem :=
  x.retry.find? fun i => i.lost && x.retry.all fun j => !j.lost || decide (i.firstAt ≤ j.firstAt)
def CvPort.firstIdle (x : CvPort) : Option Nat := x.idleAns.find? fun n => x.idleAns.all fun m => decide (n ≤ m)

/-- Retries first, in the order of their first transmissions, then dynamic flits, then idle. -/
def State.sendSlack (s : State) (p : Nat) (ecc : Bool) : State :=
  match (s.port p).firstLost, (s.port p).firstIdle with
  | some i, some n => if n < i.firstAt then s.sendIdleAnswer p n else s.sendRetry p i ecc
  | some i, none => s.sendRetry p i ecc
  | none, some n => s.sendIdleAnswer p n
  | none, none => s.sendDynamic p

/-- The first flit of the EAGER queues, the lowest queue first (R270). -/
def CvPort.firstEager (x : CvPort) : Option (Nat × QFlit) :=
  (List.range x.qtab.length).findSome? fun k =>
    match x.qtab[k]?, x.queues.get k [] with
    | some e, f :: _ => if e.eager then some (k, f) else none
    | _, _ => none

/-- A scheduled slot: the next flit of its queue, in an opportunistic slot an eager flit, else idle. -/
def State.sendScheduledSlot (s : State) (p q : Nat) (opp ecc : Bool) : State :=
  let x := s.port p
  let next : Option (Nat × QFlit) :=
    match x.queues.get q [] with
    | f :: _ => some (q, f)
    | [] => if opp then x.firstEager else none
  match next with
  | some (k, f) =>
    if retryRoom ≤ x.retry.length then s.sendIdle p
    else (s.modPort p fun x => { x with queues := x.queues.upd k [] List.tail }).sendFlit p k f ecc
  | none => s.sendIdle p

/-- The bytes of the capability flit that a port sends (R254). -/
def State.capBytes (s : State) (p : Nat) : List Byte :=
  let (role, id) := match s.selfId with
    | some i => if 2 ^ 19 ≤ i then (2, i - 2 ^ 19) else (1, i)
    | none => (0, 0)
  leBytes 4 0x4E565243 ++ [1, 1, 1, BitVec.ofNat 8 p, BitVec.ofNat 8 role, 0, 0, 0] ++ leBytes 4 id ++ s.ownTag
    ++ s.fuses.deviceId

/-- What a port sends in the current slot; `ecc` where the flit leaves a retry buffer with an uncorrectable error. -/
def execSlotTransmit (p : TxSlot) (s : State) : Res :=
  let ecc := p.ecc
  let p := p.port
  let x := s.port p
  .next (match x.st with
    | .caps => s.sendControl p (BitVec.ofNat 2048 (leNat (s.capBytes p)))
    | .align => s.sendControl p (Config.echoFlit s.cv.slotCount)
    | .up =>
      match s.slotClass p (s.cv.slotCount % 1024) with
      | .empty => s.sendIdle p
      | .dynamic => if x.noSlack then s.sendSlack p ecc else s.sendDynamic p
      | .slack => s.sendSlack p ecc
      | .scheduled q opp => if s.rst.warm then s.sendIdle p else s.sendScheduledSlot p q opp ecc
    | _ => s)

/-- A waiting source hands its flit on where there is room, else a depot cycle of waiting counts (R269). -/
def execQueueRoom (p q : Nat) (s : State) : Res :=
  .next (s.modPort p fun x =>
    match x.offers.get q [] with
    | [] => x
    | f :: l =>
      if x.room q then { x with queues := x.queues.upd q [] (· ++ [f]), offers := x.offers.set q l }
      else x.count cvQueueWait 1)

/-! ### Delivery (R258, R267, R272) -/

/-- The chip that a record names, where it names one (R14, R152, R258). -/
def recChip? : Rec → Option Nat
  | .write r => some (r.addr.toNat / 2 ^ 41 % 2 ^ 20)
  | .post r => some (refChip r.ref)
  | .signal r => some (refChip r.ref)
  | .arrive r => some (refChip r.ref)
  | .release r => some (refChip r.ref)
  | .msg r => some r.chip
  | .broken chip _ _ => some chip
  | _ => none

/-- Whether a scheduled record may be delivered here. -/
def State.holdsDest (s : State) (r : Rec) : Bool :=
  s.image.isSome && (match recChip? r with
    | some c => decide (c = s.position)
    | none => true)

/-- A record that this chip discards. -/
def State.discards (s : State) (p n : Nat) : State := s.modPort p fun x => x.count cvDiscards n

/-- The port and sending queue by which a delivered record came, which set its order. -/
def orderKey (p q : Nat) : Nat := 256 * p + q

/-- A record of the scheduled class for this chip (R267, R272). -/
def State.deliverRec (s : State) (p q : Nat) (r : Routed) : State :=
  if r.dyn ∨ !s.holdsDest r.body then s.discards p 1
  else { s with delivered := s.delivered ++ [{ r with src := orderKey p q }] }

/-- Whether a chip-id field may stand in a dynamic record. -/
def State.idLegal (s : State) (id : Nat) : Bool :=
  decide (id / 2 ^ 16 % 8 = 0) &&
    (decide (id < 2 ^ 19) || s.image.isNone || decide (id - 2 ^ 19 < s.chipmap.spares))

/-- Subtypes of base-camp messages that are not reserved (R371, R389, R459). -/
def subtypeKnown (k : Nat) : Bool := (decide (1 ≤ k) && decide (k ≤ 0x0A)) || decide (0x40 ≤ k)

/-- A dynamic record arrives on a port: it is for this chip, or goes on (R272, R276). -/
def State.dynArrive (s : State) (p : Nat) (r : Routed) : State :=
  let take : State := { s with delivered := s.delivered ++ [r] }
  match r.body with
  | .null => s
  | .waypoint _ => take
  | .switch _ => take
  | .freq _ _ => take
  | b =>
    if !s.idLegal r.dst || !s.idLegal r.src then s.discards p 1
    else if !((recChip? b).map s.idLegal).getD true then s.discards p 1
    else if s.isSelf r.dst then
      match b with
      | .mgmt m => if subtypeKnown m.subtype then take else s.discards p 1
      | _ => take
    else if r.ttl ≤ 1 then s.discards p 1
    else s.dynForward (some p) { r with ttl := r.ttl - 1 }

/-! ### Receiving (R256, R259 to R262, R267, R269, R270, R281, R282) -/

/-- The receive-table entry of the partner's slot under a tag, where the entry expects a flit (R267, R281). The tag after
the chip's own selects the tables of the accepted switch, the tag before it those of the last one. -/
def State.rxEntry (s : State) (p tag slot : Nat) : Option RxEntry :=
  let x := s.port p
  let own := s.cv.tbl
  let table : Option Nat :=
    if tag = own then (if x.open_ then none else x.cur)
    else if tag = (own + 1) % 4 then s.cv.pending.bind fun r => if r.alt = 255 then none else x.prepared.or x.cur
    else if tag = (own + 3) % 4 then (if x.prevOpen then none else x.previous)
    else none
  if slot % 16 = 15 then none
  else ((table.bind fun i => x.tables[i]?).bind fun t => t.rx[slot]?).bind fun e => if e.action = 0 then none else some e

/-- The partner's slot count of a first transmission: the nearest one with this LEG and SLOT. -/
def CvPort.countOf (x : CvPort) (leg slot : Nat) : Nat :=
  let d := (leg * 1024 + slot + 4096 - x.rxCount % 4096) % 4096
  if d ≤ 2048 then x.rxCount + d else x.rxCount + d - 4096

/-- A flit has come: it is missing no more, and a later copy of it is a duplicate. -/
def CvPort.take (x : CvPort) (n : Nat) : CvPort :=
  { x with taken := n :: x.taken.filter fun m => decide (n < m + 4096), missing := x.missing.erase n }

/-- A flit that must come again. -/
def CvPort.miss (x : CvPort) (n : Nat) : CvPort := if n ∈ x.missing then x else { x with missing := x.missing ++ [n] }

/-- The sending queue of a receive-table entry, 256 for the dynamic class. -/
def queueOfEntry (e : Option RxEntry) : Nat := (e.map RxEntry.squeue).getD 256

/-- Whether a missing transmission can have carried a flit of a queue, under any tag that is kept. -/
def State.mayHold (s : State) (p n q : Nat) : Bool :=
  let own := s.cv.tbl
  ([own, (own + 1) % 4, (own + 3) % 4].map fun t => queueOfEntry (s.rxEntry p t (n % 1024))).contains q

/-- Whether a flit must wait for an earlier one of its queue (R262). -/
def State.mustWait (s : State) (p n q : Nat) : Bool :=
  let x := s.port p
  (x.missing.any fun m => decide (m < n) && s.mayHold p m q)
    || x.reorder.any fun w => decide (w.first < n) && decide (queueOfEntry w.entry = q)

/-- What becomes of a record whose data is whole: delivered by its queue, or on its way in the dynamic class. -/
def State.actRec (s : State) (p q : Nat) (r : Routed) : State :=
  if q = 256 then (if r.dyn then s.dynArrive p r else s.discards p 1) else s.deliverRec p q r

/-- The records of a group that are whole are acted on, in order; each record's data starts a new body flit (R257). -/
def pumpGo (act : State → Routed → State) : Nat → State → RxGroup → State × RxGroup
  | 0, s, g => (s, g)
  | fuel + 1, s, g =>
    match g.recs with
    | [] => (s, g)
    | (r, n) :: l =>
      if g.data.length < n then (s, g)
      else
        let s1 := match r with
          | some r => act s { r with body := recFill r.body (g.data.take n) }
          | none => s
        pumpGo act fuel s1 ⟨l, []⟩

/-- A group goes as far as its data allows. -/
def State.pump (s : State) (p q : Nat) (g : RxGroup) : State :=
  let (s1, g1) := pumpGo (fun s r => s.actRec p q r) 8 s g
  s1.modPort p fun x =>
    { x with groups := if g1.recs = [] then SMap.erase x.groups q else SMap.set x.groups q g1 }

/-- A flit of a queue whose records are for this chip or of the dynamic class. A record of a reserved TYPE or with a field
that must be zero is discarded with its body (R258). -/
def State.feed (s : State) (p q : Nat) (sl : Slot) : State :=
  if sl.kind = 1 then
    let l := headGroup sl.flit
    let bad := (l.filter fun r => r.1.isNone).length
    (if bad = 0 then s else s.discards p bad).pump p q ⟨l, []⟩
  else match (s.port p).groups.get? q with
    | some g => s.pump p q { g with data := g.data ++ flitUnits sl.flit sl.psn }
    | none => s.discards p 1

/-- The twin of a port, in the reference topology's table (R248): the skip ports have none. -/
def twinOf (p : Nat) : Option Nat := if p % 4 = 3 then none else some (p ^^^ 8)

/-- The port of this chip that a DETOUR record on port `p` names: the one cabled to the partner's OPORT (R282). -/
def State.detouredPort (s : State) (p oport : Nat) : Option Nat :=
  (List.range 16).find? fun q =>
    decide (q ≠ p) && decide ((s.port q).pPort = oport) && decide ((s.port q).pId = (s.port p).pId)
      && decide ((s.port q).pRole = (s.port p).pRole)

/-- A flit whose turn has come, on a queue that wraps nothing: the head of wrapped flits, delivered, or forwarded where
there is room; the second part is false where it is refused (R269). -/
def State.actFlit (s : State) (p : Nat) (e : Option RxEntry) (sl : Slot) : State × Bool :=
  let q := queueOfEntry e
  match (if sl.kind = 1 then headDetours sl.flit else []) with
  | d :: ds => (s.modPort p fun x => { x with wraps := x.wraps ++ (d :: ds).map fun w => (q, w) }, true)
  | [] =>
    match e with
    | none => (s.feed p q sl, true)
    | some e =>
      if e.action = 1 then (s.feed p q sl, true)
      else if (s.port e.outPort).room e.outQueue then
        (s.modPort e.outPort fun y => { y with queues := y.queues.upd e.outQueue [] (· ++ [⟨sl.kind, sl.psn, sl.flit, none, none⟩]) },
          true)
      else (s.modPort p fun x => x.count cvFwdFull 1, false)

/-- The waiting flits of a queue of port `p` whose turn has come, in the order of their first transmissions; `all` where
nothing that is missing can come any more. One that is refused waits on. `fuel` bounds the releases. -/
def releaseGo (act : State → Option RxEntry → Nat → Slot → State × Bool) (p : Nat) (all : Nat → Bool) : Nat → State → State
  | 0, s => s
  | fuel + 1, s =>
    let x := s.port p
    let ready (w : Waiter) : Bool :=
      (all (queueOfEntry w.entry) && x.reorder.all fun v =>
          decide (queueOfEntry v.entry ≠ queueOfEntry w.entry) || decide (w.first ≤ v.first))
        || !s.mustWait p w.first (queueOfEntry w.entry)
    let tryOne (acc : Option State) (w : Waiter) : Option State :=
      match acc with
      | some t => some t
      | none =>
        if ready w then
          let (t, ok) := act s w.entry w.first w.slot
          if ok then some (t.modPort p fun x => { x.take w.first with reorder := x.reorder.erase w }) else none
        else none
    match x.reorder.foldl tryOne none with
    | some t => releaseGo act p all fuel t
    | none => s

/-- The state of a failed port's queue goes over to the twin's queue that carries its route now (R282): the flits that
waited are released, the group under way and the order of the records go on. -/
def State.absorb (s : State) (from_ q to_ q' : Nat) : State :=
  let s1 := releaseGo (fun s e _ sl => s.actFlit from_ e sl) from_ (fun k => decide (k = q)) (s.port from_).reorder.length s
  let g := (s1.port from_).groups.get? q
  let s2 := (s1.modPort from_ fun x => { x with groups := SMap.erase x.groups q }).modPort to_ fun x =>
    match g with
    | some g => { x with groups := SMap.set x.groups q' g }
    | none => x
  { s2 with delivered := s2.delivered.map fun r =>
      if !r.dyn ∧ r.src = orderKey from_ q then { r with src := orderKey to_ q' } else r }

/-- A flit that comes on a failed port's twin on the queue of the same number, behind nothing wrapped: the failed port's
queue goes over to the twin. -/
def State.joinTwin (s : State) (p q : Nat) : State :=
  match twinOf p with
  | some w =>
    let x := s.port w
    if q ≠ 256 ∧ x.st = .failed ∧ ((x.groups.get? q).isSome ∨ x.reorder.any fun v => decide (queueOfEntry v.entry = q)) then
      s.absorb w q p q
    else s
  | none => s

/-- The first DETOUR record that wraps a flit of a queue. -/
def CvPort.wrapOf (x : CvPort) (q : Nat) : Option (Nat × RecDetour) := x.wraps.find? fun w => decide (w.1 = q)

/-- A flit in its turn: a wrapped one is handed to the failed port's receive side by `inner`, as if it had arrived there in
its original slot. -/
def State.turnFlit (inner : State → Nat → Slot → State × Bool) (s : State) (p : Nat) (e : Option RxEntry) (sl : Slot) :
    State × Bool :=
  let q := queueOfEntry e
  match (s.port p).wrapOf q with
  | none => (s.joinTwin p q).actFlit p e sl
  | some w =>
    let done (s : State) : State := s.modPort p fun x => { x with wraps := x.wraps.erase w }
    match s.detouredPort p w.2.oport with
    | none => ((done s).discards p 1, true)
    | some fp =>
      let osl := { sl with leg := w.2.oleg, slot := w.2.oslot, tbl := w.2.otbl }
      let oq := queueOfEntry (s.rxEntry fp w.2.otbl w.2.oslot)
      let (s1, ok) := inner s fp osl
      if !ok then (s1, false)
      else
        let s2 := done s1
        (if ((s2.port p).wrapOf q).isNone ∧ oq ≠ 256 then s2.absorb fp oq p q else s2, true)

/-- Whether a flit in a slot of a sending queue is of the dynamic class all the same, as a partner in open mode sends: a
head by its records, a body flit where its queue can have no head before it (log 22). -/
def State.dynFlit (s : State) (p n : Nat) (sl : Slot) (e : RxEntry) : Bool :=
  let x := s.port p
  if sl.kind = 1 then dynHead sl.flit
  else decide (e.action = 1) && (x.groups.get? 256).isSome && (x.groups.get? e.squeue).isNone && !s.mustWait p n e.squeue

/-- The receive side of a port for a good flit, by its first transmission `n`: a duplicate is discarded; an eager flit, a
head with poison and a flit of no queue are taken and done with; any other is acted on in the order of its queue, or waits
in the reorder buffer of 2,048 flits. The second part is false where the flit must be sent again. A wrapped flit waits for
nothing that is missing: the flits before it have been confirmed. -/
def State.receiveFlit (inner : State → Nat → Slot → State × Bool) (wrapped ecc : Bool) (s : State) (p : Nat) (sl : Slot) :
    State × Bool :=
  let x := s.port p
  let n := x.countOf sl.leg sl.slot
  let e := (s.rxEntry p sl.tbl sl.slot).bind fun e => if s.dynFlit p n sl e then none else some e
  let q := queueOfEntry e
  let drop (s : State) (off : Nat) : State × Bool := (s.modPort p fun x => (x.take n).count off 1, true)
  let act (s : State) (e : Option RxEntry) (sl : Slot) : State × Bool := s.turnFlit inner p e sl
  let before (w : Waiter) : Bool := decide (w.first < n) && decide (queueOfEntry w.entry = q)
  if n ∈ x.taken ∨ x.reorder.any fun w => decide (w.first = n) then (s.modPort p fun x => x.count cvDuplicates 1, true)
  else if sl.kind = 1 ∧ sl.psn ≠ 0 then drop s cvDiscards
  else if e.isNone ∧ sl.kind = 1 ∧ !dynHead sl.flit then drop s cvDiscards
  else match (if sl.kind = 1 ∧ e.isSome then eagerHead sl.flit else none) with
    | some r =>
      if s.image.isNone then drop s cvDiscards
      else if !s.relaxed then drop s cvStrictDiscards
      else ((s.modPort p fun x => x.take n).deliverRec p q ⟨false, 0, 0, 0, .reduce r⟩, true)
    | none =>
      let s0 := if wrapped then
          releaseGo (fun s e _ sl => act s e sl) p (fun k => decide (k = q)) (x.reorder.filter before).length s
        else s
      let s0 := if e.isNone then s0.modPort p fun x => x.count cvDynRx 1 else s0
      if wrapped ∧ (s0.port p).reorder.any before then (s0, false)
      else if !wrapped ∧ s0.mustWait p n q then
        if retryRoom ≤ (s0.port p).reorder.length then (s0.modPort p fun x => x.miss n, false)
        else
          ((s0.modPort p fun x =>
            { x with reorder := x.reorder ++ [⟨n, e, { sl with psn := spoil ecc sl.psn }⟩], missing := x.missing.erase n }).bufferError
              ecc p, true)
      else
        let (s1, ok) := act s0 e sl
        if !ok then (s1.modPort p fun x => x.miss n, false)
        else
          let s2 := s1.modPort p fun x => x.take n
          (releaseGo (fun s e _ sl => act s e sl) p (fun _ => false) (s2.port p).reorder.length s2, true)

/-- A flit that DETOUR records wrap, on the failed port that they name; one wrap may stand in another, as often as ports
have failed. -/
def receiveGo : Nat → State → Nat → Slot → State × Bool
  | 0 => fun s _ _ => (s, true)
  | fuel + 1 => State.receiveFlit (receiveGo fuel) true false

/-- A good flit that a port decodes. -/
def State.receiveSlot (s : State) (p : Nat) (sl : Slot) (ecc : Bool) : State × Bool :=
  State.receiveFlit (receiveGo 16) false ecc s p sl

/-- A wrapped flit at the failed port's receive side, as if it had arrived there in its original slot. -/
def execDetourRecord (p : Nat) (r : RecDetour) (sl : Slot) (s : State) : Res :=
  .next (match s.detouredPort p r.oport with
    | some fp => (receiveGo 16 s fp { sl with leg := r.oleg, slot := r.oslot, tbl := r.otbl }).1
    | none => s.discards p 1)

/-- Transmissions that the partner can send no more: two legs and the round trip have passed (R263). -/
def CvPort.forget (x : CvPort) : CvPort := { x with missing := x.missing.filter fun m => decide (x.rxCount < m + 3072) }

/-- The flits that waited for what is now known not to come. -/
def State.settleOrder (s : State) (p : Nat) : State :=
  releaseGo (fun s e _ sl => s.turnFlit (receiveGo 16) p e sl) p (fun _ => false) (s.port p).reorder.length s

/-- A slot is decoded: `bad` where it overlaps an uncorrectable codeword, `uncorrected` such codewords counted with it,
`corrected` the symbols corrected in it, `ecc` where the flit leaves the reorder buffer with an uncorrectable error. -/
def execSlotReceive (p : Nat) (sl : Slot) (bad : Bool) (ecc : Bool) (corrected : FecCount) (s : State) : Res :=
  let x := s.port p
  let now := x.rxCount
  let idx := now % 1024
  .next (if x.st ≠ .align ∧ x.st ≠ .up then s
    else
      let s1 := s.modPort p fun x => (x.count cvFecCorrected corrected.fixed).count cvFecUncorrected corrected.lost
      if bad then
        s1.modPort p fun x => { x.miss now with answers := x.answers ++ [(idx, true)], rxCount := now + 1 }
      else
        let s2 := s1.modPort p fun x => { x.answered s.cv.slotCount sl.ak sl.aslot with lastGood := s.cv.slotCount }
        let answer (s : State) (i : Nat) (nak : Bool) (next : Nat) : State :=
          s.modPort p fun x => { x with answers := x.answers ++ [(i, nak)], rxCount := next }
        if sl.kind = 3 then
          answer (s2.modPort p fun x => x.count cvRxFlits 1) sl.slot false (4096 + sl.leg * 1024 + sl.slot + 1)
        else if sl.kind = 0 then
          answer ((s2.modPort p fun x => { x.forget with missing := x.missing.erase (x.countOf sl.leg sl.slot) }).settleOrder p)
            idx false (now + 1)
        else
          let s3 := s2.modPort p fun x => x.forget.count cvRxFlits 1
          if x.st = .align ∨ s.rst.warm then answer (s3.discards p 1) idx false (now + 1)
          else
            let (s4, ok) := s3.receiveSlot p sl ecc
            answer s4 idx (!ok) (now + 1))

/-! ### Records at their destination (R136, R137, R153 to R155, R163 to R165, R267) -/

/-- The delivered records before the first one with this body. -/
def beforeRec (b : Rec) : List Routed → List Routed
  | [] => []
  | r :: l => if r.body = b then [] else r :: beforeRec b l

/-- Whether two keys stand for one sending queue: the queues of one number on twin ports count as one (R282). -/
def sameQueue (a b : Nat) : Bool := decide (a = b) || (decide (a % 256 = b % 256) && decide (twinOf (a / 256) = some (b / 256)))

/-- Whether two delivered records keep their order: of one sending queue (R267), or dynamic WRITEs of one sender. -/
def inOrder (a b : Routed) : Bool :=
  if a.dyn ∨ b.dyn then
    (a.dyn == b.dyn) && decide (a.src = b.src) && (match a.body, b.body with
      | .write _, .write _ => true
      | _, _ => false)
  else sameQueue a.src b.src

/-- Whether no earlier record that keeps its order with this one still waits to be acted on. -/
def State.mayAct (s : State) (b : Rec) : Bool :=
  match s.delivered.find? fun r => decide (r.body = b) with
  | none => true
  | some r => !((beforeRec b s.delivered).any fun q => inOrder q r)

/-- A delivered record acts where its turn has come. -/
def State.recAct (s : State) (b : Rec) (f : State → State) : Res :=
  .next (if s.mayAct b then f (s.took fun x => decide (x = b)) else s)

/-- The data of a WRITE at its destination address; control space takes none but a cairn commit (R481), which has a
command of its own. -/
def State.landWrite (s : State) (r : RecWrite) : State :=
  let data := unitsBytes r.data
  let off := r.addr.toNat % 2 ^ 41
  if r.addr.toNat / 2 ^ 61 = 0 then s.hbmWrite off data true
  else if r.addr.toNat / 2 ^ 61 = 1 then
    match s.physicalOf (off / spadBytes) with
    | some n => s.modTile n fun t => t.landInbound (off % spadBytes) data
    | none => s
  else s

/-- The offset of CAIRN_COMMIT (R372). -/
def commitOff : Nat := 0x00A0_0040

/-- Whether a WRITE is a cairn's commit (R351): it waits for its own command. -/
def isCommit (r : RecWrite) : Bool :=
  decide (r.addr.toNat / 2 ^ 61 = 2) && decide (r.addr.toNat % 2 ^ 41 = commitOff)

def execWriteRecord (r : RecWrite) (s : State) : Res :=
  if isCommit r then .next s else s.recAct (.write r) fun s => s.landWrite r
def execPostRecord (r : RecSignal) (s : State) : Res := s.recAct (.post r) fun s => s.applySignal r.ref r.inc
def execSignalRecord (r : RecSignal) (s : State) : Res := s.recAct (.signal r) fun s => s.applySignal r.ref r.inc
def execArriveRecord (r : RecArrive) (s : State) : Res := s.recAct (.arrive r) fun s => s.belayArrive r.ref r.tag
def execReleaseRecord (r : RecRelease) (s : State) : Res :=
  s.recAct (.release r) fun s =>
    if r.toPort then s.releasePort (refTile r.ref) (refIndex r.ref) (BitVec.ofNat 2 r.gen) else s.belayRelease r.ref r.gen
def execMsgRecord (r : RecMsg) (s : State) : Res :=
  s.recAct (.msg r) fun s =>
    s.deliver ⟨none, r.tile, r.ch, r.seq, r.pad, r.w, r.pos, bytesGrans (16 * r.data.length) (unitsBytes r.data)⟩
def execBrokenRecord (chip tile ch : Nat) (s : State) : Res :=
  s.recAct (.broken chip tile ch) fun s => s.breakSenders chip tile ch

end Sys2Proof.Machine
end

