-- ==== Sys2Proof/Machine/Scalar.lean ====
section
/-! DEFINITION. The scalar slot (R61 to R75): one meaning per instruction, over the shared forms below. -/

namespace Sys2Proof.Machine

open Sys2Proof

/-! ### Shared forms -/

/-- A result of class latency `lat` for gD: computed from the tile as it stands at issue. -/
def State.issueG (s : State) (n : Nat) (d : BitVec 5) (lat : Nat) (val : Tile → W64) (poison : Tile → Bool) : State :=
  s.issue n .sc fun t => t.fly lat (.g d.toNat (val t) (poison t))

/-- gD = op gA gB. -/
def State.alu2 (s : State) (n : Nat) (f : ScF) (lat : Nat) (op : W64 → W64 → W64) : State :=
  s.issueG n f.d lat (fun t => op (t.gv f.a) (t.gv f.b)) (fun t => t.gp f.a || t.gp f.b)

/-- gD = op gA, with the immediate inside `op`. -/
def State.alu1 (s : State) (n : Nat) (f : ScF) (lat : Nat) (op : W64 → W64) : State :=
  s.issueG n f.d lat (fun t => op (t.gv f.a)) (fun t => t.gp f.a)

/-- An FP32 result of class S.FP, zero-extended, with its flags (R64). -/
def State.fpOp (s : State) (n : Nat) (f : ScF) (op : Tile → W64 × ArithFlags) (poison : Tile → Bool) : State :=
  s.issue n .sc fun t => (t.fly 4 (.g f.d.toNat (op t).1 (poison t))).flags (op t).2

/-- The FP32 operand of a register: bits 31:0. -/
def Tile.fpv (t : Tile) (r : BitVec 5) : W32 := (t.gv r).setWidth 32

/-- gD = op gA gB over FP32. -/
def State.fp2 (s : State) (n : Nat) (f : ScF) (op : W32 → W32 → W32 × ArithFlags) : State :=
  s.fpOp n f (fun t => ((op (t.fpv f.a) (t.fpv f.b)).1.setWidth 64, (op (t.fpv f.a) (t.fpv f.b)).2))
    (fun t => t.gp f.a || t.gp f.b)

/-- 1 or 0. -/
def bit64 (b : Bool) : W64 := if b then 1 else 0

/-- The number of leading zero bits (R62). -/
def clz64 (x : W64) : W64 := if x = 0 then 64 else BitVec.ofNat 64 (63 - Nat.log2 x.toNat)

/-- The number of one bits among the first `w`. -/
def popcount : Nat → Nat → Nat
  | 0, _ => 0
  | w + 1, x => x % 2 + popcount w (x / 2)

/-- The condition of `fcmp` (R64). -/
def fcmpHolds (c : Nat) (a b : W32) : Bool :=
  let x := fp32 a
  let y := fp32 b
  if x.isNan || y.isNan then decide (c = 3)
  else if c = 0 then x.eqNum y
  else if c = 1 then x.ltNum y
  else if c = 2 then x.ltNum y || x.eqNum y
  else false

/-- Whether a value lies outside a signed integer's range or is no number (R64, R96). -/
def outOfInt (w : Nat) (x : Fp) : Bool :=
  match x with
  | .nan => true
  | .inf _ => true
  | .fin _ _ _ =>
    decide (x.dy.trunc < -((2 ^ (w - 1) : Nat) : Int)) || decide (((2 ^ (w - 1) : Nat) : Int) ≤ x.dy.trunc)

/-! ### Integer instructions (R62, R63) -/

/-- `nop` (R62): the slot does nothing. -/
def execNop (n : Nat) (s : State) : Res := .next (s.issue n .sc fun t => t)
def execAdd (n : Nat) (f : ScF) (s : State) : Res := .next (s.alu2 n f 1 fun a b => a + b)
def execSub (n : Nat) (f : ScF) (s : State) : Res := .next (s.alu2 n f 1 fun a b => a - b)
def execAnd (n : Nat) (f : ScF) (s : State) : Res := .next (s.alu2 n f 1 fun a b => a &&& b)
def execOr (n : Nat) (f : ScF) (s : State) : Res := .next (s.alu2 n f 1 fun a b => a ||| b)
def execXor (n : Nat) (f : ScF) (s : State) : Res := .next (s.alu2 n f 1 fun a b => a ^^^ b)
def execShl (n : Nat) (f : ScF) (s : State) : Res := .next (s.alu2 n f 1 fun a b => a <<< (b.toNat % 64))
def execShr (n : Nat) (f : ScF) (s : State) : Res := .next (s.alu2 n f 1 fun a b => a >>> (b.toNat % 64))
def execSar (n : Nat) (f : ScF) (s : State) : Res := .next (s.alu2 n f 1 fun a b => a.sshiftRight (b.toNat % 64))
def execMul (n : Nat) (f : ScF) (s : State) : Res := .next (s.alu2 n f 3 fun a b => a * b)
def execMulhu (n : Nat) (f : ScF) (s : State) : Res :=
  .next (s.alu2 n f 3 fun a b => BitVec.ofNat 64 (a.toNat * b.toNat / 2 ^ 64))
def execDivu (n : Nat) (f : ScF) (s : State) : Res :=
  .next (s.alu2 n f 24 fun a b => if b = 0 then BitVec.allOnes 64 else BitVec.ofNat 64 (a.toNat / b.toNat))
def execRemu (n : Nat) (f : ScF) (s : State) : Res :=
  .next (s.alu2 n f 24 fun a b => if b = 0 then a else BitVec.ofNat 64 (a.toNat % b.toNat))
def execSlt (n : Nat) (f : ScF) (s : State) : Res := .next (s.alu2 n f 1 fun a b => bit64 (a.slt b))
def execSltu (n : Nat) (f : ScF) (s : State) : Res := .next (s.alu2 n f 1 fun a b => bit64 (a.ult b))
def execSeq (n : Nat) (f : ScF) (s : State) : Res := .next (s.alu2 n f 1 fun a b => bit64 (a == b))
def execMin (n : Nat) (f : ScF) (s : State) : Res := .next (s.alu2 n f 1 fun a b => if b.slt a then b else a)
def execMinu (n : Nat) (f : ScF) (s : State) : Res := .next (s.alu2 n f 1 fun a b => if b.ult a then b else a)
def execMax (n : Nat) (f : ScF) (s : State) : Res := .next (s.alu2 n f 1 fun a b => if a.slt b then b else a)
def execMaxu (n : Nat) (f : ScF) (s : State) : Res := .next (s.alu2 n f 1 fun a b => if a.ult b then b else a)

/-- `sel`: of the two sources only the one selected counts for poison (R64). -/
def execSel (n : Nat) (f : ScF) (s : State) : Res :=
  .next (s.issueG n f.d 1 (fun t => if t.gv f.c ≠ 0 then t.gv f.a else t.gv f.b)
    (fun t => t.gp f.c || (if t.gv f.c ≠ 0 then t.gp f.a else t.gp f.b)))

def execClz (n : Nat) (f : ScF) (s : State) : Res := .next (s.alu1 n f 1 clz64)
def execPopc (n : Nat) (f : ScF) (s : State) : Res :=
  .next (s.alu1 n f 1 fun a => BitVec.ofNat 64 (popcount 64 a.toNat))
def execAddi (n : Nat) (f : ScF) (s : State) : Res := .next (s.alu1 n f 1 fun a => a + f.imm.signExtend 64)
def execAndi (n : Nat) (f : ScF) (s : State) : Res := .next (s.alu1 n f 1 fun a => a &&& f.imm.signExtend 64)
def execOri (n : Nat) (f : ScF) (s : State) : Res := .next (s.alu1 n f 1 fun a => a ||| f.imm.signExtend 64)
def execXori (n : Nat) (f : ScF) (s : State) : Res := .next (s.alu1 n f 1 fun a => a ^^^ f.imm.signExtend 64)
def execShli (n : Nat) (f : ScF) (s : State) : Res := .next (s.alu1 n f 1 fun a => a <<< (f.imm.toNat % 64))
def execShri (n : Nat) (f : ScF) (s : State) : Res := .next (s.alu1 n f 1 fun a => a >>> (f.imm.toNat % 64))
def execSari (n : Nat) (f : ScF) (s : State) : Res :=
  .next (s.alu1 n f 1 fun a => a.sshiftRight (f.imm.toNat % 64))
def execMuli (n : Nat) (f : ScF) (s : State) : Res := .next (s.alu1 n f 3 fun a => a * f.imm.signExtend 64)
def execSlti (n : Nat) (f : ScF) (s : State) : Res :=
  .next (s.alu1 n f 1 fun a => bit64 (a.slt (f.imm.signExtend 64)))
def execSltiu (n : Nat) (f : ScF) (s : State) : Res :=
  .next (s.alu1 n f 1 fun a => bit64 (a.ult (f.imm.signExtend 64)))
def execMovi (n : Nat) (f : ScF) (s : State) : Res :=
  .next (s.issueG n f.d 1 (fun _ => f.imm.signExtend 64) (fun _ => false))
def execMovhi (n : Nat) (f : ScF) (s : State) : Res :=
  .next (s.alu1 n f 1 fun a => (f.imm.setWidth 64 <<< 32) ||| (a.setWidth 32).setWidth 64)

/-! ### FP32 instructions (R64) -/

def execFadd (n : Nat) (f : ScF) (s : State) : Res := .next (s.fp2 n f f32Add)
def execFsub (n : Nat) (f : ScF) (s : State) : Res := .next (s.fp2 n f f32Sub)
def execFmul (n : Nat) (f : ScF) (s : State) : Res := .next (s.fp2 n f f32Mul)
def execFfma (n : Nat) (f : ScF) (s : State) : Res :=
  .next (s.fpOp n f
    (fun t => ((f32Fma (t.fpv f.a) (t.fpv f.b) (t.fpv f.c)).1.setWidth 64,
      (f32Fma (t.fpv f.a) (t.fpv f.b) (t.fpv f.c)).2))
    (fun t => t.gp f.a || t.gp f.b || t.gp f.c))
def execFmin (n : Nat) (f : ScF) (s : State) : Res :=
  .next (s.fp2 n f fun a b => (f32Min a b, ArithFlags.none))
def execFmax (n : Nat) (f : ScF) (s : State) : Res :=
  .next (s.fp2 n f fun a b => (f32Max a b, ArithFlags.none))
def execFcmp (n : Nat) (f : ScF) (s : State) : Res :=
  .next (s.fp2 n f fun a b => (if fcmpHolds (f.x.toNat % 4) a b then 1 else 0, ArithFlags.none))

/-- FP32 to a signed 64-bit integer: toward zero, saturated, 0 for NaN (R64). -/
def execFcvtFi (n : Nat) (f : ScF) (s : State) : Res :=
  .next (s.fpOp n f
    (fun t => (BitVec.ofInt 64 (fpToInt 64 (fp32 (t.fpv f.a)) 0), ArithFlags.inv (outOfInt 64 (fp32 (t.fpv f.a)))))
    (fun t => t.gp f.a))

def execFcvtIf (n : Nat) (f : ScF) (s : State) : Res :=
  .next (s.fpOp n f
    (fun t => ((intToFp32 (t.gv f.a).toInt).1.setWidth 64, (intToFp32 (t.gv f.a).toInt).2))
    (fun t => t.gp f.a))

/-! ### Scratchpad access (R65, R66) -/

/-- The value that a scalar read of bytes gives: little-endian, sign- or zero-extended. -/
def ldsValue (f : ScF) (bs : List (Byte × Bool)) : W64 :=
  let v := leNat (bs.map Prod.fst)
  let w := 8 * f.bytes
  if f.x.toNat / 64 % 2 = 1 ∧ 2 ^ (w - 1) ≤ v then BitVec.ofInt 64 ((v : Int) - (2 ^ w : Nat)) else BitVec.ofNat 64 v

def execLds (n : Nat) (f : ScF) (s : State) : Res :=
  .next (s.issueS n .sc fun t s =>
    let a := t.scAddr f
    let bs := t.spad.read a f.bytes
    (s.modTile n fun t =>
      { t.fly 7 (.g f.d.toNat (ldsValue f bs) (bs.any Prod.snd)) with reqR := t.reqR ++ wordsOf a f.bytes }).detect n
        (t.spad.detects a f.bytes))

def execSts (n : Nat) (f : ScF) (s : State) : Res :=
  .next (s.issue n .sc fun t =>
    let a := t.scAddr f
    { t.fly 3 (.spad a ((leBytes f.bytes (t.gv f.d).toNat).map fun b => (b, t.gp f.d))) with
      reqW := t.reqW ++ wordsOf a f.bytes })

/-! ### Control (R67 to R72, R75) -/

/-- The condition of `br` (R67). -/
def brTaken (c : Nat) (a : W64) : Bool :=
  match c with
  | 0 => true
  | 1 => a == 0
  | 2 => a != 0
  | 3 => a.slt 0
  | 4 => !a.slt 0
  | 5 => !a.slt 0 && a != 0
  | 6 => a.slt 0 || a == 0
  | _ => false

/-- The condition of `brc` (R67). -/
def brcTaken (c : Nat) (a b : W64) : Bool :=
  match c with
  | 0 => a == b
  | 1 => a != b
  | 2 => a.slt b
  | 3 => !a.slt b
  | 4 => a.ult b
  | 5 => !a.ult b
  | _ => false

/-- A taken branch: a bubble, then the target; loops whose body does not hold the target end (R67, R72). -/
def Tile.branchTo (t : Tile) (target : BitVec 12) : Tile :=
  { t with ctl := .jump t.half target,
           loops := t.loops.filter fun l => decide (l.start ≤ target.toNat) && decide (target.toNat < l.start + l.len) }

/-- The bundle at pc + simm. -/
def Tile.relTarget (t : Tile) (f : ScF) : BitVec 12 := t.pc + f.imm.setWidth 12

def execBr (n : Nat) (f : ScF) (s : State) : Res :=
  .next (s.issueS n .sc fun t s =>
    let c := f.x.toNat % 8
    (if brTaken c (t.gv f.a) then s.modTile n fun t => t.branchTo (t.relTarget f) else s).ctrlPoisonIf n
      (decide (c ≠ 0) && t.gp f.a))

def execBrc (n : Nat) (f : ScF) (s : State) : Res :=
  .next (s.issueS n .sc fun t s =>
    (if brcTaken (f.x.toNat % 8) (t.gv f.a) (t.gv f.b) then s.modTile n fun t => t.branchTo (t.relTarget f)
     else s).ctrlPoisonIf n (t.gp f.a || t.gp f.b))

/-- The link that `jal` writes (R68). -/
def Tile.link (t : Tile) : W64 := BitVec.ofNat 64 ((t.half.toNat * 4096) ||| (t.pc.toNat + 1))

def execJal (n : Nat) (f : ScF) (s : State) : Res :=
  .next (s.issue n .sc fun t => (t.fly 1 (.g f.d.toNat t.link false)).branchTo (t.relTarget f))

/-- `ret`: a link of the other half, or with a bit above 12, makes the result unpredictable (R68). -/
def execRet (n : Nat) (f : ScF) (s : State) : Res :=
  s.issueR n .sc fun t s =>
    if (t.gv f.a).toNat / 4096 = t.half.toNat then
      .next ((s.modTile n fun t => t.branchTo ((t.gv f.a).setWidth 12)).ctrlPoisonIf n (t.gp f.a))
    else .fault .badLink

/-- What the marks of a last bundle do to the active loops, newest first (R71): the loops that stay, and the index and
first bundle of the one that goes round again. -/
def lendGo (t : Tile) (marks : BitVec 4) : List LoopFrame → List LoopFrame × Option (Nat × W32 × Nat)
  | [] => ([], none)
  | f :: l =>
    if marks.getLsbD f.lc then
      if (t.lcr f.lc).index.toNat + 1 < f.trip then (f :: l, some (f.lc, (t.lcr f.lc).index + 1, f.start))
      else lendGo t marks l
    else
      let (l', r) := lendGo t marks l
      (f :: l', r)

/-- The LEND marks of the bundle at an index of the active half (R58, R73). -/
def Tile.marksAt (t : Tile) (i : Nat) : BitVec 4 :=
  ((t.imem.get (t.half.toNat * 4096 + i % 4096) 0) >>> 18).setWidth 4

/-- Loop entry (R70): the trip count is latched, the index restarts, and a zero-count body is skipped with the marks of its
last bundle acted on. -/
def Tile.enterLoop (t : Tile) (lc len : Nat) : Tile :=
  let trip := (t.lcr lc).count.toNat
  let t1 := t.fly 1 (.lcIndex lc 0)
  if trip ≠ 0 then
    { t1 with ctl := .jump t.half (t.pc + 1), loops := ⟨lc, t.pc.toNat + 1, len, trip⟩ :: t.loops }
  else
    match lendGo t (t.marksAt (t.pc.toNat + len)) t.loops with
    | (ls, none) => { t1 with ctl := .jump t.half (t.pc + 1 + BitVec.ofNat 12 len), loops := ls }
    | (ls, some (l, i, start)) =>
      { t1.fly 1 (.lcIndex l i) with ctl := .jump t.half (BitVec.ofNat 12 start), loops := ls }

def execLoop (n : Nat) (f : ScF) (s : State) : Res :=
  .next (s.issue n .sc fun t => t.enterLoop f.level (f.imm.toNat % 4096))

def execIswap (n : Nat) (f : ScF) (s : State) : Res :=
  .next (s.issue n .sc fun t => { t with ctl := .jump (!t.half) (f.imm.setWidth 12) })

/-! ### Counters, format registers and identity (R62) -/

def execLcset (n : Nat) (f : ScF) (s : State) : Res :=
  .next (s.issueS n .sc fun t s =>
    (s.modTile n fun t => t.fly 1 (.lcCount f.level ((t.gv f.a).setWidth 32))).ctrlPoisonIf n (t.gp f.a))
def execLcseti (n : Nat) (f : ScF) (s : State) : Res :=
  .next (s.issue n .sc fun t => t.fly 1 (.lcCount f.level f.imm))
def execLcget (n : Nat) (f : ScF) (s : State) : Res :=
  .next (s.issueG n f.d 1 (fun t => (t.lcr f.level).count.setWidth 64) (fun _ => false))
def execLcidx (n : Nat) (f : ScF) (s : State) : Res :=
  .next (s.issueG n f.d 1 (fun t => (t.lcr f.level).index.setWidth 64) (fun _ => false))
def execFset (n : Nat) (f : ScF) (s : State) : Res :=
  .next (s.issueS n .sc fun t s =>
    (s.modTile n fun t => t.fly 2 (.f f.d.toNat ((t.gv f.a).setWidth 32))).ctrlPoisonIf n (t.gp f.a))
def execFseti (n : Nat) (f : ScF) (s : State) : Res :=
  .next (s.issue n .sc fun t => t.fly 2 (.f f.d.toNat f.imm))
def execFget (n : Nat) (f : ScF) (s : State) : Res :=
  .next (s.issueG n f.d 1 (fun t => (t.fr f.a).setWidth 64) (fun _ => false))
def execTid (n : Nat) (f : ScF) (s : State) : Res :=
  .next (s.issueG n f.d 1 (fun _ => BitVec.ofNat 64 ((s.logicalOf n).getD 0)) (fun _ => false))
def execLpos (n : Nat) (f : ScF) (s : State) : Res :=
  .next (s.issueG n f.d 1 (fun _ => BitVec.ofNat 64 s.position) (fun _ => false))
def execRdstep (n : Nat) (f : ScF) (s : State) : Res :=
  .next (s.issueG n f.d 1 (fun _ => s.step) (fun _ => false))

end Sys2Proof.Machine
end

