-- ==== Sys2Proof/Machine/Matrix.lean ====
section
/-! DEFINITION. The matrix slot (R82 to R92): fills, streams, row multiplies and drains. -/

namespace Sys2Proof.Machine

open Sys2Proof

/-! ### Operand formats (R82, R87) -/

/-- A matrix operand's format: 16-bit of a code 1 or 2, or block-scaled. -/
inductive MxFmt where
  | half (code : Nat)
  | block (b : BFmt)
  deriving DecidableEq, Repr

/-- The operand format that a register names; none where the register is one that R23, R24 or R87 does not allow. -/
def mxFmt (tables : SMap (List Byte)) (f : W32) : Option MxFmt :=
  let c := fmtCode f
  if c = 1 ∨ c = 2 then some (.half c)
  else match bfmt? tables c with
    | some b => some (.block b)
    | none => none

def MxFmt.width : MxFmt → Nat
  | .half _ => 16
  | .block b => b.width

/-- The size of an accumulation block: a scale block, or 32 positions of K. -/
def MxFmt.blk : MxFmt → Nat
  | .half _ => 32
  | .block b => b.block

/-- Whether the format takes the exact path (R41). -/
def MxFmt.exact : MxFmt → Bool
  | .half _ => false
  | .block b => decide (b.span ≤ 32)

/-- The value of an element code. -/
def MxFmt.elem (m : MxFmt) (c : Nat) : Fp :=
  match m with
  | .half k => (Ieee.ofCode k).decode c
  | .block b => b.elem c

/-- The factor of a scale byte; 1 for a 16-bit format. -/
def MxFmt.scaleOf (m : MxFmt) (s : Option Nat) : Option Dy :=
  match m with
  | .half _ => some ⟨1, 0⟩
  | .block b =>
    match s with
    | some c => b.scale c
    | none => some ⟨1, 0⟩

def MxFmt.badScales (m : MxFmt) (l : List (Nat × Bool)) : Bool :=
  match m with
  | .half _ => false
  | .block b => l.any fun x => b.badScale x.1

/-- Whether two operands pair (R24): one family, and equal block sizes. -/
def MxFmt.pairs (a b : MxFmt) : Bool :=
  match a, b with
  | .half _, .half _ => true
  | .block x, .block y => decide (x.block = y.block)
  | _, _ => false

/-- The positions of K that one stream covers (R82): stationary format, then streamed format. -/
def kPerStream (st sr : MxFmt) : Nat :=
  match st with
  | .half _ => 64
  | .block b => if b.width = 4 ∧ sr.width = 4 then 256 else 128

/-! ### The streamed row and the dot product (R42, R83, R89, R92) -/

/-- An operand row: elements and scales with the poison of their granules. -/
structure OpRow where
  elems : List (Nat × Bool)
  scales : List (Nat × Bool)
  deriving DecidableEq, Repr

/-- Elements of `w` bits of a span with the poison of the granules that hold their bits. -/
def elemsOf (bs : List (Byte × Bool)) (w n : Nat) : List (Nat × Bool) :=
  let codes := unpackNat w n (leNat (bs.map Prod.fst))
  (List.range n).map fun k =>
    (codes.getD k 0, ((bs.drop (k * w / 8)).take ((k * w % 8 + w + 7) / 8)).any Prod.snd)

/-- The spans of a streamed row of K positions at E and S (R83). -/
def rowSpans (m : MxFmt) (k e s : Nat) : List (Nat × Nat) :=
  match m with
  | .half _ => [(e, k * 2)]
  | .block b => [(e, k * b.width / 8), (s, k / b.block)]

def readRow (m : MxFmt) (sp : Spad) (k e s : Nat) : OpRow :=
  { elems := elemsOf (sp.read e (k * m.width / 8)) m.width k,
    scales := match m with
      | .half _ => []
      | .block b => (sp.read s (k / b.block)).map fun x => (x.1.toNat, x.2) }

/-- A column of a buffer that has not been filled in this run: elements +0 and scales 1.0 (R52, R88). -/
def zeroCol (m : MxFmt) : SbCol :=
  { codes := List.replicate 256 (0, false),
    scales := match m with
      | .half _ => []
      | .block b => List.replicate 16 (if b.e4m3 then 0x38 else 0x7F, false) }

/-- The contribution of one accumulation block, `o` positions into the column (R41 to R43). A scale of zero makes every
finite element of its block a zero (R28), so an infinity of either operand is then multiplied by zero (R42). A NaN or an
infinity that streams against a buffer never filled gives NaN by R42, although R88 calls the product exactly zero:
DEDUCED (log 93). -/
def dotBlock (st sr : MxFmt) (row : OpRow) (col : SbCol) (o b : Nat) : Contrib × ArithFlags :=
  let n := sr.blk
  let xs := ((row.elems.drop (b * n)).take n).map fun x => sr.elem x.1
  let ys := ((col.codes.drop (o + b * n)).take n).map fun x => st.elem x.1
  let sx := sr.scaleOf ((row.scales[b]?).map Prod.fst)
  let sy := st.scaleOf ((col.scales[o / n + b]?).map Prod.fst)
  let scale := match sx, sy with
    | some u, some v => some (u.mul v)
    | _, _ => none
  blockContrib (!(st.exact && sr.exact)) (xs.zip ys) scale
    (scale.any (fun d => decide (d.m = 0)) && (xs ++ ys).any fun x => decide (x = .inf true) || decide (x = .inf false))

/-- The contributions of one stationary column, in ascending K, with the poison that enters them (R44, R92). -/
def dotColumn (st sr : MxFmt) (row : OpRow) (col : SbCol) (o k : Nat) : DotCol × ArithFlags :=
  let nb := k / sr.blk
  let rs := (List.range nb).map (dotBlock st sr row col o)
  ({ blocks := rs.map Prod.fst,
     poison := row.elems.any Prod.snd || row.scales.any Prod.snd
       || ((col.codes.drop o).take k).any Prod.snd || ((col.scales.drop (o / sr.blk)).take nb).any Prod.snd },
   ArithFlags.joinAll (rs.map Prod.snd))

/-! ### Instructions (R87) -/

/-- `mx.nop` (R87): the slot does nothing. -/
def execMxNop (n : Nat) (s : State) : Res := .next (s.issue n .mx fun t => t)

/-- The fill of R88: sixteen read cycles from the issue on, and the switch of the buffer in the 24th. -/
def Tile.startFill (t : Tile) (f : MxF) : Tile :=
  let q : FillReq := { key := t.cyc, sb := f.sb.toNat, fmt := t.fr f.f, e := t.mxE f, s := t.mxS f }
  (t.flyAll ((List.range 16).map fun i => (i, .fillRead q i))).fly 24 (.fillSwitch q.key q.sb)

def execMxFill (n : Nat) (f : MxF) (s : State) : Res :=
  s.issueR n .mx fun t s =>
    match mxFmt s.formats (t.fr f.f) with
    | none => .fault .reservedFormat
    | some _ => .next (s.modTile n fun t => t.startFill f)

/-- What a stream needs of the state as it stands in its issue cycle: the two formats, the positions of K, the offset into
the stationary rows, and the spans it reads. -/
structure StreamPlan where
  st : MxFmt
  sr : MxFmt
  k : Nat
  off : Nat
  e : Nat
  s : Nat
  deriving DecidableEq, Repr

/-- The plan of a stream; none where the formats do not pair (R24). A buffer that has not been filled pairs with every
format (R88); its width, which fixes the positions of K, is the streamed format's: DESIGN CHOICE (log 94). -/
def Tile.streamPlan (t : Tile) (tables : SMap (List Byte)) (f : MxF) : Option StreamPlan :=
  match mxFmt tables (t.fr f.f) with
  | none => none
  | some sr =>
    let b := t.sbuf f.sb.toNat
    match (if b.filled then mxFmt tables b.fmt else some sr) with
    | none => none
    | some st =>
      if st.pairs sr then
        let k := kPerStream st sr
        some { st := st, sr := sr, k := k, off := f.h.toNat * k, e := t.mxE f, s := t.mxS f }
      else none

/-- Column `j` of the buffer that a stream names. -/
def Tile.sbCol (t : Tile) (p : StreamPlan) (b j : Nat) : SbCol :=
  if (t.sbuf b).filled then (t.sbuf b).cols.get j ⟨[], []⟩ else zeroCol p.st

/-- A stream issues (R89): the row is read now, and its contributions reach the accumulator row 8 issue cycles later. -/
def Tile.startStream (t : Tile) (f : MxF) (p : StreamPlan) : Tile :=
  let row := readRow p.sr t.spad p.k p.e p.s
  let rs := (List.range 128).map fun j => dotColumn p.st p.sr row (t.sbCol p f.sb.toNat j) p.off p.k
  let t1 := t.fly 8 (.accStream (accKey f.acc.toNat (t.mxRow f)) (f.z = 1) (rs.map Prod.fst))
  { t1.flags (ArithFlags.joinAll (rs.map Prod.snd)) with
    reqR := t.reqR ++ (rowSpans p.sr p.k p.e p.s).flatMap (fun (x : Nat × Nat) => wordsOf x.1 x.2),
    winStreams := t.winStreams + 1 }

/-- Whether a scale that the stream uses has its sign bit set (R28). -/
def Tile.streamBad (t : Tile) (f : MxF) (p : StreamPlan) : Bool :=
  p.sr.badScales (readRow p.sr t.spad p.k p.e p.s).scales
    || (List.range 128).any fun j =>
      p.st.badScales (((t.sbCol p f.sb.toNat j).scales.drop (p.off / p.sr.blk)).take (p.k / p.sr.blk))

def execMxStream (n : Nat) (f : MxF) (s : State) : Res :=
  s.issueR n .mx fun t s =>
    match t.streamPlan s.formats f with
    | none => .fault .reservedFormat
    | some p =>
      if t.streamBad f p then .fault .negativeScale
      else
        .next ((s.modTile n fun t => t.startStream f p).detect n
          (((rowSpans p.sr p.k p.e p.s).flatMap fun (x : Nat × Nat) => t.spad.detects x.1 x.2).eraseDups))

/-- `mx.rowmul` (R90): vC is read now, the products replace the row 8 issue cycles later. -/
def execMxRowmul (n : Nat) (f : MxF) (s : State) : Res :=
  .next (s.issue n .mx fun t => t.fly 8 (.accMul (accKey f.acc.toNat (t.mxRow f)) (t.vr f.c)))

/-- The clear of a drain with CLR: the row becomes +0 in the next issue cycle (R91). -/
def Tile.drainClear (t : Tile) (f : MxF) : Tile :=
  if f.h = 1 then t.fly 1 (.accClear (accKey f.acc.toNat (t.mxRow f))) else t

/-- `mx.drainv` (R91, R92). -/
def execMxDrainv (n : Nat) (f : MxF) (s : State) : Res :=
  .next (s.issue n .mx fun t =>
    (t.fly 12 (.v f.c.toNat ((List.range 128).map (t.accRow (accKey f.acc.toNat (t.mxRow f))).at_))).drainClear f)

/-- What a drain stores: bytes at E, bytes at S, and the flags of the encoding (R83, R91, R92). `draws` are the 128 draws
of a stochastic rounding; `basePoison`, the poison of their base, enters the elements that draw and the groups that hold
one (R38). -/
def drainData (tables : SMap (List Byte)) (fmt : W32) (row : Lanes) (draws : List Nat) (basePoison : Bool) :
    List (Byte × Bool) × List (Byte × Bool) × ArithFlags :=
  let bp := basePoison && decide (fmtRnd fmt = 1)
  let c := fmtCode fmt
  let lane (j : Nat) : Gran := row.at_ j
  if c = 0 then (gransBytes ((List.range 128).map lane), [], ArithFlags.none)
  else
    match bfmt? tables c with
    | none =>
      let rs := (List.range 128).map fun j =>
        (Ieee.ofCode c).round (fmtRound fmt (draws.getD j 0)) (fp32 (lane j).bits)
      ((List.range 128).flatMap (fun j =>
        (leBytes 2 (rs.getD j (0, ArithFlags.none)).1).map fun b =>
          (b, (lane j).poison || bp && (fp32 (lane j).bits).within (Ieee.ofCode c).top)), [],
        ArithFlags.joinAll (rs.map Prod.snd))
    | some b =>
      let gs := (List.range (128 / b.block)).map fun g =>
        let ls := (List.range b.block).map fun i => lane (g * b.block + i)
        let xs := ls.map fun x => fp32 x.bits
        let (sc, codes, fl) := b.encode (fmtRnd fmt) ((draws.drop (g * b.block)).take b.block) xs
        let p := ls.any Gran.poison || bp && b.drawsAny xs
        ((leBytes (b.block * b.width / 8) (packNat b.width codes)).map fun x => (x, p),
          ((BitVec.ofNat 8 sc : Byte), p), fl)
      (gs.flatMap fun x => x.1, gs.map fun x => x.2.1, ArithFlags.joinAll (gs.map fun x => x.2.2))

/-- `n` draws from an element index on; none are made unless the rounding is stochastic (R38). -/
def drawsFrom (d : Draws) (fmt : W32) (base : W32) (n : Nat) : List Nat :=
  if fmtRnd fmt = 1 then (List.range n).map fun j => d.draw (base + BitVec.ofNat 32 j) else []

/-- The store of a drain (R91): the words are requested 9 issue cycles later, and reads see them after 12. -/
def Tile.startDrain (t : Tile) (tables : SMap (List Byte)) (d : Draws) (f : MxF) : Tile :=
  let fmt := t.fr f.f
  let base := ((t.gv f.c) >>> 32).setWidth 32 + BitVec.ofNat 32 (t.loopIdx f.l.toNat * 128)
  let (es, ss, fl) := drainData tables fmt (t.accRow (accKey f.acc.toNat (t.mxRow f))) (drawsFrom d fmt base 128)
    (t.gp f.c)
  let e := t.mxE f
  let sc := t.mxS f
  let t1 := ((t.fly 9 (.bankWrite (wordsOf e es.length ++ wordsOf sc ss.length))).fly 12 (.spad e es))
  ((if ss = [] then t1 else t1.fly 12 (.spad sc ss)).flags fl).drainClear f

def execMxDrains (n : Nat) (f : MxF) (s : State) : Res :=
  s.issueR n .mx fun t s =>
    if fmtBad s.formats (t.fr f.f) then .fault .reservedFormat
    else .next (s.modTile n fun t => t.startDrain s.formats (s.draws n) f)

end Sys2Proof.Machine
end

