-- ==== Sys2Proof/Machine/Vector.lean ====
section
/-! DEFINITION. The vector slot (R93 to R104): lane-wise arithmetic, masks, reductions, conversions, loads, stores and
chains. -/

namespace Sys2Proof.Machine

open Sys2Proof

/-! ### Shared forms (R94, R101) -/

/-- vD after a lane-wise result: selected lanes take it, the others are kept or become zero. -/
def Tile.mergeLanes (t : Tile) (f : VeF) (sel : BitVec 128) (res : Nat → Gran) : Lanes :=
  (List.range 128).map fun i =>
    if sel.getLsbD i then res i else if f.mz = 1 then ⟨0, false⟩ else (t.vr f.vd).at_ i

/-- The flags of the selected lanes. -/
def selFlags (sel : BitVec 128) (fl : Nat → ArithFlags) : ArithFlags :=
  ArithFlags.joinAll ((List.range 128).map fun i => if sel.getLsbD i then fl i else ArithFlags.none)

/-- A lane-wise instruction: each lane's value, poison and flags from the tile at issue. -/
def Tile.vecOp (t : Tile) (f : VeF) (lat : Nat) (op : Nat → W32 × ArithFlags) (poison : Nat → Bool) : Tile :=
  let sel := t.lanesOf f
  (t.fly lat (.v f.vd.toNat (t.mergeLanes f sel fun i => ⟨(op i).1, poison i⟩))).flags
    (selFlags sel fun i => (op i).2)

/-- Lane-wise over vA. -/
def Tile.vec1 (t : Tile) (f : VeF) (lat : Nat) (op : W32 → W32 × ArithFlags) : Tile :=
  let a := t.vr f.va
  t.vecOp f lat (fun i => op (a.at_ i).bits) (fun i => (a.at_ i).poison)

/-- Lane-wise over vA and vB. -/
def Tile.vec2 (t : Tile) (f : VeF) (lat : Nat) (op : W32 → W32 → W32 × ArithFlags) : Tile :=
  let a := t.vr f.va
  let b := t.vr f.vb
  t.vecOp f lat (fun i => op (a.at_ i).bits (b.at_ i).bits) (fun i => (a.at_ i).poison || (b.at_ i).poison)

/-- An integer operation on lanes. -/
def intOp (op : W32 → W32 → W32) (a b : W32) : W32 × ArithFlags := (op a b, ArithFlags.none)

/-- An operation on the elements of a lane by type T: one FP32, or two 16-bit elements (R93). -/
def byElem1 (ty : Nat) (op : Ieee → Nat → Nat × ArithFlags) (a : W32) : W32 × ArithFlags :=
  if ty = 0 then
    let (x, fl) := op Ieee.fp32 a.toNat
    (BitVec.ofNat 32 x, fl)
  else
    let (x, f1) := op (Ieee.ofCode ty) (a.toNat % 65536)
    let (y, f2) := op (Ieee.ofCode ty) (a.toNat / 65536)
    (BitVec.ofNat 32 (x + 65536 * y), f1.join f2)

def byElem2 (ty : Nat) (op : Ieee → Nat → Nat → Nat × ArithFlags) (a b : W32) : W32 × ArithFlags :=
  if ty = 0 then
    let (x, fl) := op Ieee.fp32 a.toNat b.toNat
    (BitVec.ofNat 32 x, fl)
  else
    let (x, f1) := op (Ieee.ofCode ty) (a.toNat % 65536) (b.toNat % 65536)
    let (y, f2) := op (Ieee.ofCode ty) (a.toNat / 65536) (b.toNat / 65536)
    (BitVec.ofNat 32 (x + 65536 * y), f1.join f2)

def byElem3 (ty : Nat) (op : Ieee → Nat → Nat → Nat → Nat × ArithFlags) (a b c : W32) : W32 × ArithFlags :=
  if ty = 0 then
    let (x, fl) := op Ieee.fp32 a.toNat b.toNat c.toNat
    (BitVec.ofNat 32 x, fl)
  else
    let (x, f1) := op (Ieee.ofCode ty) (a.toNat % 65536) (b.toNat % 65536) (c.toNat % 65536)
    let (y, f2) := op (Ieee.ofCode ty) (a.toNat / 65536) (b.toNat / 65536) (c.toNat / 65536)
    (BitVec.ofNat 32 (x + 65536 * y), f1.join f2)

/-- An exact result rounded to nearest even into its own type (R93), with INVALID. -/
def roundElem (F : Ieee) (x : Fp × Bool) : Nat × ArithFlags :=
  let (b, fl) := F.round Rnd.nearest x.1
  (b, fl.join (ArithFlags.inv x.2))

def elemAdd (F : Ieee) (a b : Nat) : Nat × ArithFlags := roundElem F ((F.decode a).add (F.decode b))
def elemSub (F : Ieee) (a b : Nat) : Nat × ArithFlags := roundElem F ((F.decode a).add (F.decode b).neg)
def elemMul (F : Ieee) (a b : Nat) : Nat × ArithFlags := roundElem F ((F.decode a).mul (F.decode b))
def elemFma (F : Ieee) (a b c : Nat) : Nat × ArithFlags := roundElem F ((F.decode a).fma (F.decode b) (F.decode c))

def elemMax (F : Ieee) (a b : Nat) : Nat × ArithFlags :=
  if (F.decode a).isNan || (F.decode b).isNan then (F.nanBits, ArithFlags.none)
  else (if (F.decode a).below (F.decode b) then b else a, ArithFlags.none)

def elemMin (F : Ieee) (a b : Nat) : Nat × ArithFlags :=
  if (F.decode a).isNan || (F.decode b).isNan then (F.nanBits, ArithFlags.none)
  else (if (F.decode b).below (F.decode a) then b else a, ArithFlags.none)

def elemAbs (F : Ieee) (a : Nat) : Nat × ArithFlags :=
  if (F.decode a).isNan then (F.nanBits, ArithFlags.none) else (a % F.signBit, ArithFlags.none)

def elemNeg (F : Ieee) (a : Nat) : Nat × ArithFlags :=
  if (F.decode a).isNan then (F.nanBits, ArithFlags.none)
  else (if F.signBit ≤ a then a - F.signBit else a + F.signBit, ArithFlags.none)

/-- FP32 x × 2^n, correctly rounded; beyond ±600 the result no longer depends on n (R96, R103). -/
def f32Ldexp (x : W32) (n : Int) : W32 × ArithFlags :=
  let k := Max.max (-600) (Min.min 600 n)
  match fp32 x with
  | .fin s m e => toFp32 (.fin s m (e + k)) false
  | y => toFp32 y false

/-- The latency of an instruction whose integer form is of class V.SIMPLE (R96). -/
def VeF.latFma (f : VeF) : Nat := if f.ty = 3 then 2 else 4

/-! ### Lane-wise arithmetic (R96) -/

/-- `vnop` (R96): the slot does nothing. -/
def execVnop (n : Nat) (s : State) : Res := .next (s.issue n .ve fun t => t)

def execVadd (n : Nat) (f : VeF) (s : State) : Res :=
  .next (s.issue n .ve fun t => t.vec2 f (VeF.latFma f) (if f.ty = 3 then intOp (· + ·) else byElem2 f.ty elemAdd))
def execVsub (n : Nat) (f : VeF) (s : State) : Res :=
  .next (s.issue n .ve fun t => t.vec2 f (VeF.latFma f) (if f.ty = 3 then intOp (· - ·) else byElem2 f.ty elemSub))
def execVmul (n : Nat) (f : VeF) (s : State) : Res :=
  .next (s.issue n .ve fun t => t.vec2 f 4 (if f.ty = 3 then intOp (· * ·) else byElem2 f.ty elemMul))
def execVfma (n : Nat) (f : VeF) (s : State) : Res :=
  .next (s.issue n .ve fun t =>
    let a := t.vr f.va
    let b := t.vr f.vb
    let c := t.vr f.vc
    t.vecOp f 4 (fun i => byElem3 f.ty elemFma (a.at_ i).bits (b.at_ i).bits (c.at_ i).bits)
      (fun i => (a.at_ i).poison || (b.at_ i).poison || (c.at_ i).poison))
def execVmax (n : Nat) (f : VeF) (s : State) : Res :=
  .next (s.issue n .ve fun t => t.vec2 f (VeF.latFma f)
    (if f.ty = 3 then intOp (fun a b => if a.slt b then b else a) else byElem2 f.ty elemMax))
def execVmin (n : Nat) (f : VeF) (s : State) : Res :=
  .next (s.issue n .ve fun t => t.vec2 f (VeF.latFma f)
    (if f.ty = 3 then intOp (fun a b => if b.slt a then b else a) else byElem2 f.ty elemMin))
def execVabs (n : Nat) (f : VeF) (s : State) : Res :=
  .next (s.issue n .ve fun t => t.vec1 f 2
    (if f.ty = 3 then (fun a => (if a.slt 0 then -a else a, ArithFlags.none)) else byElem1 f.ty elemAbs))
def execVneg (n : Nat) (f : VeF) (s : State) : Res :=
  .next (s.issue n .ve fun t => t.vec1 f 2
    (if f.ty = 3 then (fun a => (-a, ArithFlags.none)) else byElem1 f.ty elemNeg))
def execVldexp (n : Nat) (f : VeF) (s : State) : Res :=
  .next (s.issue n .ve fun t => t.vec2 f 4 fun a b => f32Ldexp a b.toInt)

/-- A comparison outcome under a condition of `vcmp` (R96). -/
def cmpCond (c : Nat) (lt eq : Bool) : Bool :=
  match c with
  | 0 => eq
  | 1 => !eq
  | 2 => lt
  | 3 => lt || eq
  | 4 => !lt && !eq
  | 5 => !lt
  | _ => false

/-- The condition on two floating-point elements. -/
def cmpElem (F : Ieee) (c a b : Nat) : Bool :=
  let x := F.decode a
  let y := F.decode b
  if x.isNan || y.isNan then decide (c = 1) || decide (c = 6) else cmpCond c (x.ltNum y) (x.eqNum y)

/-- The bit of `vcmp` on one lane: for 16-bit types it holds for both elements (R96). -/
def cmpLane (ty c : Nat) (a b : W32) : Bool :=
  if ty = 3 then cmpCond c (a.slt b) (a == b)
  else if ty = 0 then cmpElem Ieee.fp32 c a.toNat b.toNat
  else cmpElem (Ieee.ofCode ty) c (a.toNat % 65536) (b.toNat % 65536)
    && cmpElem (Ieee.ofCode ty) c (a.toNat / 65536) (b.toNat / 65536)

/-- 128 bits from a function of the bit number. -/
def maskOf (p : Nat → Bool) : BitVec 128 :=
  BitVec.ofNat 128 ((List.range 128).foldr (fun i acc => acc + if p i then 2 ^ i else 0) 0)

/-- The k register of a destination or source field: its low three bits. -/
def kIdx (r : BitVec 5) : Nat := r.toNat % 8

def execVcmp (n : Nat) (f : VeF) (s : State) : Res :=
  .next (s.issueS n .ve fun t s =>
    let sel := t.lanesOf f
    let a := t.vr f.va
    let b := t.vr f.vb
    let old := t.kr (kIdx f.vd)
    let m := maskOf fun i =>
      if sel.getLsbD i then cmpLane f.ty (f.sub.toNat / 4 % 8) (a.at_ i).bits (b.at_ i).bits
      else f.mz = 0 && old.getLsbD i
    let bad := (List.range 128).any fun i => sel.getLsbD i && ((a.at_ i).poison || (b.at_ i).poison)
    (s.modTile n fun t => t.fly 2 (.k (kIdx f.vd) m)).ctrlPoisonIf n bad)

def execVand (n : Nat) (f : VeF) (s : State) : Res := .next (s.issue n .ve fun t => t.vec2 f 2 (intOp (· &&& ·)))
def execVor (n : Nat) (f : VeF) (s : State) : Res := .next (s.issue n .ve fun t => t.vec2 f 2 (intOp (· ||| ·)))
def execVxor (n : Nat) (f : VeF) (s : State) : Res := .next (s.issue n .ve fun t => t.vec2 f 2 (intOp (· ^^^ ·)))
def execVshl (n : Nat) (f : VeF) (s : State) : Res :=
  .next (s.issue n .ve fun t => t.vec2 f 2 (intOp fun a b => a <<< (b.toNat % 32)))
def execVshr (n : Nat) (f : VeF) (s : State) : Res :=
  .next (s.issue n .ve fun t => t.vec2 f 2 (intOp fun a b => a >>> (b.toNat % 32)))
def execVsar (n : Nat) (f : VeF) (s : State) : Res :=
  .next (s.issue n .ve fun t => t.vec2 f 2 (intOp fun a b => a.sshiftRight (b.toNat % 32)))

/-! ### Moves (R96) -/

def execVmov (n : Nat) (f : VeF) (s : State) : Res :=
  .next (s.issue n .ve fun t => t.vec1 f 2 fun a => (a, ArithFlags.none))
def execVbcast (n : Nat) (f : VeF) (s : State) : Res :=
  .next (s.issue n .ve fun t => t.vecOp f 2 (fun _ => ((t.gv f.ga).setWidth 32, ArithFlags.none)) (fun _ => t.gp f.ga))
def execVsplat (n : Nat) (f : VeF) (s : State) : Res :=
  .next (s.issue n .ve fun t => t.vecOp f 2 (fun _ => (f.imm, ArithFlags.none)) (fun _ => false))
def execViota (n : Nat) (f : VeF) (s : State) : Res :=
  .next (s.issue n .ve fun t => t.vecOp f 2 (fun i => (f.imm + BitVec.ofNat 32 i, ArithFlags.none)) (fun _ => false))
def execVextr (n : Nat) (f : VeF) (s : State) : Res :=
  .next (s.issue n .ve fun t =>
    let x := (t.vr f.va).at_ (f.imm.toNat % 128)
    t.fly 6 (.g f.ga.toNat (x.bits.setWidth 64) x.poison))
def execVinsl (n : Nat) (f : VeF) (s : State) : Res :=
  .next (s.issue n .ve fun t =>
    t.fly 2 (.v f.vd.toNat ((List.range 128).map fun i =>
      if i = f.imm.toNat % 128 then ⟨(t.gv f.ga).setWidth 32, t.gp f.ga⟩ else (t.vr f.vd).at_ i)))

/-! ### Conversions (R100) -/

/-- Element `e` of a pair of registers that `vnarrow` reads. -/
def narrowSrc (a b : Lanes) (e : Nat) : Gran := if e < 128 then a.at_ e else b.at_ (e - 128)

/-- Element `e` of a register of 16-bit elements (R93). -/
def halfElem (a : Lanes) (e : Nat) : Nat := (a.at_ (e / 2)).bits.toNat / 65536 ^ (e % 2) % 65536

def execVnarrow (n : Nat) (f : VeF) (s : State) : Res :=
  s.issueR n .ve fun t s =>
    let fmt := t.fr f.f
    if fmtBad s.formats fmt || decide (fmtCode fmt ≠ 1) && decide (fmtCode fmt ≠ 2) then .fault .reservedFormat
    else
      let a := t.vr f.va
      let b := t.vr f.vb
      let d := s.draws n
      let base : W32 := (t.gv f.ga).setWidth 32
      let one (e : Nat) : Nat × ArithFlags :=
        (Ieee.ofCode (fmtCode fmt)).round
          (fmtRound fmt (if fmtRnd fmt = 1 then d.draw (base + BitVec.ofNat 32 e) else 0)) (fp32 (narrowSrc a b e).bits)
      .next (s.modTile n fun t => t.vecOp f 4
        (fun i => (BitVec.ofNat 32 ((one (2 * i)).1 + 65536 * (one (2 * i + 1)).1),
          (one (2 * i)).2.join (one (2 * i + 1)).2))
        (fun i => [2 * i, 2 * i + 1].any fun e => (narrowSrc a b e).poison
          || decide (fmtRnd fmt = 1) && t.gp f.ga && (fp32 (narrowSrc a b e).bits).within (Ieee.ofCode (fmtCode fmt)).top))

def execVwiden (n : Nat) (f : VeF) (s : State) : Res :=
  s.issueR n .ve fun t s =>
    let fmt := t.fr f.f
    if fmtBad s.formats fmt || decide (fmtCode fmt ≠ 1) && decide (fmtCode fmt ≠ 2) then .fault .reservedFormat
    else
      let a := t.vr f.va
      let h := 128 * (f.imm.toNat % 2)
      .next (s.modTile n fun t => t.vecOp f 4
        (fun i => toFp32 ((Ieee.ofCode (fmtCode fmt)).decode (halfElem a (h + i))) false)
        (fun i => (a.at_ ((h + i) / 2)).poison))

def execVcvtFi (n : Nat) (f : VeF) (s : State) : Res :=
  .next (s.issue n .ve fun t => t.vec1 f 4 fun a =>
    (BitVec.ofInt 32 (fpToInt 32 (fp32 a) 0), ArithFlags.inv (outOfInt 32 (fp32 a))))
def execVcvtIf (n : Nat) (f : VeF) (s : State) : Res :=
  .next (s.issue n .ve fun t => t.vec1 f 4 fun a => intToFp32 a.toInt)

/-- The packed row of 128 lanes (R100, R101): elements from byte 0, scales from byte 128, zeros elsewhere. -/
def packRow (tables : SMap (List Byte)) (fmt : W32) (a : Lanes) (draws : List Nat) (basePoison : Bool) :
    Lanes × ArithFlags :=
  let (es, ss, fl) := drainData tables fmt a draws basePoison
  let zeros (k : Nat) : List (Byte × Bool) := List.replicate k (0, false)
  (bytesGrans 128 (es ++ zeros (128 - es.length) ++ ss ++ zeros (384 - ss.length)), fl)

def execVpack (n : Nat) (f : VeF) (s : State) : Res :=
  s.issueR n .ve fun t s =>
    let fmt := t.fr f.f
    if fmtBad s.formats fmt || decide (fmtCode fmt ≤ 2) then .fault .reservedFormat
    else
      let r := packRow s.formats fmt (t.vr f.va)
        (drawsFrom (s.draws n) fmt ((t.gv f.ga).setWidth 32) 128) (t.gp f.ga)
      .next (s.modTile n fun t => (t.fly 4 (.v f.vd.toNat r.1)).flags r.2)

/-- A packed row's block `g`: its element bytes and its scale byte with their lanes' poison. -/
def packedBlock (b : BFmt) (bytes : List (Byte × Bool)) (g : Nat) : List (Byte × Bool) × (Byte × Bool) :=
  let w := b.block * b.width / 8
  ((bytes.drop (g * w)).take w, bytes.getD (128 + g) (0, false))

def execVunpack (n : Nat) (f : VeF) (s : State) : Res :=
  s.issueR n .ve fun t s =>
    let fmt := t.fr f.f
    match fmtBlock s.formats fmt with
    | none => .fault .reservedFormat
    | some b =>
      let bytes := (t.vr f.va).bytes
      let blocks := (List.range (128 / b.block)).map (packedBlock b bytes)
      if fmtBad s.formats fmt then .fault .reservedFormat
      else if blocks.any fun x => b.badScale x.2.1.toNat then .fault .negativeScale
      else
        let dec := blocks.map fun x =>
          (unpackNat b.width b.block (leNat (x.1.map Prod.fst)), b.scale x.2.1.toNat, x.2.2 || x.1.any Prod.snd)
        let at_ (i : Nat) : List Nat × Option Dy × Bool := dec.getD (i / b.block) ([], none, false)
        .next (s.modTile n fun t => t.vecOp f 4
          (fun i =>
            let (x, f1) := b.value (at_ i).2.1 ((at_ i).1.getD (i % b.block) 0)
            let (y, f2) := toFp32 x false
            (y, f1.join f2))
          (fun i => (at_ i).2.2))

def execVcurve (n : Nat) (f : VeF) (s : State) : Res :=
  .next (s.issue n .ve fun t => t.vec1 f 8 (curveEval (t.curve (f.sub.toNat % 16))))

/-! ### Reductions (R98) -/

/-- One level: neighbours combined. -/
def pairUp (op : W32 → W32 → W32 × ArithFlags) : List W32 → List W32 × ArithFlags
  | a :: b :: l =>
    let (x, f1) := op a b
    let (r, f2) := pairUp op l
    (x :: r, f1.join f2)
  | l => (l, ArithFlags.none)

/-- Levels of the tree, until one value remains. -/
def treeReduce (op : W32 → W32 → W32 × ArithFlags) : Nat → List W32 → W32 × ArithFlags
  | 0, l => (l.headD 0, ArithFlags.none)
  | k + 1, l =>
    let (r, f1) := pairUp op l
    let (x, f2) := treeReduce op k r
    (x, f1.join f2)

/-- A reduction across lanes: an unselected lane counts as the identity, every lane of vD takes the result. -/
def Tile.reduceLanes (t : Tile) (f : VeF) (ident : W32) (op : W32 → W32 → W32 × ArithFlags) : Tile :=
  let sel := t.lanesOf f
  let a := t.vr f.va
  let (x, fl) := treeReduce op 7 ((List.range 128).map fun i => if sel.getLsbD i then (a.at_ i).bits else ident)
  let p := (List.range 128).any fun i => sel.getLsbD i && (a.at_ i).poison
  (t.fly 9 (.v f.vd.toNat (List.replicate 128 ⟨x, p⟩))).flags fl

def execVrsum (n : Nat) (f : VeF) (s : State) : Res :=
  .next (s.issue n .ve fun t => t.reduceLanes f 0x80000000 f32Add)
def execVrmax (n : Nat) (f : VeF) (s : State) : Res :=
  .next (s.issue n .ve fun t => t.reduceLanes f 0xFF800000 fun a b => (f32Max a b, ArithFlags.none))
def execVrmin (n : Nat) (f : VeF) (s : State) : Res :=
  .next (s.issue n .ve fun t => t.reduceLanes f 0x7F800000 fun a b => (f32Min a b, ArithFlags.none))
def execVrisum (n : Nat) (f : VeF) (s : State) : Res :=
  .next (s.issue n .ve fun t => t.reduceLanes f 0 fun a b => (a + b, ArithFlags.none))

/-! ### Compress, expand, permute (R99) -/

/-- The selected lane numbers, ascending. -/
def selected (sel : BitVec 128) : List Nat := (List.range 128).filter fun i => sel.getLsbD i

def execVcompress (n : Nat) (f : VeF) (s : State) : Res :=
  .next (s.issue n .ve fun t =>
    let ls := selected (t.lanesOf f)
    let out := (List.range 128).map fun i =>
      if i < ls.length then (t.vr f.va).at_ (ls.getD i 0)
      else if f.mz = 1 then ⟨0, false⟩ else (t.vr f.vd).at_ i
    (t.fly 6 (.v f.vd.toNat out)).fly 6 (.g f.ga.toNat (BitVec.ofNat 64 ls.length) false))
def execVexpand (n : Nat) (f : VeF) (s : State) : Res :=
  .next (s.issue n .ve fun t =>
    let sel := t.lanesOf f
    let rank (i : Nat) := ((List.range i).filter fun j => sel.getLsbD j).length
    t.fly 6 (.v f.vd.toNat (t.mergeLanes f sel fun i => (t.vr f.va).at_ (rank i))))
def execVperm (n : Nat) (f : VeF) (s : State) : Res :=
  .next (s.issue n .ve fun t =>
    let b := t.vr f.vb
    t.fly 6 (.v f.vd.toNat (t.mergeLanes f (t.lanesOf f) fun i =>
      let x := (t.vr f.va).at_ ((b.at_ i).bits.toNat % 128)
      ⟨x.bits, x.poison || (b.at_ i).poison⟩)))
def execVrot (n : Nat) (f : VeF) (s : State) : Res :=
  .next (s.issue n .ve fun t =>
    t.fly 6 (.v f.vd.toNat (t.mergeLanes f (t.lanesOf f) fun i => (t.vr f.va).at_ ((i + f.imm.toNat % 128) % 128))))

/-! ### Masks (R96) -/

/-- kD = op kA kB. -/
def Tile.maskOp (t : Tile) (f : VeF) (op : BitVec 128 → BitVec 128 → BitVec 128) : Tile :=
  t.fly 2 (.k (kIdx f.vd) (op (t.kr (kIdx f.va)) (t.kr (kIdx f.vb))))

def execKand (n : Nat) (f : VeF) (s : State) : Res := .next (s.issue n .ve fun t => t.maskOp f (· &&& ·))
def execKor (n : Nat) (f : VeF) (s : State) : Res := .next (s.issue n .ve fun t => t.maskOp f (· ||| ·))
def execKxor (n : Nat) (f : VeF) (s : State) : Res := .next (s.issue n .ve fun t => t.maskOp f (· ^^^ ·))
def execKandn (n : Nat) (f : VeF) (s : State) : Res := .next (s.issue n .ve fun t => t.maskOp f fun a b => a &&& ~~~b)
def execKfirst (n : Nat) (f : VeF) (s : State) : Res :=
  .next (s.issueS n .ve fun t s =>
    (s.modTile n fun t => t.fly 2 (.k (kIdx f.vd) (maskOf fun i => decide (i < (t.gv f.ga).toNat)))).ctrlPoisonIf n
      (t.gp f.ga))
def execKpopc (n : Nat) (f : VeF) (s : State) : Res :=
  .next (s.issue n .ve fun t =>
    t.fly 2 (.g f.ga.toNat (BitVec.ofNat 64 (popcount 128 (t.kr (kIdx f.va)).toNat)) false))

/-! ### Loads and stores, and scheduled crossings (R97, R216 to R220) -/

/-- The crossing that an access in this issue cycle carries out: a full span with no mask at an armed entry's cycle. -/
def Tile.crossing (t : Tile) (write : Bool) (f : VeF) : Option SeqEntry :=
  if VeF.lanes f = 128 ∧ f.km = 0 then
    t.crossings.find? fun e => e.write == write && (match e.armed with
      | some a => decide (a + e.cycle = t.cyc)
      | none => false)
  else none

/-- The key of a boundary queue. -/
def bqKey (pair dir : Nat) : Nat := 2 * pair + dir

def State.bq (s : State) (k : Nat) : BQueue := s.bqs.get k {}

def BQueue.slot (q : BQueue) (i : Nat) : BqSlot := q.slots.get i {}

/-- The slots that are full. -/
def BQueue.depth (q : BQueue) : Nat := (q.slots.filter fun x => x.2.full).length

/-- The physical tiles of a row. -/
def rowTiles (r : Nat) : List Nat := (List.range 25).map fun k => 25 * r + k

/-- Every tile of a row changed where a condition holds. -/
def State.modRowTiles (s : State) (r : Nat) (c : Tile → Bool) (f : Tile → Tile) : State :=
  (rowTiles r).foldl (fun s m => if c (s.tile m) then s.modTile m f else s) s

/-- Whether the slot of a crossing is not ready: not full for a read, not empty for a write (R220). -/
def State.notReady (s : State) (h : BHold) : Bool := ((s.bq (bqKey h.pair h.dir)).slot h.slot).full != h.read

/-- A row cycle of a boundary hold (R220): every tile of the row in RUN or HOLD holds and counts it, but for one whose
bank-conflict stall is served first; each queue that a crossing waits at counts it. -/
def State.boundaryHold (s : State) (r : Nat) (hs : List BHold) : State :=
  let s1 := s.modRowTiles r (fun t => decide (t.st = .run ∨ t.st = .hold)) fun t =>
    { t with bHold := true, holdBoundary := if t.bankHold = 0 then t.holdBoundary + 1 else t.holdBoundary }
  let s2 := s1.modRow r fun w => { w with holds := hs, holdCount := (if w.holds.isEmpty then 0 else w.holdCount) + 1 }
  let waits := ((hs.filter s.notReady).map fun h => (bqKey h.pair h.dir, h.read)).eraseDups
  { s2 with bqs := waits.foldl (fun m x => m.upd x.1 {} fun q =>
      if x.2 then { q with holdEmpty := q.holdEmpty + 1 } else { q with holdFull := q.holdFull + 1 }) s2.bqs }

/-- The row's hold is over. -/
def State.endBoundaryHold (s : State) (r : Nat) : State :=
  (s.modRowTiles r Tile.bHold fun t => { t with bHold := false }).modRow r fun w => { w with holds := [], holdCount := 0 }

/-- The next row cycle of a row that holds, at the crossing of the tile that began the hold: the row goes on holding while
any crossing of it is not ready, else the bundles issue. -/
def State.nextBoundaryCycle (s : State) (r : Nat) (hs : List BHold) (go : State → State) : State :=
  let s1 := s.modRowTiles r (fun t => t.bHold && t.inCycle) Tile.endRow
  match hs with
  | [] => s
  | h :: l =>
    let l1 := l.filter s1.notReady
    if s1.notReady h || !l1.isEmpty then s1.boundaryHold r (h :: l1) else go (s1.endBoundaryHold r)

/-- The issue of a `vld` or `vst`: at an armed crossing whose slot is not ready the row holds, until no crossing of a held
bundle waits (R218, R220). -/
def State.issueCross (s : State) (n : Nat) (write : Bool) (f : VeF) (go : Option SeqEntry → State → State) : State :=
  let t := s.tile n
  let r := rowOf n
  let act (e : Option SeqEntry) (s : State) : State := go e (s.take n .ve)
  if decide (t.st = .run) && !t.bubble && decide (t.bankHold = 0) && !t.syHold && !t.headBad && !t.used.contains .ve then
    match t.crossing write f with
    | none => if t.bHold then s else act none s
    | some e =>
      let h : BHold := ⟨n, e.pair, e.dir, e.slot, !write⟩
      if t.bHold then
        if (s.row r).holds.head? = some h then s.nextBoundaryCycle r (s.row r).holds (act (some e))
        else if s.notReady h && !(s.row r).holds.contains h then s.modRow r fun w => { w with holds := w.holds ++ [h] }
        else s
      else if s.notReady h then s.boundaryHold r [h]
      else act (some e) s
  else s

/-- The slot that a crossing writes becomes full with vA (R218, R242). -/
def State.fillSlot (s : State) (e : SeqEntry) (data : Lanes) : State :=
  { s with bqs := s.bqs.upd (bqKey e.pair e.dir) {} fun q =>
      let q1 := { q with slots := q.slots.set e.slot ⟨true, data⟩, entries := q.entries + 1 }
      { q1 with maxDepth := Nat.max q.maxDepth q1.depth } }

/-- The slot that a crossing reads becomes empty. -/
def State.emptySlot (s : State) (e : SeqEntry) : State :=
  { s with bqs := s.bqs.upd (bqKey e.pair e.dir) {} fun q => { q with slots := q.slots.set e.slot {} } }

/-- What a `vld` gives vD from a span's granules: lanes beyond the span count as unselected. -/
def Tile.loadLanes (t : Tile) (f : VeF) (src : Lanes) : Lanes :=
  t.mergeLanes f (t.lanesOf f &&& maskOf fun i => decide (i < VeF.lanes f)) src.at_

def execVld (n : Nat) (f : VeF) (s : State) : Res :=
  .next (s.issueCross n false f fun e s =>
    let t := s.tile n
    let a := t.veAddr f
    let len := 4 * VeF.lanes f
    let s1 := match e with
      | some c => s.emptySlot c
      | none => s
    let src := match e with
      | some c => ((s.bq (bqKey c.pair c.dir)).slot c.slot).data
      | none => bytesGrans (VeF.lanes f) (t.spad.read a len)
    let s2 := s1.modTile n fun t =>
      { t.fly 7 (.v f.vd.toNat (t.loadLanes f src)) with reqR := t.reqR ++ wordsOf a len }
    if e.isSome then s2 else s2.detect n (t.spad.detects a len))

/-- The writes of a `vst`: one span where every lane of it is written, else one per lane (R97). -/
def Tile.storeEffects (t : Tile) (f : VeF) (a : Nat) : List (Nat × Effect) :=
  let sel := t.lanesOf f
  let src := t.vr f.va
  let lane (i : Nat) : Gran := if sel.getLsbD i then src.at_ i else ⟨0, false⟩
  if f.km = 0 ∨ f.mz = 1 then [(3, .spad a (gransBytes ((List.range (VeF.lanes f)).map lane)))]
  else ((List.range (VeF.lanes f)).filter fun i => sel.getLsbD i).map fun i =>
    (3, .spad ((a + 4 * i) % spadBytes) (gransBytes [lane i]))

def execVst (n : Nat) (f : VeF) (s : State) : Res :=
  .next (s.issueCross n true f fun e s =>
    let t := s.tile n
    let a := t.veAddr f
    let s1 := match e with
      | some c => s.fillSlot c ((List.range 128).map (t.vr f.va).at_)
      | none => s
    s1.modTile n fun t =>
      { t.flyAll (t.storeEffects f a) with reqW := t.reqW ++ wordsOf a (4 * VeF.lanes f) })

/-! ### Fused chains (R102 to R104) -/

/-- A stage of a chain descriptor, with the poison of its word. -/
structure Stage where
  op : Nat
  s1 : Nat
  s2 : Nat
  s3 : Nat
  out : Bool
  crv : Nat
  k : W32
  poison : Bool
  deriving DecidableEq, Repr

/-- Stage `i` of a descriptor's bytes (R102). -/
def stageOf (b : List (Byte × Bool)) (i : Nat) : Stage :=
  let w := (b.drop (8 * i)).take 8
  let v := leNat (w.map Prod.fst)
  { op := v / 2 ^ 58 % 64, s1 := v / 2 ^ 54 % 16, s2 := v / 2 ^ 50 % 16, s3 := v / 2 ^ 46 % 16,
    out := v / 2 ^ 45 % 2 = 1, crv := v / 2 ^ 41 % 16, k := BitVec.ofNat 32 v, poison := w.any Prod.snd }

/-- What a lane of a chain reads: vA, vB, vC, gGB, and the results of the stages before. -/
structure ChainIn where
  a : Gran
  b : Gran
  c : Gran
  g : Gran
  deriving DecidableEq, Repr

/-- A source code (R103); none where it is reserved or names a stage that is not before this one. -/
def chainSrc (x : ChainIn) (k : W32) (done : List Gran) (code : Nat) : Option Gran :=
  match code with
  | 0 => some x.a
  | 1 => some x.b
  | 2 => some x.c
  | 3 => some x.g
  | 4 => some ⟨k, false⟩
  | 5 => some ⟨0, false⟩
  | 6 => none
  | 7 => none
  | c => done[c - 8]?

/-- The source codes that an operation uses; none where it is reserved. -/
def Stage.sources (st : Stage) : Option (List Nat) :=
  if st.op = 4 ∨ st.op = 0x0A then some [st.s1, st.s2, st.s3]
  else if (1 ≤ st.op ∧ st.op ≤ 6) ∨ st.op = 0x0B then some [st.s1, st.s2]
  else if (7 ≤ st.op ∧ st.op ≤ 9) ∨ st.op = 0x0C ∨ st.op = 0x0D then some [st.s1]
  else none

/-- A NaN result is the canonical one (R26). -/
def canon (x : W32) : W32 := if (fp32 x).isNan then 0x7FC00000 else x

/-- FP32 x × 2^n of OP 0x0B, n from an FP32 value. -/
def chainScale (x n : W32) : W32 × ArithFlags :=
  match fp32 n with
  | .nan => (0x7FC00000, ArithFlags.inv true)
  | .inf neg => f32Ldexp x (if neg then -512 else 512)
  | v => f32Ldexp x (Max.max (-512) (Min.min 512 v.dy.trunc))

/-- Rounded to BF16, kept as FP32 (OP 0x0C). -/
def chainBf16 (x : W32) : W32 × ArithFlags :=
  let (b, fl) := Ieee.bf16.round Rnd.nearest (fp32 x)
  (BitVec.ofNat 32 (65536 * b), fl)

/-- The operation of a stage on its sources (R103). -/
def chainOp (curve : Nat → List Byte) (st : Stage) (x y z : W32) : W32 × ArithFlags :=
  match st.op with
  | 1 => f32Add x y
  | 2 => f32Sub x y
  | 3 => f32Mul x y
  | 4 => f32Fma x y z
  | 5 => (f32Max x y, ArithFlags.none)
  | 6 => (f32Min x y, ArithFlags.none)
  | 7 => byElem1 0 elemNeg x
  | 8 => byElem1 0 elemAbs x
  | 9 => curveEval (curve st.crv) x
  | 0x0A => (canon (if (fp32 x).isNan || (fp32 x).ltNum (.fin false 0 0) then z else y), ArithFlags.none)
  | 0x0B => chainScale x y
  | 0x0C => chainBf16 x
  | _ => (canon x, ArithFlags.none)

/-- One stage on one lane (R104). The NaN of a stage with a reserved source, or one not earlier, takes the poison of the
stage's word only: DESIGN CHOICE (log 102). -/
def chainStage (curve : Nat → List Byte) (x : ChainIn) (done : List Gran) (st : Stage) : Gran × ArithFlags :=
  match st.sources with
  | none => (⟨0x7FC00000, st.poison⟩, ArithFlags.inv true)
  | some cs =>
    let vs := cs.map (chainSrc x st.k done)
    if vs.any Option.isNone then (⟨0x7FC00000, st.poison⟩, ArithFlags.inv true)
    else
      let g (i : Nat) : Gran := (vs.getD i none).getD ⟨0, false⟩
      let (r, fl) := chainOp curve st (g 0).bits (g 1).bits (g 2).bits
      (⟨r, st.poison || (vs.any fun v => (v.map Gran.poison).getD false)⟩, fl)

/-- All stages on one lane, in order. -/
def chainLane (curve : Nat → List Byte) (stages : List Stage) (x : ChainIn) : List Gran × ArithFlags :=
  stages.foldl (fun (acc : List Gran × ArithFlags) st =>
    let (r, fl) := chainStage curve x acc.1 st
    (acc.1 ++ [r], acc.2.join fl)) ([], ArithFlags.none)

/-- The issue of a chain (R104). -/
def Tile.startChain (t : Tile) (f : VeF) : Tile :=
  let a := (t.gv f.ga + f.imm.setWidth 64).toNat % spadBytes
  let nst := f.sub.toNat % 8 + 1
  let nout := f.sub.toNat / 8 % 4 + 1
  let bytes := t.spad.read a (8 * nst)
  let stages := (List.range nst).map (stageOf bytes)
  let outs := (List.range nst).filter fun i => (stages.map Stage.out).getD i false
  let sel := t.lanesOf f
  let g : Gran := ⟨(t.gv f.gb).setWidth 32, t.gp f.gb⟩
  let rs := (List.range 128).map fun i =>
    chainLane t.curve stages ⟨(t.vr f.va).at_ i, (t.vr f.vb).at_ i, (t.vr f.vc).at_ i, g⟩
  let res (i k : Nat) : Gran :=
    match outs[k]? with
    | some st => (rs.getD i ([], ArithFlags.none)).1.getD st ⟨0, false⟩
    | none => ⟨0x7FC00000, false⟩
  let t1 := t.flyAll ((List.range nout).map fun k =>
    (6 + 4 * nst, .v (f.vd.toNat + k) ((List.range 128).map fun i =>
      if sel.getLsbD i then res i k
      else if f.mz = 1 then ⟨0, false⟩ else (t.v.get (f.vd.toNat + k) Lanes.zero).at_ i)))
  { (t1.flags (selFlags sel fun i => (rs.getD i ([], ArithFlags.none)).2)).flags
      (ArithFlags.inv (decide (outs.length < nout))) with
    reqR := t.reqR ++ wordsOf a 64, winChains := t.winChains + 1 }

def execVchain (n : Nat) (f : VeF) (s : State) : Res :=
  .next (s.issueS n .ve fun t s =>
    (s.modTile n fun t => t.startChain f).detect n
      (t.spad.detects ((t.gv f.ga + f.imm.setWidth 64).toNat % spadBytes) (8 * (f.sub.toNat % 8 + 1))))

end Sys2Proof.Machine
end

