-- ==== Sys2Proof/Machine/TileEvents.lean ====
section
/-! DEFINITION. What happens to a tile and its row between instructions (R54, R55, R60, R71, R76, R106, R220, R221), and the
handshake of a crossing endpoint (R223). -/

namespace Sys2Proof.Machine

open Sys2Proof

/-! ### The end of a bundle -/

/-- The LEND marks of the bundle that issues (R71). -/
def execLoopEnd (n : Nat) (lend : BitVec 4) (s : State) : Res :=
  .next (s.issue n .lend fun t =>
    match lendGo t lend t.loops with
    | (ls, none) => { t with loops := ls }
    | (ls, some (l, i, start)) => { t.fly 1 (.lcIndex l i) with ctl := .back (BitVec.ofNat 12 start), loops := ls })

/-- The STOP mark of the bundle that issues (R60). -/
def execStop (n : Nat) (s : State) : Res := .next (s.issue n .stop fun t => { t with ctl := .stopped })

/-- The end of an issue cycle (R55, R106). -/
def execPipelineWriteback (n : Nat) (s : State) : Res :=
  .next (if (s.tile n).inIssue then
    let r := (s.tile n).endCycle s.formats
    (s.setTile n r.1).markGrans n r.2
  else s)

/-- The end of a bank-conflict hold (R106). -/
def execBankStallEnd (n : Nat) (s : State) : Res :=
  .next (if 0 < (s.tile n).bankHold then
    let t := s.tile n
    let r := ({ t with holdBank := t.holdBank + BitVec.ofNat 64 t.bankHold, bankHold := 0 }).advance
    (s.setTile n r.1).markGrans n r.2
  else s)

/-! ### After STOP (R60) -/

/-- Whether every mapped tile is DONE. -/
def State.allDone (s : State) : Bool := !s.tileMap.isEmpty && s.tileMap.all fun n => decide ((s.tile n).st = .done)

/-- A stopped tile moves to DONE, or holds while its queues empty; the last one ends the run (R433). -/
def execTileDone (n : Nat) (s : State) : Res :=
  .next (if (s.tile n).drained ∧ !(s.tile n).bHold then
    if (s.tile n).ldq.isEmpty ∧ (s.tile n).stq.isEmpty then
      let s1 := s.modTile n fun t => { t.endRow with st := .done }
      if s1.dev = .running ∧ s1.allDone then s1.enter .halted .done s1.step else s1
    else s.modTile n fun t => { t.endRow with st := .hold, holdWait := t.holdWait + 1 }
  else s)

/-- The bundle at the head of issue fails its parity (R76). -/
def execImemParity (n : Nat) (s : State) : Res :=
  .next (if (s.tile n).st = .run ∧ !(s.tile n).bubble then
    s.tileFaults n fun t =>
      { t with imemParity := true, imemBad := t.imemBad.mark (t.half.toNat * 4096 + t.pc.toNat) true }
  else s)

/-! ### Rows (R221) -/

/-- An unbroken boundary hold reaches the manifest's limit. -/
def execBoundaryWatchdog (r : Nat) (s : State) : Res :=
  .next (match s.image with
    | some m =>
      let hs := (s.row r).holds
      if !hs.isEmpty ∧ m.wdog ≠ 0 ∧ 2 ^ m.wdog ≤ (s.row r).holdCount then
        let s1 := { s with bqs := (hs.filter s.notReady).foldl (fun b (h : BHold) =>
          b.upd (bqKey h.pair h.dir) {} fun q => { q with stuck := true }) s.bqs }
        let s2 := (rowTiles r).foldl (fun s n =>
          if (s.tile n).bHold then s.tileFaults n fun t => { t with lastPc := t.pc } else s) s1
        s2.modRow r fun w => { w with holds := [], holdCount := 0 }
      else s
    | none => s)

end Sys2Proof.Machine
end

