-- ==== Sys2Proof/Machine/Hash.lean ====
section
/-! DEFINITION. SHA-384 of FIPS 180-4, which the device's digests use (R380, R453, R457). -/

namespace Sys2Proof.Machine

open Sys2Proof

/-- The largest number of `b` bits above `r` whose `k`-th power is at most `x`. -/
def rootFloor (k x : Nat) : Nat → Nat → Nat
  | 0, r => r
  | b + 1, r => rootFloor k x b (if (r + 2 ^ b) ^ k ≤ x then r + 2 ^ b else r)

/-- The primes below 410, of which there are eighty. -/
def shaPrimes : List Nat :=
  (List.range 410).filter fun p => decide (1 < p) && (List.range 19).all fun i => decide (p ≤ i + 2) || decide (p % (i + 2) ≠ 0)

/-- The first 64 bits of the fraction of the k-th root of p. -/
def rootBits (k p : Nat) : W64 := BitVec.ofNat 64 (rootFloor k (p * 2 ^ (64 * k)) 70 0)

/-- The constant of each round: from the cube roots of the first eighty primes. -/
def shaK : List W64 := shaPrimes.map (rootBits 3)

/-- The initial hash value of SHA-384: from the square roots of the ninth to the sixteenth prime. -/
def shaInit : List W64 := ((shaPrimes.drop 8).take 8).map (rootBits 2)

/-- The choice of y or z by each bit of x, and the majority of three bits. -/
def shaChoose (x y z : W64) : W64 := z ^^^ (x &&& (y ^^^ z))
def shaMost (x y z : W64) : W64 := (x &&& y) ||| (z &&& (x ||| y))

/-- Three rotations to the right, or two and the word `s` as the third term, in one exclusive or. -/
def shaTurn (i j : Nat) (s x : W64) : W64 := s ^^^ (x.rotateRight i ^^^ x.rotateRight j)

/-- The message with its padding: 0x80, zeros, and the length in bits as 16 bytes. -/
def shaPad (b : List Byte) : List Byte :=
  b ++ [0x80] ++ List.replicate ((239 - b.length % 128) % 128) 0 ++ beBytes 16 (8 * b.length)

/-- A schedule word from those 2 and 15 places back and the sum of those 7 and 16 places back. -/
def shaNext (near far sum : W64) : W64 :=
  sum + shaTurn 19 61 (near >>> 6) near + shaTurn 1 8 (far >>> 7) far

/-- The message schedule, newest word first. -/
def shaSchedule : Nat → List W64 → List W64
  | 0, w => w
  | n + 1, w =>
    shaSchedule n (shaNext (w.getD 1 0) (w.getD 14 0) (w.getD 6 0 + w.getD 15 0) :: w)

/-- The eight working variables of a block, a to h. -/
structure ShaVars where
  a : W64
  b : W64
  c : W64
  d : W64
  e : W64
  f : W64
  g : W64
  h : W64
  deriving DecidableEq, Repr

/-- One round; `kw` is the sum of its constant and its schedule word. -/
def ShaVars.turn (v : ShaVars) (kw : W64) : ShaVars :=
  let t := kw + v.h + shaChoose v.e v.f v.g + shaTurn 14 18 (v.e.rotateRight 41) v.e
  { a := t + shaMost v.a v.b v.c + shaTurn 28 34 (v.a.rotateRight 39) v.a, b := v.a, c := v.b, d := v.c,
    e := v.d + t, f := v.e, g := v.f, h := v.g }

def ShaVars.list (v : ShaVars) : List W64 := [v.a, v.b, v.c, v.d, v.e, v.f, v.g, v.h]

def ShaVars.ofList (l : List W64) : ShaVars :=
  { a := l.getD 0 0, b := l.getD 1 0, c := l.getD 2 0, d := l.getD 3 0, e := l.getD 4 0, f := l.getD 5 0,
    g := l.getD 6 0, h := l.getD 7 0 }

/-- One block of 128 bytes. -/
def shaBlock (h : List W64) (b : List Byte) : List W64 :=
  let w := (List.range 16).map fun i => BitVec.ofNat 64 (beNat ((b.drop (8 * i)).take 8))
  let v := (shaK.zipWith (· + ·) (shaSchedule 64 w.reverse).reverse).foldl ShaVars.turn (ShaVars.ofList h)
  h.zipWith (· + ·) v.list

def shaBlocks : Nat → List W64 → List Byte → List W64
  | 0, h, _ => h
  | n + 1, h, b => shaBlocks n (shaBlock h b) (b.drop 128)

/-- SHA-384. -/
def sha384 (b : List Byte) : List Byte :=
  let p := shaPad b
  ((shaBlocks (p.length / 128) shaInit p).take 6).flatMap fun w => beBytes 8 w.toNat

end Sys2Proof.Machine
end

