-- ==== Sys2Proof/Machine/Chunks.lean ====
section
/-! DEFINITION. Where update arrays lie in HBM, and the chunks of a cairn over them (R316 to R320, R349). -/

namespace Sys2Proof.Machine

open Sys2Proof

/-! ### Descriptors (R302, R316, R319) -/

def RedDesc.elems (r : RedDesc) : Nat := 32 * r.e32

/-- The bytes of an element in a code of 0 to 2. -/
def plainBytes (code : Nat) : Nat := if code = 0 then 4 else 2

/-- The SUM descriptor of a RID, and the descriptor of a RID in either role. -/
def State.sumDesc (s : State) (rid : Nat) : Option RedDesc := s.reds.find? fun r => decide (r.rid = rid) && decide (r.role = 0)
def State.redDesc (s : State) (rid : Nat) : Option RedDesc := s.reds.find? fun r => decide (r.rid = rid)

/-- The update descriptor that consumes a RID, with its index. -/
def State.updOf (s : State) (rid : Nat) : Option (Nat × UpdDesc) :=
  (List.range s.upds.length).findSome? fun i => s.upds[i]?.bind fun d => if d.rid = rid then some (i, d) else none

/-- Elements per block and parameters of an update descriptor. -/
def State.updElems (s : State) (d : UpdDesc) : Nat := ((s.sumDesc d.rid).map RedDesc.elems).getD 32
def State.updParams (s : State) (d : UpdDesc) : Nat := ((s.sumDesc d.rid).map fun r => r.nblocks * r.elems).getD 0

/-- Bits per element of a format code, and the block of a scaled one. -/
def elemBits (tables : SMap (List Byte)) (code : Nat) : Nat :=
  if code = 0 then 32 else if code ≤ 2 then 16 else ((bfmt? tables code).map BFmt.width).getD 8
def scaleBlock (tables : SMap (List Byte)) (code : Nat) : Option Nat :=
  if code ≤ 2 then none else (bfmt? tables code).map BFmt.block

/-- Byte `b` of an array: one segment in four (R319). -/
def arrayAddr (f b : Nat) : Nat := f + b / 2 ^ 19 * 2 ^ 21 + b % 2 ^ 19

/-- The field of a set. -/
def setField (x : Nat × Nat) (set : Nat) : Nat := if set = 0 then x.1 else x.2

/-- The sets that a block of a step reads and writes (R320). -/
def UpdDesc.readSet (d : UpdDesc) (step : Nat) : Nat := if d.pingpong then step % 2 else 0
def UpdDesc.writeSet (d : UpdDesc) (step : Nat) : Nat := if d.pingpong then 1 - step % 2 else 0

/-! ### Chunks (R349) -/

/-- Parameters of a chunk. -/
def chunkParams : Nat := 131072

def State.chunksOf (s : State) (d : UpdDesc) : Nat := (s.updParams d + chunkParams - 1) / chunkParams

/-- The first chunk number of a descriptor. -/
def State.chunkBase (s : State) (i : Nat) : Nat := ((s.upds.take i).map s.chunksOf).foldl (· + ·) 0

/-- All chunks of this position. -/
def State.chunkCount (s : State) : Nat := s.chunkBase s.upds.length

/-- The descriptor of a chunk and the chunk's number within it. -/
def State.chunkDesc (s : State) (q : Nat) : Option (UpdDesc × Nat) :=
  (List.range s.upds.length).findSome? fun i =>
    if s.chunkBase i ≤ q ∧ q < s.chunkBase (i + 1) then s.upds[i]?.map fun d => (d, q - s.chunkBase i) else none

/-- The chunk that holds parameter `j` of descriptor `i`. -/
def State.chunkAt (s : State) (i j : Nat) : Nat := s.chunkBase i + j / chunkParams

/-- The spans of a chunk in a set, in the order of R349: master, first moments with scales, second moments with scales.
Each lies within one segment. -/
def State.chunkSpans (s : State) (q set : Nat) : List (Nat × Nat) :=
  match s.chunkDesc q with
  | none => []
  | some (d, k) =>
    let n := Nat.min chunkParams (s.updParams d - k * chunkParams)
    let span (f bits : Nat) : Nat × Nat := (arrayAddr f (k * chunkParams * bits / 8), n * bits / 8)
    let moment (f fs : Nat × Nat) (fmt : W32) : List (Nat × Nat) :=
      let code := fmtCode fmt
      span (setField f set) (elemBits s.formats code) ::
        (match scaleBlock s.formats code with
         | some b => [(arrayAddr (setField fs set) (k * chunkParams / b), n / b)]
         | none => [])
    span (setField d.master set) 32 :: (moment d.m d.ms d.mfmt ++ moment d.v d.vs d.vfmt)

/-- The bytes of a chunk. -/
def State.chunkBytes (s : State) (q : Nat) : Nat := ((s.chunkSpans q 0).map Prod.snd).foldl (· + ·) 0

/-- The set that holds a chunk with a tag. -/
def State.chunkSet (s : State) (q tag : Nat) : Nat :=
  match s.chunkDesc q with
  | some (d, _) => d.readSet tag
  | none => 0

/-- The holders that the configuration gives a position. -/
def State.holdersOf (s : State) (position : Nat) : List Nat :=
  match s.recov.team with
  | some t => ((t.holders.find? fun h => decide (h.position = position)).map HolderRow.holders).getD []
  | none => []

/-- The holder of a chunk of this position. -/
def State.holderOf (s : State) (q : Nat) : Option Nat :=
  let h := s.holdersOf s.position
  if h.length = 0 then none else h[q % h.length]?

/-- Whether a write to a segment is held: a chunk with bytes of it belongs to the cairn that runs, or to the refill of a
lost holder, and its holder has not acknowledged it (R20, R352, R365). -/
def State.cairnHolds (s : State) (seg : Nat) : Bool :=
  let reads (q : Nat) (tag : W64) : Bool := (s.chunkSpans q (s.chunkSet q tag.toNat)).any fun x => decide (x.1 / 2 ^ 19 = seg)
  (List.range s.chunkCount).any fun q =>
    (s.recov.refill && (s.recov.ackTag.get? q).isNone && reads q s.recov.recStep) ||
      s.recov.stream.any fun x => decide (s.recov.ackTag.get? q ≠ some x.1) && reads q x.1

end Sys2Proof.Machine
end

