-- ==== Sys2Proof/Machine/Depots.lean ====
section
/-! DEFINITION. Depots: scrub and migration of HBM segments (R292 to R301), the segment map's writes, the reduction engine
(R278, R279, R302 to R306) and the die-to-die port (R307 to R309). -/

namespace Sys2Proof.Machine

open Sys2Proof

/-! ### Scrub (R296, R298) -/

/-- The segments mapped to rows of a stack. -/
def State.stackSegs (s : State) (d k : Nat) : List Nat :=
  (s.hbm.map.filter fun x => decide (x.1 % 4 = d) && entMapped x.2 && decide ((entRow x.2).stack = k)).map Prod.fst

/-- The units of a row that a map lists. -/
def unitsIn (m : SMap Bool) (key : Nat) : List Nat :=
  ((m.filter fun x => x.2 && decide (x.1 / 8192 = key)).map fun x => x.1 % 8192)

def execScrub (d seg : Nat) (s : State) : Res :=
  let e := s.mapEntry seg
  .next (if !entMapped e ∨ seg % 4 ≠ d then s
    else
      let r := entRow e
      let key := rowKey d r
      let s1 := (unitsIn s.hbm.ue key).foldl (fun s u => s.ueDetect seg r u true) s
      let s2 := (unitsIn s.hbm.ce key).foldl (fun s u =>
        let s' := s.ceCount seg r
        { s' with hbm := { s'.hbm with ce := s'.hbm.ce.mark (unitKey d r u) false } }) s1
      s2.modStack d r.stack fun k =>
        let done := (k.scrubbed.filter fun x => decide (x ≠ seg)) ++ [seg]
        if (s2.stackSegs d r.stack).all fun x => decide (x ∈ done) then { k with scrubs := k.scrubs + 1, scrubbed := [] }
        else { k with scrubbed := done })

/-! ### Writing the segment map (R293, R438) -/

/-- Why an entry of the map command is refused. -/
def State.mapRefusal (s : State) (m : MapEntry) : Option Nat :=
  if m.migrate then if entMapped (s.mapEntry m.seg) then none else some 4
  else if 2 ≤ entState m.entry then some 1
  else if entState m.entry = 1 then
    let r := entRow m.entry
    let k := rowKey (m.seg % 4) r
    if s.hbm.retired.has k then some 3
    else if 4205 ≤ r.row ∧ r.row ≤ 4290 ∧ !s.hbm.taken.has k then some 2
    else none
  else none

/-- An entry that is accepted. -/
def State.mapApply (s : State) (m : MapEntry) : State :=
  if m.migrate then s.wantMigration m.seg
  else { s with hbm := { s.hbm with map := if m.entry = 0 then s.hbm.map.erase m.seg else s.hbm.map.set m.seg m.entry,
                                    corrected := s.hbm.corrected.erase m.seg } }

/-- The entries of a command in order, from `count` applied ones on: an entry for a migrating segment holds itself and
all after it; the first refused one ends the command. Answers the state, the count and the refusal. -/
def mapGo : List MapEntry → State → Nat → State × Nat × Option Nat
  | [], s, n => (s, n, none)
  | m :: l, s, n =>
    match s.mapRefusal m with
    | some c => (s, n, some c)
    | none =>
      if !m.migrate ∧ entState (s.mapEntry m.seg) = 2 then ({ s with hbm := { s.hbm with held := m :: l } }, n, none)
      else mapGo l (s.mapApply m) (n + 1)

/-- Runs the entries of the command of a session, and answers it once none is held. -/
def State.mapRun (s : State) (id req : Nat) (l : List MapEntry) (n : Nat) : State :=
  let (s1, k, c) := mapGo l { s with hbm := { s.hbm with held := [], heldReply := none } } n
  if !s1.hbm.held.isEmpty then { s1 with hbm := { s1.hbm with heldReply := some (id, req, k) } }
  else match c with
    | some c => s1.respond id req 3 c (beBytes 2 k)
    | none => s1.respond id req 0 0 (beBytes 2 k)

/-- The held entries of a waiting command, after a migration. -/
def State.mapResume (s : State) : State :=
  match s.hbm.heldReply with
  | some (id, req, k) => s.mapRun id req s.hbm.held k
  | none => s

/-! ### Migration (R295, R300, R301) -/

/-- An entry of the map with another state and place; WP and GROUP stay. -/
def entWith (e : W64) (st : Nat) (dst src : HRow) : W64 :=
  BitVec.ofNat 64 (st * 2 ^ 62 + e.toNat / 2 ^ 61 % 2 * 2 ^ 61 + entGroup e * 2 ^ 48
    + dst.stack * 2 ^ 40 + dst.chan * 2 ^ 35 + dst.row * 2 ^ 22 + src.stack * 2 ^ 18 + src.chan * 2 ^ 13 + src.row)

/-- Base camp starts a migration, or leaves it queued while the stack moves another segment. -/
def execMigrationStart (seg : Nat) (s : State) : Res :=
  let e := s.mapEntry seg
  let d := seg % 4
  let src := entRow e
  let place := BitVec.ofNat 64 (Place.word (.hbm d src.stack src.chan src.row 0))
  .next (if entState e ≠ 1 then s
    else if ((s.depot d).stack src.stack).mig.isSome then s.wantMigration seg
    else
      let s1 := { s with hbm := { s.hbm with migQueue := s.hbm.migQueue.erase seg } }
      match s1.hbm.pickSpare d with
      | none => (s1.modDepot d fun x => { x with err := { x.err with spareExhausted := true } }).notify 9 place
      | some dst =>
        let s2 := { s1 with hbm := { s1.hbm with map := s1.hbm.map.set seg (entWith e 2 dst src),
                                                 taken := s1.hbm.taken.set (rowKey d dst) true } }
        (s2.modStack d src.stack fun x => { x with mig := some ⟨seg, src, dst, 0, false⟩ }).record
          (s2.entry 8 1 s2.position s2.step place))

/-- One copy item. -/
def execMigrationCopy (d stack : Nat) (s : State) : Res :=
  .next (match ((s.depot d).stack stack).mig with
    | some m =>
      if m.switched ∨ 8192 ≤ m.units then s
      else
        let k := unitKey d m.src m.units
        let s1 := s.codeCheck m.seg m.src m.units true
        let data := s1.hbm.unitBytes k
        let p := s1.hbm.unitPoison k
        let s2 := { s1 with hbm := s1.hbm.writeUnit (unitKey d m.dst m.units) 0 data p }
        s2.modStack d stack fun x => { x with mig := some { m with units := m.units + 1 } }
    | none => s)

/-- The entry switches to the destination, and held map entries apply. -/
def execMigrationComplete (d stack : Nat) (s : State) : Res :=
  .next (match ((s.depot d).stack stack).mig with
    | some m =>
      if m.switched ∨ m.units < 8192 then s
      else
        let e := s.mapEntry m.seg
        let s1 := { s with hbm := { s.hbm with map := s.hbm.map.set m.seg (entWith e 1 ⟨0, 0, 0⟩ m.dst),
                                               corrected := s.hbm.corrected.erase m.seg } }
        (s1.modStack d stack fun x => { x with mig := some { m with switched := true } }).mapResume
    | none => s)

/-- The source row is retired. -/
def execRowRetire (d stack : Nat) (s : State) : Res :=
  .next (match ((s.depot d).stack stack).mig with
    | some m =>
      if m.switched then
        let s1 := { s with hbm := { s.hbm with retired := s.hbm.retired.set (rowKey d m.src) true } }
        (s1.modStack d stack fun x => { x with mig := none, migrations := x.migrations + 1 }).record
          (s1.entry 8 2 s1.position s1.step
            (BitVec.ofNat 64 (Place.word (.hbm d m.src.stack m.src.chan m.src.row 0))))
      else s
    | none => s)

/-- Dormas has trained a stack (R475). -/
def execStackTrained (d stack : Nat) (s : State) : Res :=
  .next (if s.base.dormas then s.modStack d stack fun x => { x with up := true } else s)

/-! ### The reduction buffer (R278, R304, R305) -/

def redKey (rid block : Nat) : Nat := 2 ^ 32 * rid + block

def State.redBlock (s : State) (rid block : Nat) : RedBlock := s.redBlocks.get (redKey rid block) {}

def State.setRedBlock (s : State) (rid block : Nat) (b : RedBlock) : State :=
  { s with redBlocks := s.redBlocks.set (redKey rid block) b }

/-- A contribution or staged block as FP32 lanes: an element takes the poison of its unit (R119). -/
def wideLanes (fmt elems : Nat) (data : List Unit64) : Lanes :=
  let bytes := unitsBytes data
  let w := plainBytes fmt
  (List.range elems).map fun e =>
    let b := (bytes.drop (w * e)).take w
    let v := leNat (b.map Prod.fst)
    { bits := if fmt = 0 then BitVec.ofNat 32 v else (toFp32 ((Ieee.ofCode fmt).decode v) false).1,
      poison := b.any Prod.snd }

/-- A contribution added to the sum, element by element. -/
def addLanes (a b : Lanes) : Lanes × ArithFlags :=
  let rs := (List.range a.length).map fun i => f32Add (a.at_ i).bits (b.at_ i).bits
  ((List.range a.length).map fun i =>
      (⟨(rs.getD i (0, ArithFlags.none)).1, (a.at_ i).poison || (b.at_ i).poison⟩ : Gran),
   ArithFlags.joinAll (rs.map Prod.snd))

/-- The contribution that the fixed order applies next: the lowest that has not been applied (R278). -/
def RedBlock.next (b : RedBlock) : Nat := ((List.range (b.applied.length + 1)).find? fun k => decide (k ∉ b.applied)).getD 0

/-- The sum takes contribution `k`: the first one starts it. -/
def RedBlock.apply (b : RedBlock) (k : Nat) (c : Lanes) : RedBlock × ArithFlags :=
  if b.sum = [] then ({ b with sum := c, applied := k :: b.applied }, ArithFlags.none)
  else
    let (x, f) := addLanes b.sum c
    ({ b with sum := x, applied := k :: b.applied }, f)

/-- Parked contributions whose turn has come; `fuel` is at least the count of contributions. -/
def RedBlock.drain : Nat → RedBlock → ArithFlags → RedBlock × ArithFlags
  | 0, b, f => (b, f)
  | fuel + 1, b, f =>
    match b.parked.get? b.next with
    | none => (b, f)
    | some c =>
      let (b1, g) := ({ b with parked := b.parked.erase b.next }).apply b.next c
      RedBlock.drain fuel b1 (f.join g)

/-- An element rounded once to nearest even into a code of 0 to 2 (R17, R40). -/
def roundGran (code : Nat) (x : Gran) : Gran × ArithFlags :=
  if code = 0 then (x, ArithFlags.none)
  else
    let (v, f) := (Ieee.ofCode code).round Rnd.nearest (fp32 x.bits)
    (⟨BitVec.ofNat 32 v, x.poison⟩, f)

/-- The bytes of rounded elements, each with its element's poison. -/
def plainOut (code : Nat) (l : Lanes) : List (Byte × Bool) :=
  l.flatMap fun g => (leBytes (plainBytes code) g.bits.toNat).map fun b => (b, g.poison)

def State.depotFlags (s : State) (d : Nat) (f : ArithFlags) : State :=
  s.modDepot d fun x => { x with arith := x.arith.join f }

/-- The holder of a block's parameters (R355). -/
def State.logHolder (s : State) (r : RedDesc) (block : Nat) : Option Nat :=
  match s.updOf r.rid with
  | some (i, _) => s.holderOf (s.chunkAt i (block % r.nblocks * r.elems))
  | none => none

/-- The block leaves for its log holder. -/
def State.forwardLog (s : State) (r : RedDesc) (block : Nat) (out : Lanes) : State :=
  match s.logHolder r block with
  | none => s
  | some h =>
    let data := plainOut r.outFmt out
    (s.sendScheduled 3 r.depot h
      (.log ⟨s.step.toNat, r.rid, block, s.position, r.outFmt, r.e32, bytesUnits ((data.length + 63) / 64) data⟩)).getD s

/-- The last contribution has been applied (R305, R456). -/
def State.completeRed (s : State) (r : RedDesc) (block : Nat) : State :=
  let b := s.redBlock r.rid block
  let rs := b.sum.map (roundGran r.outFmt)
  let out := rs.map Prod.fst
  let s1 := (s.depotFlags r.depot (ArithFlags.joinAll (rs.map Prod.snd))).modDepot r.depot fun x =>
    { x with redBlocks := x.redBlocks + 1 }
  let free := !r.log || (s.logHolder r block).isNone
  let s2 := s1.setRedBlock r.rid block { b with complete := true, rounded := out, parked := [], logAcked := free }
  let s3 := match s2.outputs.find? fun o => decide (o.kind = 2) && decide (o.rid = r.rid) with
    | some o =>
      if r.digest then
        s2.hbmWrite (o.base + (s2.step.toNat % 2 * r.nblocks + block % r.nblocks) * 48)
          ((sha384 ((plainOut r.outFmt out).map Prod.fst)).map fun x => (x, false)) true
      else s2
    | none => s2
  let s4 := if r.log then s3.forwardLog r block out else s3
  if r.dispose = 0 then
    let data := plainOut r.outFmt out
    (s4.hbmWrite (r.outBase + block % r.nblocks * data.length) data true).setRedBlock r.rid block
      { s4.redBlock r.rid block with disposed := true }
  else s4

/-- A contribution at its block. -/
def State.contribute (s : State) (r : RedDesc) (block k : Nat) (c : Lanes) (arrival : Bool) : State :=
  let b := s.redBlock r.rid block
  let (b1, f) :=
    if arrival ∨ k = b.next then
      let (x, g) := b.apply k c
      RedBlock.drain r.n x g
    else ({ b with parked := b.parked.set k c }, ArithFlags.none)
  let s1 := (s.depotFlags r.depot f).setRedBlock r.rid block b1
  if r.n ≤ b1.applied.length then s1.completeRed r block else s1

/-- Whether the block has taken a contribution already. -/
def RedBlock.has (b : RedBlock) (k : Nat) : Bool :=
  b.complete || b.released || decide (k ∈ b.applied) || (b.parked.get? k).isSome

/-- A REDUCE record at the depot that holds the sum; `p` is the port it came in on. -/
def execReduceRecord (p : Nat) (r : RecReduce) (s : State) : Res :=
  let s0 := s.took fun b => decide (b = .reduce r)
  let drop (off : Nat) : State := s0.modPort p fun x => x.count off 1
  .next (match s0.sumDesc r.rid with
    | none => drop cvRedDiscards
    | some d =>
      let c := wideLanes r.fmt d.elems r.data
      if r.eager then
        if !((s0.image.map Image.relax).getD false) then drop cvStrictDiscards
        else if !d.order then drop cvRedDiscards
        else if d.n ≤ r.contrib ∨ (s0.redBlock r.rid r.block).has r.contrib then
          drop cvRedDiscards
        else s0.contribute d r.block r.contrib c true
      else if d.n ≤ r.contrib ∨ (s0.redBlock r.rid r.block).has r.contrib then drop cvRedDiscards
      else s0.contribute d r.block r.contrib c false)

/-! ### Sending and releasing (R303 to R305) -/

/-- One taken from a global semaphore of this chip. -/
def State.takeGsem (s : State) (i : Nat) : State := s.setGsem i ((s.gsem i).sub 1)

/-- The blocks of a RID that the engine has handled. -/
def State.redCount (s : State) (rid : Nat) : Nat := s.redSeq.get rid 0

/-- A REDUCE record toward its destination; one for this position passes over the die network, in order by its depot. -/
def State.sendReduce (s : State) (d : RedDesc) (block : Nat) (fmt : Nat) (data : List Unit64) : State :=
  let rec_ : Rec := .reduce ⟨false, fmt, d.contrib, d.drid, block, data⟩
  if d.dest = s.position then { s with delivered := s.delivered ++ [⟨false, 0, 2 ^ 16 + d.depot, 0, rec_⟩] }
  else (s.sendScheduled 2 d.depot d.dest rec_).getD s

/-- The staged block that the engine handles next. -/
def RedDesc.stageOff (d : RedDesc) (k : Nat) : Nat := d.srcBase + k % d.nblocks * (d.elems * plainBytes d.fmt)
def RedDesc.stageLen (d : RedDesc) : Nat := d.elems * plainBytes d.fmt

/-- The staged block of a SEND or of a LOCAL contribution is read once its trigger is taken. -/
def State.readStage (s : State) (d : RedDesc) : State × List Unit64 :=
  let k := s.redCount d.rid
  let s1 := (s.takeGsem d.trigger).hbmTouch (d.stageOff k) d.stageLen true
  (s1, bytesUnits (d.stageLen / 64) (s1.hbmBytes (d.stageOff k) d.stageLen))

/-- A SEND: trigger, read, toll, hand over. -/
def State.sendStage (s : State) (d : RedDesc) : State :=
  let s1 :=
    if (s.redHeld.get? d.rid).isSome ∨ (s.gsem d.trigger).value = 0 then s
    else
      let (x, data) := s.readStage d
      { x with redHeld := x.redHeld.set d.rid data }
  match s1.redHeld.get? d.rid with
  | none => s1
  | some data =>
    if (s1.gsem d.toll).value = 0 then s1
    else
      let k := s1.redCount d.rid
      let s2 : State := s1.takeGsem d.toll
      let s3 : State :=
        { s2 with redHeld := s2.redHeld.erase d.rid, redSeq := s2.redSeq.set d.rid ((k + 1) % 2 ^ 32) }
      s3.sendReduce d k d.fmt data

/-- The key of the count of blocks that a SUM has forwarded. -/
def fwdKey (rid : Nat) : Nat := 2 ^ 16 + rid

/-- The counts of all descriptors for a run that begins at a step counter (R193, R303). -/
def seqStart (l : List RedDesc) (k : Nat) : SMap Nat :=
  l.foldl (fun m r => (SMap.set m r.rid (k * r.nblocks % 2 ^ 32)).set (fwdKey r.rid) (k * r.nblocks % 2 ^ 32)) []

/-- The block of a SUM that is forwarded next, once it is complete: blocks go in ascending order (R303). -/
def State.forwardable (s : State) (d : RedDesc) : Option Nat :=
  let b := s.redCount (fwdKey d.rid)
  let x := s.redBlock d.rid b
  if x.complete && !x.disposed && !x.released then some b else none

/-- The local contribution of a SUM, in its turn. -/
def State.localStage (s : State) (d : RedDesc) : State :=
  let k := s.redCount d.rid
  if (s.redBlock d.rid k).next = d.localC ∧ !(s.redBlock d.rid k).complete ∧ 0 < (s.gsem d.trigger).value then
    let (s1, data) := s.readStage d
    ({ s1 with redSeq := s1.redSeq.set d.rid ((k + 1) % 2 ^ 32) }).contribute d k d.localC
      (wideLanes d.fmt d.elems data) false
  else s

/-- The engine's next block of a RID: a staged block of a SEND, a completed sum that is forwarded for a toll, or the local
contribution of a sum. -/
def execReduceBlockSend (rid : Nat) (s : State) : Res :=
  .next (match s.redDesc rid with
    | none => s
    | some d =>
      if d.role = 1 then s.sendStage d
      else
        match (if d.dispose = 2 then s.forwardable d else none) with
        | some b =>
          if (s.gsem d.toll).value = 0 then s
          else
            let x := s.redBlock rid b
            let data := plainOut d.outFmt x.rounded
            let s1 : State := s.takeGsem d.toll
            let s2 : State := { s1 with redSeq := s1.redSeq.set (fwdKey rid) ((b + 1) % 2 ^ 32) }
            (s2.setRedBlock rid b { x with disposed := true }).sendReduce d b d.outFmt
              (bytesUnits ((data.length + 63) / 64) data)
        | none => if d.localC ≠ 0xFFFF then s.localStage d else s)

/-- One toll to every sender on the list. -/
def State.grantSenders (s : State) (d : RedDesc) : State :=
  d.senders.foldl (fun s r =>
    if refChip r = s.position then { s with net := s.net ++ [.signal ⟨none, r, 1⟩] }
    else (s.sendScheduled 2 d.depot (refChip r) (.signal ⟨0xFF, 1, r⟩)).getD s) s

/-- The slot is released; older released blocks far behind are forgotten. -/
def State.releaseRed (s : State) (d : RedDesc) (block : Nat) : State :=
  let old (x : Nat × RedBlock) : Bool :=
    decide (x.1 / 2 ^ 32 = d.rid) && x.2.released && decide (8192 < (block + 2 ^ 32 - x.1 % 2 ^ 32) % 2 ^ 32)
  let b : RedBlock := { complete := true, disposed := true, logAcked := true, released := true }
  ({ s with redBlocks := SMap.set (s.redBlocks.filter fun x => !old x) (redKey d.rid block) b }).grantSenders d

def execReduceSlotRelease (rid block : Nat) (s : State) : Res :=
  .next (match s.sumDesc rid with
    | none => s
    | some d =>
      let b := s.redBlock rid block
      if b.complete ∧ b.disposed ∧ b.logAcked ∧ !b.released then s.releaseRed d block else s)

/-! ### The die-to-die port (R308, R309) -/

/-- A flit is sent again; `ecc` where the retry buffer's error poisons its four units (log 23). -/
def execD2dRetry (d : Nat) (ecc : Bool) (s : State) : Res :=
  let s1 := s.modDepot d fun x => { x with d2dRetries := x.d2dRetries + 1 }
  .next (if ecc then
    (s1.modDepot d fun x =>
      { x with d2dPoisonCount := x.d2dPoisonCount + 4, err := { x.err with d2dPoison := true } }).mark (.d2d d)
  else s1)

def execD2dModuleLost (d : Nat) (s : State) : Res :=
  let s1 := s.modDepot d fun x => { x with modules := x.modules - 1, err := { x.err with d2dModuleLost := true } }
  .next (if (s1.depot d).modules < 56 then s1.notify 12 (BitVec.ofNat 64 d) else s1)

end Sys2Proof.Machine
end

