-- ==== Sys2Proof/Machine/Update.lean ====
section
/-! DEFINITION. The parameter update units (R315 to R335): quotient, root and power, the rule of a block, its writes, and
replay from the gradient log. -/

namespace Sys2Proof.Machine

open Sys2Proof

/-! ### Quotient, square root and power (R45, R322, R323) -/

/-- The correctly rounded quotient of two FP32 patterns. -/
def f32Div (a b : W32) : W32 × ArithFlags :=
  let neg (x y : Bool) : Bool := x != y
  match fp32 a, fp32 b with
  | .nan, _ => toFp32 .nan false
  | _, .nan => toFp32 .nan false
  | .inf _, .inf _ => toFp32 .nan true
  | .inf x, .fin y _ _ => toFp32 (.inf (neg x y)) false
  | .fin x _ _, .inf y => toFp32 (.fin (neg x y) 0 0) false
  | .fin x m e, .fin y n g =>
    if n = 0 then (if m = 0 then toFp32 .nan true else toFp32 (.inf (neg x y)) false)
    else
      let k : Nat := 64
      toFp32 (.fin (neg x y) (m * 2 ^ k / n) (e - g - (k : Int))) false (decide (m * 2 ^ k % n ≠ 0))

/-- The largest r of at most `k` bits above those of `r0` with r² ≤ n. -/
def rootGo (n : Nat) : Nat → Nat → Nat
  | 0, r => r
  | k + 1, r => rootGo n k (if (r + 2 ^ k) * (r + 2 ^ k) ≤ n then r + 2 ^ k else r)

/-- The correctly rounded square root of an FP32 pattern. -/
def f32Sqrt (a : W32) : W32 × ArithFlags :=
  match fp32 a with
  | .nan => toFp32 .nan false
  | .inf neg => if neg then toFp32 .nan true else toFp32 (.inf false) false
  | .fin neg m e =>
    if m = 0 then (a, ArithFlags.none)
    else if neg then toFp32 .nan true
    else
      let n := m * 2 ^ (if e % 2 = 0 then 56 else 57)
      let f := if e % 2 = 0 then e - 56 else e - 57
      let r := rootGo n 42 0
      toFp32 (.fin false r (f / 2)) false (decide (r * r ≠ n))

/-- An odd significand of the same value; `fuel` is at least the bits of the significand. -/
def stripZeros : Nat → Nat → Int → Nat × Int
  | 0, m, e => (m, e)
  | fuel + 1, m, e => if m % 2 = 0 then stripZeros fuel (m / 2) (e + 1) else (m, e)

/-- β^t rounded once to nearest even, for a finite β from 0 up to 1 and t at least 1; +0 for β = 0. Where t (1 - β) is at least 256
the power lies below e^-256, and every such number rounds as 2^-1000 does. -/
def f32Pow (beta : W32) (t : Nat) : W32 × ArithFlags :=
  match fp32 beta with
  | .fin _ m e =>
    if m = 0 then (0, ArithFlags.none)
    else
      let (m', e') := stripZeros 24 m e
      let one := 2 ^ (-e').toNat
      if 256 * one ≤ t * (one - m') then toFp32 (.fin false 1 (-1000)) false
      else toFp32 (.fin false (m' ^ t) (e' * t)) false
  | _ => (0, ArithFlags.none)

/-! ### The scalars of a group (R322) -/

/-- What a block's parameters share. -/
structure UpdScalars where
  lrs : W32
  c1 : W32
  c2 : W32
  o1 : W32
  o2 : W32
  dw : W32
  flags : ArithFlags
  tSat : Bool
  deriving DecidableEq, Repr

def one32 : W32 := 0x3F800000

def updScalars (scheds : List (List Byte)) (g : UpdGroup) (s : Nat) : UpdScalars :=
  let t0 := g.t0.toNat + s + 1
  let t := Nat.min t0 (2 ^ 32 - 1)
  let (f, f0) := intToFp32 t
  let (lrs, f1) :=
    if g.sched.toNat / 16 % 2 = 1 then
      let (c, fc) := curveEval (scheds.getD (g.sched.toNat % 16) []) f
      let (x, fx) := f32Mul g.lr c
      (x, (f0.join fc).join fx)
    else (g.lr, ArithFlags.none)
  let (b1, f2) := f32Pow g.beta1 t
  let (c1, f3) := f32Sub one32 b1
  let (b2, f4) := f32Pow g.beta2 t
  let (c2, f5) := f32Sub one32 b2
  let (o1, f6) := f32Sub one32 g.beta1
  let (o2, f7) := f32Sub one32 g.beta2
  let (dw, f8) := f32Mul lrs g.wd
  ⟨lrs, c1, c2, o1, o2, dw, ArithFlags.joinAll [f1, f2, f3, f4, f5, f6, f7, f8], decide (2 ^ 32 - 1 < t0)⟩

/-! ### One parameter (R323) -/

/-- The new master and moments of a parameter, from gradient, master and decoded moments. -/
def updParam (g : UpdGroup) (c : UpdScalars) (grad w m v : W32) : (W32 × W32 × W32) × ArithFlags :=
  let gc := f32Min (f32Max grad (g.clip ^^^ 0x80000000)) g.clip
  let (a1, f1) := f32Mul c.o1 gc
  let (m2, f2) := f32Fma g.beta1 m a1
  let (sq, f3) := f32Mul gc gc
  let (a2, f4) := f32Mul c.o2 sq
  let (v2, f5) := f32Fma g.beta2 v a2
  let (mh, f6) := f32Div m2 c.c1
  let (vh, f7) := f32Div v2 c.c2
  let (rt, f8) := f32Sqrt vh
  let (d, f9) := f32Add rt g.eps
  let (u, f10) := f32Div mh d
  let (lu, f11) := f32Mul c.lrs u
  let (w1, f12) := f32Sub w lu
  let (dd, f13) := f32Mul c.dw w
  let (w2, f14) := f32Sub w1 dd
  ((w2, m2, v2), ArithFlags.joinAll [f1, f2, f3, f4, f5, f6, f7, f8, f9, f10, f11, f12, f13, f14])

/-! ### Arrays (R316, R319) -/

/-- Where `len` bytes from byte `b` of an array lie: cut at the array's segments. `len` is at most one segment. -/
def arraySpans (f b len : Nat) : List (Nat × Nat) :=
  let n := Nat.min len (2 ^ 19 - b % 2 ^ 19)
  (if n = 0 then [] else [(arrayAddr f b, n)]) ++ (if n < len then [(arrayAddr f (b + n), len - n)] else [])

/-- Bytes of an array with the poison of their units. -/
def State.arrayRead (s : State) (f b len : Nat) : List (Byte × Bool) :=
  (arraySpans f b len).flatMap fun x => s.hbmBytes x.1 x.2

/-- What that read finds. -/
def State.arrayTouch (s : State) (f b len : Nat) : State :=
  (arraySpans f b len).foldl (fun s x => s.hbmTouch x.1 x.2 true) s

/-- Writes of bytes at their places in an array. -/
def arrayWrites (f b : Nat) (data : List (Byte × Bool)) : List (Nat × List (Byte × Bool)) :=
  ((arraySpans f b data.length).foldl
    (fun (acc : List (Nat × List (Byte × Bool)) × List (Byte × Bool)) x =>
      (acc.1 ++ [(x.1, acc.2.take x.2)], acc.2.drop x.2)) ([], data)).1

/-- FP32 elements of bytes. -/
def fp32Lanes (n : Nat) (b : List (Byte × Bool)) : Lanes := bytesGrans n b

/-- `n` decoded elements of a moment (R323), with the flags of decoding; none where a scale breaks R28. -/
def decodeArray (tables : SMap (List Byte)) (fmt : W32) (n : Nat) (codes scales : List (Byte × Bool)) :
    Option (Lanes × ArithFlags) :=
  match bfmt? tables (fmtCode fmt) with
  | none => some (wideLanes (fmtCode fmt) n (bytesUnitsOf codes), ArithFlags.none)
  | some b =>
    let packed := unpackNat b.width n (leNat (codes.map Prod.fst))
    let cell (e : Nat) : (Byte × Bool) := codes.getD (e * b.width / 8) (0, false)
    let sc (e : Nat) : (Byte × Bool) := scales.getD (e / b.block) (0, false)
    if scales.any fun x => b.badScale x.1.toNat then none
    else
      let rs := (List.range n).map fun e =>
        let (x, f) := b.value (b.scale (sc e).1.toNat) (packed.getD e 0)
        let (w, g) := toFp32 x false
        ((⟨w, (cell e).2 || (sc e).2⟩ : Gran), f.join g)
      some (rs.map Prod.fst, ArithFlags.joinAll (rs.map Prod.snd))
where
  /-- bytes as units that keep each byte's poison by standing alone -/
  bytesUnitsOf (l : List (Byte × Bool)) : List Unit64 := l.map fun x => ⟨[x.1], x.2⟩

/-- Elements encoded for an array (R324, R325): element bytes, scale bytes and flags. -/
def encodeArray (tables : SMap (List Byte)) (fmt : W32) (draw : Nat → Nat) (xs : Lanes) :
    List (Byte × Bool) × List (Byte × Bool) × ArithFlags :=
  let code := fmtCode fmt
  match bfmt? tables code with
  | none =>
    if code = 0 then (plainOut 0 xs, [], ArithFlags.none)
    else
      let rs := (List.range xs.length).map fun e =>
        let x := xs.at_ e
        let (v, f) := (Ieee.ofCode code).round (fmtRound fmt (draw e)) (fp32 x.bits)
        ((leBytes 2 v).map fun b => (b, x.poison), f)
      (rs.flatMap Prod.fst, [], ArithFlags.joinAll (rs.map Prod.snd))
  | some b =>
    let rs := (List.range (xs.length / b.block)).map fun k =>
      let l := (List.range b.block).map fun i => xs.at_ (k * b.block + i)
      let p := l.any Gran.poison
      let (sb, cs, f) := b.encode (fmtRnd fmt) ((List.range b.block).map fun i => draw (k * b.block + i))
        (l.map fun g => fp32 g.bits)
      ((leBytes (b.block * b.width / 8) (packNat b.width cs)).map fun x => (x, p), (BitVec.ofNat 8 sb, p), f)
    (rs.flatMap fun r => r.1, rs.map fun r => r.2.1, ArithFlags.joinAll (rs.map fun r => r.2.2))

/-- Bytes of `n` elements of a format code, and of their scales. -/
def codeBytes (tables : SMap (List Byte)) (code n : Nat) : Nat := n * elemBits tables code / 8
def scaleBytes (tables : SMap (List Byte)) (code n : Nat) : Nat :=
  match scaleBlock tables code with
  | some b => n / b
  | none => 0

/-! ### A block (R320 to R325) -/

/-- Where a block's part of an array begins: its first parameter's byte. -/
def partAt (tables : SMap (List Byte)) (code j : Nat) : Nat := j * elemBits tables code / 8
def scaleAt (tables : SMap (List Byte)) (code j : Nat) : Nat :=
  match scaleBlock tables code with
  | some b => j / b
  | none => 0

/-- The arrays of a set that a block reads: master, moments with scales, each as field, first byte and length. -/
def State.blockReads (s : State) (d : UpdDesc) (j e set : Nat) : List (Nat × Nat × Nat) :=
  let m := fmtCode d.mfmt
  let v := fmtCode d.vfmt
  [(setField d.master set, 4 * j, 4 * e),
   (setField d.m set, partAt s.formats m j, codeBytes s.formats m e),
   (setField d.ms set, scaleAt s.formats m j, scaleBytes s.formats m e),
   (setField d.v set, partAt s.formats v j, codeBytes s.formats v e),
   (setField d.vs set, scaleAt s.formats v j, scaleBytes s.formats v e)]

/-- The generator of a block's stochastic roundings for a stream: 0 working copy, 1 and 2 the moments (R324). -/
def State.updDraw (s : State) (step : W64) (stream i : Nat) : Nat :=
  Draws.draw ⟨s.seed, 0x1000000 + s.position * 2 ^ 8 + stream * 2 ^ 6 + i / 2 ^ 32, step⟩ (BitVec.ofNat 32 i)

/-- What a block's update gives: its writes, its flags, and whether t was saturated. -/
structure UpdResult where
  writes : List (Nat × List (Byte × Bool))
  flags : ArithFlags
  tSat : Bool
  deriving DecidableEq, Repr

/-- The writes of one encoded array of the write set. -/
def outWrites (tables : SMap (List Byte)) (fmt : W32) (f fs j : Nat) (b sc : List (Byte × Bool)) :
    List (Nat × List (Byte × Bool)) :=
  arrayWrites f (partAt tables (fmtCode fmt) j) b ++ arrayWrites fs (scaleAt tables (fmtCode fmt) j) sc

/-- The working copy of masters w at parameter j (R324). -/
def State.workingCopy (s : State) (d : UpdDesc) (set j : Nat) (step : W64) (w : Lanes) :
    List (Nat × List (Byte × Bool)) × ArithFlags :=
  if d.wcopy then
    let (b, sc, f) := encodeArray s.formats d.wfmt (fun e => s.updDraw step 0 (d.pbase + j + e)) w
    (outWrites s.formats d.wfmt (setField d.w set) (setField d.ws set) j b sc, f)
  else ([], ArithFlags.none)

/-- The rule of R322 to R325 on a block of gradients; none where a stored scale breaks R28. -/
def State.updCompute (s : State) (d : UpdDesc) (g : UpdGroup) (block : Nat) (step : W64) (grads : Lanes) :
    Option UpdResult :=
  let e := s.updElems d
  let nblocks := ((s.sumDesc d.rid).map RedDesc.nblocks).getD 1
  let j := block % nblocks * e
  let rs := d.readSet step.toNat
  let ws := d.writeSet step.toNat
  let part (k : Nat) : List (Byte × Bool) :=
    match (s.blockReads d j e rs)[k]? with
    | some x => s.arrayRead x.1 x.2.1 x.2.2
    | none => []
  let w := fp32Lanes e (part 0)
  match decodeArray s.formats d.mfmt e (part 1) (part 2), decodeArray s.formats d.vfmt e (part 3) (part 4) with
  | some (m, f1), some (v, f2) =>
    let c := updScalars s.scheds g step.toNat
    let xs := (List.range e).map fun i =>
      let p := (grads.at_ i).poison || (w.at_ i).poison || (m.at_ i).poison || (v.at_ i).poison
      let pm := (grads.at_ i).poison || (m.at_ i).poison
      let pv := (grads.at_ i).poison || (v.at_ i).poison
      let ((w2, m2, v2), f) := updParam g c (grads.at_ i).bits (w.at_ i).bits (m.at_ i).bits (v.at_ i).bits
      ((⟨w2, p⟩ : Gran), (⟨m2, pm⟩ : Gran), (⟨v2, pv⟩ : Gran), f)
    let w2 := xs.map fun x => x.1
    let (mb, msc, f3) := encodeArray s.formats d.mfmt (fun i => s.updDraw step 1 (d.pbase + j + i)) (xs.map fun x => x.2.1)
    let (vb, vsc, f4) := encodeArray s.formats d.vfmt (fun i => s.updDraw step 2 (d.pbase + j + i)) (xs.map fun x => x.2.2.1)
    let (cw, f5) := s.workingCopy d ws j step w2
    some ⟨arrayWrites (setField d.master ws) (4 * j) (plainOut 0 w2)
        ++ outWrites s.formats d.mfmt (setField d.m ws) (setField d.ms ws) j mb msc
        ++ outWrites s.formats d.vfmt (setField d.v ws) (setField d.vs ws) j vb vsc ++ cw,
      ArithFlags.joinAll ([f1, f2, c.flags, f3, f4, f5] ++ xs.map fun x => x.2.2.2), c.tSat⟩
  | _, _ => none

/-! ### The unit beside a stack (R305, R321, R326) -/

/-- The offset of the master of a block in the read set of a step. -/
def State.masterOff (s : State) (d : UpdDesc) (block step : Nat) : Nat :=
  let nblocks := ((s.sumDesc d.rid).map RedDesc.nblocks).getD 1
  arrayAddr (setField d.master (d.readSet step)) (4 * (block % nblocks * s.updElems d))

/-- The stack whose unit takes a block. -/
def State.updStack (s : State) (d : UpdDesc) (block step : Nat) : Nat :=
  (entRow (s.mapEntry (s.masterOff d block step / 2 ^ 19))).stack

def State.updUnit (s : State) (d u : Nat) : UpdUnit := ((s.depot d).stack u).upd

def State.modUpd (s : State) (d u : Nat) (f : UpdUnit → UpdUnit) : State :=
  s.modStack d u fun k => { k with upd := f k.upd }

/-- A block of a step joins a unit's input buffer. -/
def State.feedUnit (s : State) (i : Nat) (d : UpdDesc) (block : Nat) (step : W64) (data : Lanes) (replay : Bool) : State :=
  s.modUpd d.depot (s.updStack d block step.toNat) fun u =>
    { u with queue := u.queue ++ [{ desc := i, rid := d.rid, block := block, step := step, data := data,
                                    replay := replay, written := false }] }

/-- Bytes as units that keep each byte's poison. -/
def byteUnits (l : List (Byte × Bool)) : List Unit64 := l.map fun x => ⟨[x.1], x.2⟩

/-- Rounded elements of a block as the FP32 gradients of R323. -/
def gradLanes (code : Nat) (l : Lanes) : Lanes := wideLanes code l.length (byteUnits (plainOut code l))

/-- Whether a unit has room for another block. -/
def UpdUnit.room (u : UpdUnit) : Bool := decide (u.waiting.length < 4)

def execUpdateHandoff (rid block : Nat) (s : State) : Res :=
  .next (match s.sumDesc rid, s.updOf rid with
    | some r, some (i, d) =>
      let b := s.redBlock rid block
      if r.dispose = 1 ∧ b.complete ∧ !b.disposed ∧ b.logAcked ∧ !b.released
          ∧ (s.updUnit d.depot (s.updStack d block s.step.toNat)).room then
        (s.feedUnit i d block s.step (gradLanes r.outFmt b.rounded) false).releaseRed r block
      else s
    | _, _ => s)

/-- The group of a block, if it exists (R321). -/
def State.blockGroup (s : State) (d : UpdDesc) (b : UBlock) : Option UpdGroup :=
  s.groups[entGroup (s.mapEntry (s.masterOff d b.block b.step.toNat / 2 ^ 19))]?

/-- The block at the head of the unit with what computing it gives. -/
def State.setHead (s : State) (d u : Nat) (b : UBlock) : State :=
  s.modUpd d u fun x => { x with queue := b :: x.queue.drop 1 }

def execUpdateBlock (d u : Nat) (s : State) : Res :=
  match (s.updUnit d u).queue with
  | [] => .next s
  | b :: _ =>
    match s.upds[b.desc]? with
    | none => .next s
    | some x =>
      if b.written then .next s
      else
        match s.blockGroup x b with
        | none =>
          .next ((s.setHead d u { b with written := true, skip := true }).modDepot d fun y =>
            { y with updBadGroup := true, badGroupCount := y.badGroupCount + 1 })
        | some g =>
          match s.updCompute x g b.block b.step b.data with
          | none => .fault .negativeScale
          | some r =>
            let e := s.updElems x
            let nblocks := ((s.sumDesc x.rid).map RedDesc.nblocks).getD 1
            let s1 := (s.blockReads x (b.block % nblocks * e) e (x.readSet b.step.toNat)).foldl
              (fun s k => s.arrayTouch k.1 k.2.1 k.2.2) s
            let s2 := (s1.setHead d u { b with written := true, writes := r.writes }).depotFlags d r.flags
            .next (s2.modDepot d fun y => { y with updTSat := y.updTSat || r.tSat })

/-! ### Written back (R327, R328, R330) -/

/-- The descriptor's agent arrives at its belay once all blocks of the step are written back. -/
def State.updArrive (s : State) (i : Nat) (d : UpdDesc) : State :=
  let n := s.updDone.get i 0 + 1
  let nblocks := ((s.sumDesc d.rid).map RedDesc.nblocks).getD 1
  if n < nblocks then { s with updDone := s.updDone.set i n }
  else
    let tag := s.updTag.get i 0
    ({ s with updDone := s.updDone.set i 0, updTag := s.updTag.set i (tag + 1) }).agentArrive 4 d.depot s.position d.belay
      tag.toNat

/-- The counters of a block that is written back; it was in progress for `wait` depot cycles beyond those that its parameters
take (R332, log 41). -/
def UpdUnit.finish (x : UpdUnit) (b : UBlock) (params wait : Nat) : UpdUnit :=
  { x with
           busy := x.busy + BitVec.ofNat 64 (((if b.skip then 0 else params) + 127) / 128 + wait), queue := x.queue.drop 1, cairnHold := false, blocks := x.blocks + 1,
           params := x.params + BitVec.ofNat 64 (if b.skip then 0 else params),
           replayed := x.replayed + (if b.replay then 1 else 0), last := b.step }

def execBlockWrittenBack (d u : Nat) (s : State) : Res :=
  .next (match (s.updUnit d u).queue with
    | [] => s
    | b :: _ =>
      match s.upds[b.desc]? with
      | none => s
      | some x =>
        if !b.written then s
        else if b.writes.any fun w => s.cairnHolds (w.1 / 2 ^ 19) then
          s.modUpd d u fun y => { y with cairnHold := true, cairnWait := y.cairnWait + 1 }
        else
          let (v, s0) := s.fresh
          let s1 := b.writes.foldl (fun s w => s.hbmWrite w.1 w.2 true) s0
          let s2 := s1.modUpd d u fun y => y.finish b (s.updElems x) (v % 2 ^ 32)
          if b.replay then s2 else s2.updArrive b.desc x)

end Sys2Proof.Machine
end

