-- ==== Sys2Proof/Machine/Blocks.lean ====
section
/-! DEFINITION. Crossings and block resets: the reset handshake, what each block's reset clears, and the controller that runs one at a time (R169, R223, R476,
R477). -/

namespace Sys2Proof.Machine

open Sys2Proof

/-! ### Crossing endpoints (R223) -/

def State.endpoint (s : State) (e : Nat) : Endpoint := s.eps.get e {}

def State.setEndpoint (s : State) (e : Nat) (x : Endpoint) : State := { s with eps := s.eps.set e x }

/-- The crossing of the unit that holds a global semaphore: a depot's die-to-die port, or base camp (R145, R222). -/
def gsEndpoint (i : Nat) : Nat := if i < 3072 then 8 + i / 768 else 36

/-- The crossing of a logical tile's row. -/
def State.tileEndpoint (s : State) (l : Nat) : List Nat := ((s.physicalOf l).map rowOf).toList

/-- The crossings toward the target of a remote-signal reference. -/
def State.refEndpoint (s : State) (ref : W64) : List Nat :=
  if refKind ref = 0 then s.tileEndpoint (refTile ref) else if refKind ref = 1 then [gsEndpoint (refIndex ref)] else []

/-- The crossings that a packet of the die network takes: out of the sender's row or in by a host port, and toward its
target (R222). -/
def State.pktEndpoints (s : State) (p : NetPkt) : List Nat :=
  let out := match p.stream with
    | some k => if k < 200 then [rowOf k] else []
    | none => []
  out ++ match p with
    | .write w => [rowOf w.tile]
    | .signal g => s.refEndpoint g.ref
    | .arrive ref _ => s.refEndpoint ref
    | .msg m => s.tileEndpoint m.ltile ++
        (s.qps.filter fun (x : Nat × Qp) => decide (200 ≤ m.stream.getD 0) && x.2.body.chan && decide (x.2.body.tile = m.ltile)
          && decide (x.2.body.ch = m.ch)).map fun x => 28 + x.2.body.port

/-- The crossings that a delivered record still takes: from its Caravan port, through the depot, toward its target. -/
def State.recEndpoints (s : State) (r : Routed) : List Nat :=
  let by_ := if r.dyn ∨ 4096 ≤ r.src then [] else [12 + r.src / 256, 8 + r.src / 1024]
  by_ ++ match r.body with
    | .write w =>
      if w.addr.toNat / 2 ^ 61 = 0 then [8 + segOf (w.addr.toNat % 2 ^ 41 / 64) % 4]
      else if w.addr.toNat / 2 ^ 61 = 1 then s.tileEndpoint (w.addr.toNat % 2 ^ 41 / spadBytes)
      else [36]
    | .post w => s.refEndpoint w.ref
    | .signal w => s.refEndpoint w.ref
    | .arrive w => s.refEndpoint w.ref
    | .release w => s.refEndpoint w.ref
    | .msg m => s.tileEndpoint m.tile
    | .reduce w => ((s.reds.find? fun d => decide (d.rid = w.rid)).map fun d => 8 + d.depot).toList
    | .log _ => [36]
    | _ => [36]

/-- The entries of a crossing that the receiver has not taken are discarded in both directions: packets of the die network
and delivered records, a lost message of this chip breaking its channel (R169, R223; log 21). -/
def State.flushCrossing (s : State) (e : Nat) : State :=
  let crosses (p : NetPkt) : Bool := (s.pktEndpoints p).contains e
  let gone := s.net.filter crosses
  let s1 := { s with net := s.net.filter fun p => !crosses p,
                     delivered := s.delivered.filter fun r => !(s.recEndpoints r).contains e }
  gone.foldl (fun s p => match p with
    | .msg m => s.breakSenders s.position m.ltile m.ch
    | _ => s) s1

def execPartnerRst (e : Nat) (s : State) : Res :=
  let x := s.endpoint e
  .next (if x.st = .up then (s.flushCrossing e).setEndpoint e { x with st := .partnerDown, ack := true } else s)

/-- Own reset is over and the partner has flushed. -/
def execOwnResetEnd (e : Nat) (s : State) : Res :=
  let x := s.endpoint e
  .next (if x.st = .down then s.setEndpoint e { x with st := .rejoin, rst := false, ready := true } else s)

def execPartnerAckFall (e : Nat) (s : State) : Res :=
  let x := s.endpoint e
  .next (if x.st = .rejoin then s.setEndpoint e { x with st := .up, ready := false } else s)

def execPartnerReady (e : Nat) (s : State) : Res :=
  let x := s.endpoint e
  .next (
    if x.st = .partnerDown then s.setEndpoint e { x with st := .up, ack := false }
    else if x.st = .rejoin then s.setEndpoint e { x with st := .up, ready := false }
    else s)

/-! ### What a reset clears (R477) -/

/-- An endpoint's own side enters reset (R223). -/
def State.ownReset (s : State) (e : Nat) : State :=
  (s.flushCrossing e).setEndpoint e { s.endpoint e with st := .down, rst := true, ack := false, ready := false }

/-- The senders of a tile's channels learn that the reader is gone: on this chip over the crossing flush, elsewhere by a
BROKEN record (R169). -/
def State.tellSenders (s : State) (n : Nat) : State :=
  match s.logicalOf n with
  | none => s
  | some l => (s.tile n).ch.foldl (fun s c =>
      if !c.2.valid then s
      else
        let chip := c.2.sender.toNat / 2 ^ 48
        let s1 := s.breakSenders s.position l c.1
        if c.2.src = 0 ∧ chip ≠ s.position then s1.sendDyn chip (.broken s.position l c.1) else s1) s

/-- Only the BROKEN records for other chips. -/
def State.tellRemoteSenders (s : State) (n : Nat) : State :=
  match s.logicalOf n with
  | none => s
  | some l => (s.tile n).ch.foldl (fun s c =>
      let chip := c.2.sender.toNat / 2 ^ 48
      if c.2.valid ∧ c.2.src = 0 ∧ chip ≠ s.position then s.sendDyn chip (.broken s.position l c.1) else s) s

/-- A tile's state is cleared. -/
def State.clearTile (s : State) (n : Nat) : State := s.setTile n Tile.reset

def State.resetTile (s : State) (n : Nat) : State := (s.tellSenders n).clearTile n

/-- The boundary queues at a row's edges, in both directions. -/
def rowQueues (r : Nat) : List Nat :=
  (if 0 < r then [bqKey (r - 1) 0, bqKey (r - 1) 1] else []) ++ (if r < 7 then [bqKey r 0, bqKey r 1] else [])

def State.resetRow (s : State) (r : Nat) : State :=
  let s1 := (rowTiles r).foldl State.resetTile s
  let s2 := { s1 with bqs := (rowQueues r).foldl (fun m k => m.upd k {} fun q => { q with slots := [] }) s1.bqs }
  (s2.modRow r fun w => { w with holds := [], holdCount := 0 }).ownReset r

/-- The global semaphores of a holder are cleared. -/
def State.clearGsems (s : State) (first count : Nat) : State :=
  { s with gs := s.gs.filter fun x => !(decide (first ≤ x.1) && decide (x.1 < first + count)) }

/-- The reduction blocks, sequence counts and update progress of a depot are cleared. -/
def State.clearReductions (s : State) (d : Nat) : State :=
  let mine (rid : Nat) : Bool := s.reds.any fun r => decide (r.rid = rid) && decide (r.depot = d)
  let desc (i : Nat) : Bool := match s.upds[i]? with
    | some u => decide (u.depot = d)
    | none => false
  { s with
    redBlocks := s.redBlocks.filter fun x => !mine (x.1 / 2 ^ 32),
    redSeq := s.redSeq.filter fun x => !mine (x.1 % 2 ^ 16),
    redHeld := s.redHeld.filter fun x => !mine x.1,
    updDone := s.updDone.filter fun x => !desc x.1,
    updTag := s.updTag.filter fun x => !desc x.1 }

/-- The counters of a depot and of its update units, and the units' buffers. -/
def Depot.clearCounters (x : Depot) : Depot :=
  { x with
    unmapped := 0, wpDiscards := 0, redBlocks := 0, d2dRetries := 0, d2dPoisonCount := 0, badGroupCount := 0,
    hbmStacks := x.hbmStacks.map fun k => (k.1, { k.2 with scrubs := 0, refreshWait := 0, upd := {} }) }

/-- The update input buffers and units of a depot are cleared, their counters kept. -/
def Depot.clearUnits (x : Depot) : Depot :=
  { x with hbmStacks := x.hbmStacks.map fun k =>
      (k.1, { k.2 with upd := { k.2.upd with queue := [], cairnHold := false } }) }

def State.resetDepot (s : State) (d : Nat) : State :=
  (((s.clearReductions d).modDepot d Depot.clearCounters).clearGsems (768 * d) 768).ownReset (8 + d)

/-- A Caravan port's queues and buffers are emptied. -/
def CvPort.empty (x : CvPort) : CvPort :=
  { x with
    queues := [], offers := [], dynq := [], dynOut := [], retry := [], idleAns := [], reorder := [], missing := [], taken := [],
    groups := [], wraps := [], answers := [] }

def State.resetCvPort (s : State) (p : Nat) : State :=
  let s1 := if (s.port p).st = .up then s.leaveUp p .down else s.modPort p fun x => { x.unlink with st := .down }
  (s1.modPort p fun x => { x.empty with counters := [], retryWait := false }).ownReset (12 + p)

/-- A host port's link goes down. -/
def State.hostLinkDown (s : State) (h : Nat) : State :=
  if (s.hport h).up then
    (s.modHport h fun p => { p.count hpLinkDowns 1 with up := false, speedNow := 0, errDown := true }).linkEvent 1 h 0
  else s

def State.resetHostPort (s : State) (h : Nat) : State :=
  ((s.hostLinkDown h).modHport h fun p => { p with counters := [] }).ownReset (28 + h)

/-! ### The controller (R476) -/

/-- The reset of a block by KIND and INDEX of R441. -/
def State.resetBlock (s : State) (b : BlockReq) : State :=
  match b.kind with
  | 1 => s.resetTile b.index
  | 2 => s.resetRow b.index
  | 3 => s.resetDepot b.index
  | 4 => s.resetCvPort b.index
  | 5 => s.resetHostPort b.index
  | _ => s

/-- Whether KIND and INDEX name a block of this part (R441, R487). -/
def State.blockExists (s : State) (b : BlockReq) : Bool :=
  match b.kind with
  | 1 => decide (b.index < 200) && decide (s.fuses.present.getD b.index 0 ≠ 0)
  | 2 => decide (b.index < 8)
  | 3 => decide (b.index < 4)
  | 4 => decide (b.index < 16)
  | 5 => decide (b.index < 8)
  | _ => false

/-- A block reset that is performed. -/
def State.blockReset (s : State) (b : BlockReq) : State :=
  if s.blockExists b then
    let s1 := s.resetBlock b
    { s1 with rst := { s1.rst with
        blockResets := s1.rst.blockResets + 1, lastKind := BitVec.ofNat 3 b.kind, lastIndex := BitVec.ofNat 8 b.index } }
  else s

/-- Block resets that base camp makes itself, one after another. -/
def State.blockResetAll (s : State) (l : List BlockReq) : State := l.foldl State.blockReset s

/-- A request through BLOCK_RESET or RESET: one at a time, none during a chip reset. -/
def State.askBlock (s : State) (b : BlockReq) : State :=
  if s.rst.warm ∨ s.rst.busy.isSome ∨ !s.blockExists b then s else { s with rst := { s.rst with busy := some b } }

/-- BLOCK_RESET is written with GO. -/
def State.goBlock (s : State) (kind index : Nat) : State :=
  { s with rst := { s.rst with brKind := BitVec.ofNat 3 kind, brIndex := BitVec.ofNat 8 index } }.askBlock ⟨kind, index⟩

def execBlockResetTile (i : Nat) (s : State) : Res := .next (s.goBlock 1 i)
def execBlockResetRow (i : Nat) (s : State) : Res := .next (s.goBlock 2 i)
def execBlockResetDepot (i : Nat) (s : State) : Res := .next (s.goBlock 3 i)
def execBlockResetCaravanPort (i : Nat) (s : State) : Res := .next (s.goBlock 4 i)
def execBlockResetHostPort (i : Nat) (s : State) : Res := .next (s.goBlock 5 i)

/-- The block in reset is reset, and the controller is free again. -/
def State.finishBlock (s : State) : State :=
  match s.rst.busy with
  | some b => ({ s with rst := { s.rst with busy := none } }).blockReset b
  | none => s

def execBlockIdle (s : State) : Res := .next s.finishBlock

def execBlockResetTimeout (s : State) : Res :=
  .next (if s.rst.busy.isSome then
    ({ s with rst := { s.rst with timedOut := true } }).finishBlock
  else s)

end Sys2Proof.Machine
end

