-- ==== Sys2Proof/Machine/Power.lean ====
section
/-! DEFINITION. Power, operating points, voltages and wear (R214, R215, R234 to R236, R385 to R403, R504): a change of
point from its request to its instant, the throttle, the token meters, the wear plan and ledger, and telemetry. -/

namespace Sys2Proof.Machine

open Sys2Proof

/-! ### Voltages (R391 to R393) -/

/-- A set voltage leaves for a rail, and its target is read back (R394; log 104). -/
def State.writeRail (s : State) (rail mv : Nat) : State := (s.emit (.avs rail (.writeVoltage mv))).emit (.avs rail .readVoltage)

/-- Base camp writes the set voltages of a point to the two rails (R391). -/
def State.writeVolts (s : State) (p : Nat) : State :=
  (({ s with power := { s.power with setCore := s.setCore p, setDep := s.setDep p } }).writeRail 0 (s.setCore p)).writeRail 1
    (s.setDep p)

/-- Base camp programs both regulators' transition rate to 10 mV/µs (R392; log 104). -/
def State.writeRates (s : State) : State := (s.emit (.avs 0 (.writeRate 10))).emit (.avs 1 (.writeRate 10))

/-- The point whose set voltages stand: a pending faster point's from its announcement on, else the current one's (R392). -/
def State.voltPoint (s : State) : Nat :=
  if s.clock.freqPending ∧ s.clock.pendOp < s.clock.curOp then s.clock.pendOp else s.clock.curOp

/-- The points whose set voltage exceeds VMAX on either rail, with every faster one (R398). -/
def State.overVmax (s : State) : BitVec 8 :=
  (List.range 8).foldl (fun r p =>
    if (List.range 8).any (fun q => decide (p ≤ q) &&
        (decide (s.fuses.vmaxCore < s.setCore q) || decide (s.fuses.vmaxDep < s.setDep q)))
    then r ||| (1 <<< p) else r) 0

/-! ### Ceilings and changes of point (R234, R388, R389) -/

/-- The fastest point that is not retired. -/
def State.fastest (s : State) : Nat := ((List.range 8).find? fun p => !s.power.retired.getLsbD p).getD 7

/-- The chip's ceiling: the slowest of three points. -/
def State.ownCeiling (s : State) : Nat := Nat.max (Nat.max s.power.thermal s.power.capOp.toNat) s.fastest

/-- The slowest ceiling that the root holds, its own included. -/
def State.systemPoint (s : State) : Nat := (s.power.ceilings.map fun c => c.2.1).foldl Nat.max s.power.ceiling

/-- A margin event (R397): it counts, and WEAR of the current point on a rail rises by 5 mV at once. -/
def State.marginEvent (s : State) (core : Bool) : State :=
  let p := s.clock.curOp
  let w := s.power
  let s1 := { s with power :=
    { w with
      marginEvents := w.marginEvents + 1, marginLife := Nat.min (2 ^ 32 - 1) (w.marginLife + 1),
      wearCore := if core then w.wearCore.upd p 0 (· + 5) else w.wearCore,
      wearDep := if core then w.wearDep else w.wearDep.upd p 0 (· + 5) } }
  let r := s1.power.retired ||| s1.overVmax
  ({ s1 with power := { s1.power with retired := r, worn := s1.power.worn || r.getLsbD 7 } }).writeVolts s.voltPoint

/-- The switch of a change: every row and depot runs at the point from here on, whether the voltage has arrived or not. A
rail whose regulator has not reported VDone at the instant of a faster point sets PWR_ERR.VLATE and counts a margin event
(R393; log 14); a slower point is followed by its lower voltages (R392). -/
def State.switchPoint (s : State) (op : Nat) : State :=
  let old := s.clock.curOp
  let s1 := { s with
    clock := { s.clock with curOp := op, freqPending := false, pendOp := 0 },
    rows := (List.range 8).foldl (fun m r => m.upd r {} fun x => { x with op := op }) s.rows }
  if old < op then s1.writeVolts op
  else if op < old then
    let occasion := s1.freeCtr
    let s2 := { s1 with freeCtr := s1.freeCtr + 1 }
    let miss (rail : Nat) (core : Bool) (s : State) : State :=
      if Config.regulatorLate occasion rail then
        ({ s with power := { s.power with vlate := true } }).marginEvent core
      else s
    miss 1 false (miss 0 true s2)
  else s1

/-- A chip takes a change (R234, R236, R392): it prepares for the instant, or applies it at once where the instant has
passed. A pending change whose instant has passed goes first; a copy, or a change beside one still pending, is dropped. -/
def State.takeChange (s : State) (op instant : Nat) : State :=
  let now := s.clock.ns
  let s1 := if s.clock.freqPending ∧ s.clock.freqAt.toNat ≤ now then s.switchPoint s.clock.pendOp else s
  if s1.clock.freqPending then s1
  else
    let s2 := { s1 with clock := { s1.clock with freqAt := BitVec.ofNat 64 instant } }
    let s3 := if op < s2.clock.curOp then s2.writeVolts op else s2
    if instant ≤ now then ({ s3 with clock := { s3.clock with freqLate := true } }).switchPoint op
    else { s3 with clock := { s3.clock with freqPending := true, pendOp := op } }

/-- Whether a change is a copy of one already taken. -/
def Clock.knows (c : Clock) (op instant : Nat) : Bool :=
  decide (c.freqAt = BitVec.ofNat 64 instant) && decide ((if c.freqPending then c.pendOp else c.curOp) = op)

/-- The root posts a change: 50 µs ahead or more to a slower point, 1 ms or more to a faster one. -/
def State.postChange (s : State) (op : Nat) : State :=
  let (extra, s1) := s.fresh
  let instant := (s1.clock.ns + (if s1.clock.curOp < op then 50000 else 1000000) + extra) % 2 ^ 64
  (s1.flood (.freq op instant)).takeChange op instant

/-- The root posts a change where the system point differs from the current one and none is pending. -/
def State.seekPoint (s : State) : State :=
  if s.clock.root ∧ !s.clock.freqPending ∧ s.systemPoint ≠ s.clock.curOp then s.postChange s.systemPoint else s

/-- A CEILING record toward the root by way of the parent (log 15). -/
def State.passCeiling (s : State) (sender : W64) (c : Nat) : State :=
  if s.clock.hasParent then
    s.dynOn s.clock.parentPort.toNat
      ⟨true, (s.port s.clock.parentPort.toNat).pId, s.selfId.getD 0, 1, .mgmt ⟨0x40, [sender, BitVec.ofNat 64 c]⟩⟩
  else s

/-- The ceiling as it stands now; where it has changed, the host hears of it, and the root, or the chip that is its own,
acts on it. -/
def State.refreshCeiling (s : State) : State :=
  let c := s.ownCeiling
  if c = s.power.ceiling then s
  else
    let s1 := ({ s with power := { s.power with ceiling := c } }).powerEvent
    if s1.clock.root then s1.seekPoint else s1.passCeiling s1.senderWord c

/-- Points past VMAX are retired (R398), and the ceiling follows. -/
def State.retirePoints (s : State) : State :=
  let r := s.power.retired ||| s.overVmax
  ({ s with power := { s.power with retired := r, worn := s.power.worn || r.getLsbD 7 } }).refreshCeiling

def execFreqRecord (op instant : Nat) (s : State) : Res :=
  let s1 := s.took fun b => decide (b = .freq op instant)
  .next (if s1.clock.knows op instant then s1
    else
      (if s1.clock.root then s1.flood (.freq op instant)
        else s1.floodOn s1.clock.parentPort.toNat (s.deliveredAs (.freq op instant))).takeChange op instant).refreshCeiling

def execFrequencySwitch (s : State) : Res :=
  .next (if s.clock.freqPending ∧ s.clock.freqAt.toNat ≤ s.clock.ns then
    ((s.switchPoint s.clock.pendOp).refreshCeiling).seekPoint
  else s)

/-- Droop at a row root in a row cycle (R214, R215). -/
def execStretch (r cycle : Nat) (s : State) : Res :=
  let x := s.row r
  let denied := match x.lastStretch with
    | some c => decide (c < cycle) && decide (cycle ≤ c + 31)
    | none => false
  .next (if denied then
    ((s.modRow r fun x => { x with stretchDenied := x.stretchDenied + 1, denied := true }).marginEvent true).refreshCeiling
  else s.modRow r fun x => { x with stretches := x.stretches + 1, lastStretch := some cycle })

def execCeiling (sender : W64) (c : Nat) (s : State) : Res :=
  let s1 := s.tookMgmt 0x40 [sender, BitVec.ofNat 64 c]
  .next (if s1.clock.root then
    ({ s1 with power := { s1.power with
        ceilings := (sender, c, s1.clock.ns) :: s1.power.ceilings.filter fun x => decide (x.1 ≠ sender) } }).seekPoint
  else s1.passCeiling sender c)

def execCeilingRefresh (s : State) : Res :=
  .next (if s.clock.root then s else s.passCeiling s.senderWord s.power.ceiling)

/-- The root forgets a ceiling that has not been refreshed for 3 s. -/
def execCeilingExpire (sender : W64) (s : State) : Res :=
  .next (if s.power.ceilings.any fun x => decide (x.1 = sender) && decide (x.2.2 + 3000000000 ≤ s.clock.ns) then
    ({ s with power := { s.power with
        ceilings := s.power.ceilings.filter fun x => decide (x.1 ≠ sender) } }).seekPoint
  else s)

/-! ### Measurement and throttle (R387, R388) -/

/-- The set voltages of the eight rails in mV: VCORE, VDEP, and the rails of AVS1 (R394, R495). -/
def Power.railVolts (p : Power) : List Nat := [p.setCore, p.setDep, 800, 1050, 750, 1800, 750, 1200]

/-- The readings that base camp takes of every rail (R394): current, temperature and status. -/
def State.readRails (s : State) : State :=
  (List.range 8).foldl (fun s r => ((s.emit (.avs r .readCurrent)).emit (.avs r .readTemperature)).emit (.avs r .readStatus)) s

/-- One reading of the rails: the currents of VCORE and VDEP on AVS0 and of the six rails on AVS1, in 10 mA; the package
power is in mW, over the last 10 ms. Each reading also takes the rails' temperature and status (log 104). -/
def execPowerSample (avs0 : List Nat) (avs1 : List Nat) (s : State) : Res :=
  let currents := avs0.getD 0 0 :: avs0.getD 1 0 :: avs1
  let now := ((currents.zipWith (· * ·) s.power.railVolts).foldl (· + ·) 0) / 100
  let l := (now :: s.power.powerSamples).take 100
  .next (({ s with power :=
    { s.power with coreCurrent := avs0.getD 0 0, depCurrent := avs0.getD 1 0, powerSamples := l,
                   packagePower := l.foldl (· + ·) 0 / l.length } }).readRails)

/-- The largest of some readings. -/
def hottest (l : List Int) : Int :=
  match l with
  | [] => 0
  | x :: r => r.foldl max x

/-- Every sensor once: `rows` and `depots` hold four readings each in 0.1 °C, `hbm` the stacks depot by depot in °C. Above
85 °C a stack refreshes at twice its rate (R299). -/
def execTemperatureSample (rows depots : List Int) (base : Int) (hbm : List Nat) (s : State) : Res :=
  let group (l : List Int) (k : Nat) : Int := hottest ((l.drop (4 * k)).take 4)
  let s1 := { s with power :=
    { s.power with
      rowTemp := (List.range 8).foldl (fun m r => m.set r (group rows r)) s.power.rowTemp,
      depTemp := (List.range 4).foldl (fun m d => m.set d (group depots d)) s.power.depTemp,
      baseTemp := base } }
  .next ((List.range 20).foldl (fun s k =>
    let t := hbm.getD k 0
    s.modStack (k / 5) (k % 5) fun x => { x with temp := t, hot := decide (85 < t) }) s1)

/-- The thresholds in force (R406). -/
def Power.rowLimit (p : Power) : Int :=
  if 80 ≤ p.throttleC.toNat ∧ p.throttleC.toNat ≤ 110 then (p.throttleC.toNat : Int) else 100
def Power.hbmLimit (p : Power) : Nat :=
  if 75 ≤ p.hbmThrottleC.toNat ∧ p.hbmThrottleC.toNat ≤ 100 then p.hbmThrottleC.toNat else 95

/-- The package power limit of the part's class in mW (R1). -/
def State.powerLimit (s : State) : Nat := if s.fuses.clsM then 2600000 else 3200000

/-- The hottest row sensor in 0.1 °C and the hottest stack in °C. -/
def State.hottestRow (s : State) : Int := hottest ((List.range 8).map fun r => s.power.rowTemp.get r 0)
def State.hottestHbm (s : State) : Nat :=
  ((List.range 20).map fun k => ((s.depot (k / 5)).stack (k % 5)).temp).foldl Nat.max 0

/-- The throttle conditions: bit 0 row temperature, bit 1 HBM temperature, bit 2 package power. -/
def State.conditionsNow (s : State) : BitVec 3 :=
  BitVec.ofNat 3 (bitAt (decide (10 * s.power.rowLimit ≤ s.hottestRow)) 0
    + bitAt (decide (s.power.hbmLimit ≤ s.hottestHbm)) 1 + bitAt (decide (s.powerLimit < s.power.packagePower)) 2)

/-- Whether an evaluation finds what a faster ceiling asks for. -/
def State.coolNow (s : State) : Bool :=
  decide (s.hottestRow ≤ 10 * (s.power.rowLimit - 5)) && decide (s.hottestHbm + 5 ≤ s.power.hbmLimit)
    && decide (100 * s.power.packagePower ≤ 95 * s.powerLimit)

/-- The evaluation of every 10 ms. 100 ms are eleven evaluations in a row, the last of which may be the first of the next
period (log 19). -/
def execThrottleEvaluation (s : State) : Res :=
  let c := s.conditionsNow
  let p : Power := { s.power with conditions := c }
  let q : Power :=
    if c ≠ 0 then
      if p.thermal < 7 then { p with thermal := p.thermal + 1, throttles := p.throttles + 1, clear := 0 }
      else { p with clear := 0 }
    else if s.coolNow then
      if 11 ≤ p.clear + 1 ∧ 0 < p.thermal then { p with thermal := p.thermal - 1, clear := 1 }
      else { p with clear := p.clear + 1 }
    else { p with clear := 0 }
  .next ({ s with power := q }).refreshCeiling

/-- A write of POWER_CFG.CAP_OP. -/
def execCapOpWrite (op : Nat) (s : State) : Res :=
  .next ({ s with power := { s.power with capOp := BitVec.ofNat 3 op } }).refreshCeiling

/-! ### Token meters (R385, R386) -/

/-- The row budget of the image's class. -/
def Image.rowBudget (m : Image) : Nat := if m.clsM then 76 else 96

/-- The charge of a tile in the window that ends. -/
def Tile.charge (t : Tile) : Nat := (t.winStreams + 63) / 64 + t.winChains

def execTokenWindow (r : Nat) (s : State) : Res :=
  let tiles := (List.range 25).map fun k => 25 * r + k
  let sum := (tiles.map fun n => (s.tile n).charge).foldl (· + ·) 0
  let above := match s.image with
    | some m => decide (m.rowBudget < sum)
    | none => false
  let s1 := tiles.foldl (fun s n => s.modTile n fun t => { t with winStreams := 0, winChains := 0 }) s
  .next (s1.modRow r fun x =>
    { x with
      tokenOver := if above then x.tokenOver + 1 else x.tokenOver,
      tokenMax := BitVec.ofNat 32 (Nat.max x.tokenMax.toNat sum),
      tokenRecent := Nat.max x.tokenRecent sum })

/-! ### Regulators (R395) and SIDEBAND (R504) -/

/-- A regulator's trouble: ALERT_N is asserted and the host hears of it. -/
def State.alertHost (s : State) : State := ({ s with pkg := { s.pkg with alert := true } }).powerEvent

def execRegulatorFault (_rail : Nat) (s : State) : Res :=
  .next ({ s with power := { s.power with regFault := true } }).alertHost

def execAvsTimeout (_rail : Nat) (s : State) : Res :=
  .next ({ s with power := { s.power with avsTimeout := true } }).alertHost

/-- Dormas sets SIDEBAND.FAULT and ALERT. -/
def execSidebandEvaluation (s : State) : Res :=
  .next (if s.base.dormas then
    { s with pkg :=
      { s.pkg with fault := decide (s.dev = .faulted),
                   alert := decide (s.power.errWord ≠ 0) || decide (s.power.conditions ≠ 0) } }
  else s)

/-! ### Wear (R396 to R401) -/
/-- Sorted insertion, and a sorted list. -/
def insertInt (x : Int) : List Int → List Int
  | [] => [x]
  | y :: l => if x ≤ y then x :: y :: l else y :: insertInt x l
def sortInts : List Int → List Int
  | [] => []
  | x :: l => insertInt x (sortInts l)

/-- The median of some samples: of an even number, the middle of the two in the middle (log 20). -/
def medianOf (l : List Int) : Int :=
  let x := sortInts l
  let n := x.length
  let a := x.getD ((n - 1) / 2) 0
  let b := x.getD (n / 2) 0
  if (a + b) % 2 = 0 then (a + b) / 2
  else if Config.medianHalf a b then (a + b) / 2 + 1 else (a + b) / 2

/-- WEAR of one point from D in 0.25 ps and the sensitivity in 1/16 mV per ps: whole steps of 5 mV. -/
def wearOf (d sens : Nat) : Nat := 5 * ((d * sens + 319) / 320)

/-- D of a rail: the largest of its monitors, at least 0. -/
def wearD (mon : SMap Int) (first count : Nat) : Nat :=
  (((List.range count).map fun k => mon.get (first + k) 0).foldl max 0).toNat

/-- A re-plan. -/
def State.replan (s : State) : State :=
  let w := s.power
  let mon := (List.range 144).foldl (fun m k =>
    match w.samples.get k [] with
    | [] => m
    | l => m.upd k 0 fun x => max x (medianOf l)) w.mon
  let dc := wearD mon 0 128
  let dd := wearD mon 128 16
  let core := (List.range 8).foldl (fun m p =>
    m.upd p 0 fun x => Nat.max x (wearOf dc (s.fuses.sensCore.getD p 0))) w.wearCore
  let dep := (List.range 8).foldl (fun m p =>
    m.upd p 0 fun x => Nat.max x (wearOf dd (s.fuses.sensDep.getD p 0))) w.wearDep
  let s1 := ({ s with power := { w with mon := mon, wearCore := core, wearDep := dep } }).retirePoints
  let p := s1.voltPoint
  if s.setCore p < s1.setCore p ∨ s.setDep p < s1.setDep p then s1.writeVolts p else s1

/-- A sample of every monitor. A device that started without a ledger is re-planned once 64 of them are there (R402). -/
def execWearMonitorSample (deltas : List Int) (s : State) : Res :=
  let s1 := { s with power :=
    { s.power with samples := (List.range 144).foldl (fun m k =>
        m.upd k [] fun l => ((deltas.getD k 0) :: l).take 64) s.power.samples } }
  .next (if s1.power.replanning ∧ 64 ≤ (s1.power.samples.get 0 []).length then
    ({ s1 with power := { s1.power with replanning := false } }).replan
  else s1)

/-- Operating hours cross a multiple of 1,000. -/
def execReplanHours (s : State) : Res :=
  let k := s.power.hours.toNat / 3600000
  .next (if s.power.hoursPlanned < k then
    ({ s with power := { s.power with hoursPlanned := k } }).replan
  else s)

/-- A retired HBM row as the ledger's word. -/
def retiredWord (key : Nat) : Nat :=
  let row := key % 4291
  let chan := key / 4291 % 32
  let st := key / (4291 * 32) % 5
  let d := key / (4291 * 32 * 5)
  d * 2 ^ 21 + st * 2 ^ 18 + chan * 2 ^ 13 + row

/-- Everything that the ledger's signature covers (R399). -/
def State.ledgerBody (s : State) (seq : Nat) : List Byte :=
  let w := s.power
  let rows := (s.hbm.retired.filter fun x => x.2).map Prod.fst
  leBytes 4 0x4C575841 ++ [1, 1, 0, 0] ++ leBytes 8 seq ++ leBytes 8 w.hours.toNat ++ leBytes 8 s.clock.ns
    ++ s.fuses.deviceId ++ s.base.fwDigest
    ++ ((List.range 8).flatMap fun p => leBytes 2 (w.wearCore.get p 0))
    ++ ((List.range 8).flatMap fun p => leBytes 2 (w.wearDep.get p 0))
    ++ [w.retired, 0, 0, 0] ++ leBytes 4 w.marginLife
    ++ ((List.range 144).flatMap fun k => leBytes 4 (twos 32 (w.mon.get k 0)))
    ++ leBytes 4 rows.length ++ leBytes 4 0 ++ rows.flatMap fun k => leBytes 4 (retiredWord k)

/-- A ledger leaves for the host, with its WEAR event (R400, R443). -/
def State.emitLedger (s : State) : State :=
  let seq := (s.power.ledgerSeq.toNat + 1) % 2 ^ 64
  let body := s.ledgerBody seq
  let led := body ++ Config.sign body
  ({ s with power := { s.power with ledgerSeq := BitVec.ofNat 64 seq, ledgerSize := led.length, lastLedger := led } }).raise 4
    (beBytes 8 seq ++ beBytes 4 led.length)

def execWearLedgerEmit (s : State) : Res := .next s.emitLedger

/-! ### Telemetry (R403) -/

/-- The telemetry block with the sequence number of a finished rewrite. -/
def State.telemetryBlock (s : State) (seq : Nat) : List Byte :=
  let w := s.power
  leBytes 8 seq ++ leBytes 8 s.stamp.toNat
    ++ [BitVec.ofNat 8 s.clock.curOp, BitVec.ofNat 8 w.ceiling, BitVec.ofNat 8 w.capOp.toNat, w.retired,
        BitVec.ofNat 8 w.conditions.toNat, 0, 0, 0]
    ++ leBytes 4 w.packagePower ++ leBytes 2 w.setCore ++ leBytes 2 w.setDep
    ++ leBytes 4 w.coreCurrent ++ leBytes 4 w.depCurrent
    ++ ((List.range 8).flatMap fun r => leBytes 2 (twos 16 (w.rowTemp.get r 0)))
    ++ ((List.range 4).flatMap fun d => leBytes 2 (twos 16 (w.depTemp.get d 0)))
    ++ ((List.range 20).map fun k => BitVec.ofNat 8 ((s.depot (k / 5)).stack (k % 5)).temp)
    ++ leBytes 2 (twos 16 w.baseTemp) ++ [0, 0]
    ++ ((List.range 8).map fun r => BitVec.ofNat 8 (s.row r).tokenRecent)
    ++ leBytes 8 w.hours.toNat ++ leBytes 8 s.step.toNat ++ List.replicate 144 0

def execTelemetryRewrite (s : State) : Res :=
  let seq := (s.power.telemetrySeq.toNat + 2) % 2 ^ 64
  .next { s with
    power := { s.power with telemetrySeq := BitVec.ofNat 64 seq, telemetry := s.telemetryBlock seq },
    rows := (List.range 8).foldl (fun m r => m.upd r {} fun x => { x with tokenRecent := 0 }) s.rows }

end Sys2Proof.Machine
end

