-- ==== Sys2Proof/Machine/Bundle.lean ====
section
/-! DEFINITION. Bundles as images hold them: the slots' fields in both directions, and the encoding rules that the verifier
checks (R57 to R61, R84, R95, R121, R147). -/

namespace Sys2Proof.Machine

open Sys2Proof

/-! ### Fields of a word -/

/-- Bits `hi` to `lo` of a number. -/
def bitsAt (w hi lo : Nat) : Nat := w / 2 ^ lo % 2 ^ (hi + 1 - lo)

/-- A scalar slot's opcode and fields (R61). -/
def scOpc (w : BitVec 64) : Nat := (w.extractLsb' 56 8).toNat
def scFields (w : BitVec 64) : ScF :=
  ⟨w.extractLsb' 51 5, w.extractLsb' 46 5, w.extractLsb' 41 5, w.extractLsb' 32 9, w.extractLsb' 0 32⟩
def scWord (opc : BitVec 8) (f : ScF) : BitVec 64 := opc ++ f.d ++ f.a ++ f.b ++ f.x ++ f.imm

/-- A matrix slot's (R84). -/
def mxOpc (w : BitVec 64) : Nat := (w.extractLsb' 58 6).toNat
def mxFields (w : BitVec 64) : MxF :=
  ⟨w.extractLsb' 56 2, w.extractLsb' 55 1, w.extractLsb' 54 1, w.extractLsb' 53 1, w.extractLsb' 48 5, w.extractLsb' 43 5,
    w.extractLsb' 38 5, w.extractLsb' 35 3, w.extractLsb' 28 7, w.extractLsb' 23 5, w.extractLsb' 0 21⟩
def mxWord (opc : BitVec 6) (f : MxF) : BitVec 64 :=
  opc ++ f.acc ++ f.sb ++ f.h ++ f.z ++ f.f ++ f.a ++ f.b ++ f.l ++ f.row ++ f.c ++ (0 : BitVec 2) ++ f.off

/-- A vector slot's (R95). -/
def veOpc (w : BitVec 96) : Nat := (w.extractLsb' 88 8).toNat
def veFields (w : BitVec 96) : VeF :=
  ⟨w.extractLsb' 83 5, w.extractLsb' 78 5, w.extractLsb' 73 5, w.extractLsb' 68 5, w.extractLsb' 65 3, w.extractLsb' 64 1,
    w.extractLsb' 59 5, w.extractLsb' 54 5, w.extractLsb' 49 5, w.extractLsb' 46 3, w.extractLsb' 40 6, w.extractLsb' 0 32⟩
def veWord (opc : BitVec 8) (f : VeF) : BitVec 96 :=
  opc ++ f.vd ++ f.va ++ f.vb ++ f.vc ++ f.km ++ f.mz ++ f.f ++ f.ga ++ f.gb ++ f.l ++ f.sub ++ (0 : BitVec 8) ++ f.imm

/-- A load or store slot's (R121). -/
def lsOpc (w : BitVec 48) : Nat := (w.extractLsb' 42 6).toNat
def lsFields (w : BitVec 48) : LsF :=
  ⟨w.extractLsb' 41 1, w.extractLsb' 35 6, w.extractLsb' 30 5, w.extractLsb' 25 5, w.extractLsb' 20 5, w.extractLsb' 19 1,
    w.extractLsb' 13 6, w.extractLsb' 0 13⟩
def lsWord (opc : BitVec 6) (f : LsF) : BitVec 48 :=
  opc ++ f.sv ++ f.sem ++ f.ga ++ f.gb ++ f.gc ++ f.tv ++ f.toll ++ f.imm

/-- A sync slot's opcode, and its five formats (R147). -/
def syOpc (w : BitVec 32) : Nat := (w.extractLsb' 26 6).toNat
def syFieldsA (w : BitVec 32) : SyA := ⟨w.extractLsb' 20 6, w.extractLsb' 0 16⟩
def syFieldsB (w : BitVec 32) : SyB := ⟨w.extractLsb' 21 5, w.extractLsb' 0 8⟩
def syFieldsC (w : BitVec 32) : SyC := ⟨w.extractLsb' 23 3⟩
def syWordA (opc : BitVec 6) (f : SyA) : BitVec 32 := opc ++ f.sem ++ (0 : BitVec 4) ++ f.n
def syWordB (opc : BitVec 6) (f : SyB) : BitVec 32 := opc ++ f.ga ++ (0 : BitVec 13) ++ f.n
def syWordC (opc : BitVec 6) (f : SyC) : BitVec 32 := opc ++ f.bp ++ (0 : BitVec 23)

/-! ### The encoding rules, CODE 0x08 -/

/-- A scalar slot (R61, R67). The loop term of an access is another check's (R65). -/
def scWordOk (w : BitVec 64) : Bool :=
  let f := scFields w
  scOk (scOpc w) (if scOpc w = 0x40 ∨ scOpc w = 0x41 then { f with b := 0, x := f.x &&& 0x1C7 } else f)

/-- A matrix slot (R84): bits 22 and 21 are zero. The loop term is another check's (R85). -/
def mxWordOk (w : BitVec 64) : Bool :=
  let f := mxFields w
  mxOk (mxOpc w) (if mxOpc w = 1 ∨ mxOpc w = 2 ∨ mxOpc w = 5 then { f with b := 0, l := 0 }
    else if mxOpc w = 3 ∨ mxOpc w = 4 then { f with l := 0 } else f) && decide (bitsAt w.toNat 22 21 = 0)

/-- A vector slot (R95): bits 39 to 32 are zero. The registers of a chain's outputs (R104) and the loop term of an access (R97)
are other checks'. -/
def veWordOk (w : BitVec 96) : Bool :=
  let f := veFields w
  veOk (veOpc w) (if veOpc w = 0x60 then { f with vd := 0 }
    else if veOpc w = 0x50 ∨ veOpc w = 0x51 then { f with gb := 0, l := 0 } else f) && decide (bitsAt w.toNat 39 32 = 0)

/-- The load and store slots (R121, R122). -/
def ldWordOk (w : BitVec 48) : Bool := ldOk (lsOpc w) (lsFields w)
def stWordOk (w : BitVec 48) : Bool := stOk (lsOpc w) (lsFields w)

/-- The sync slot (R147, R148). -/
def syWordOk (w : BitVec 32) : Bool :=
  let n := w.toNat
  match syOpc w with
  | 0x00 => decide (bitsAt n 25 0 = 0)
  | 0x01 => decide (bitsAt n 19 16 = 0)
  | 0x02 => decide (bitsAt n 19 16 = 0)
  | 0x03 => decide (bitsAt n 19 16 = 0) && decide (bitsAt n 15 0 ≠ 0)
  | 0x04 => decide (bitsAt n 19 16 = 0) && decide (bitsAt n 15 0 ≠ 0)
  | 0x08 => decide (bitsAt n 20 8 = 0) && decide (bitsAt n 7 0 ≠ 0)
  | 0x10 => decide (bitsAt n 22 0 = 0)
  | 0x11 => decide (bitsAt n 22 0 = 0)
  | 0x12 => decide (bitsAt n 22 0 = 0)
  | 0x18 => decide (bitsAt n 7 0 = 0)
  | 0x20 => true
  | 0x21 => true
  | _ => false

/-! ### Bundles (R57 to R59) -/

/-- The slots of a bundle, and whether each is present. -/
def bundleSc (b : BitVec 384) : BitVec 64 := b.extractLsb' 32 64
def bundleVe (b : BitVec 384) : BitVec 96 := b.extractLsb' 96 96
def bundleMx (b : BitVec 384) : BitVec 64 := b.extractLsb' 192 64
def bundleLd (b : BitVec 384) : BitVec 48 := b.extractLsb' 256 48
def bundleSt (b : BitVec 384) : BitVec 48 := b.extractLsb' 304 48
def bundleSy (b : BitVec 384) : BitVec 32 := b.extractLsb' 352 32
def bundlePresent (b : BitVec 384) (bit : Nat) : Bool := b.getLsbD bit

/-- The loop-end marks of a bundle, lc0 first, and its STOP mark (R58). -/
def bundleLend (b : BitVec 384) : BitVec 4 := b.extractLsb' 18 4
def bundleStop (b : BitVec 384) : Bool := b.getLsbD 17

/-- Whether a bundle keeps the encoding rules: an absent slot is zero, a present one is an instruction. -/
def bundleOk (b : BitVec 384) : Bool :=
  decide ((b.extractLsb' 28 4).toNat = 1) && decide ((b.extractLsb' 0 17).toNat = 0)
    && (if bundlePresent b 27 then scWordOk (bundleSc b) else bundleSc b == 0)
    && (if bundlePresent b 26 then veWordOk (bundleVe b) else bundleVe b == 0)
    && (if bundlePresent b 25 then mxWordOk (bundleMx b) else bundleMx b == 0)
    && (if bundlePresent b 24 then ldWordOk (bundleLd b) else bundleLd b == 0)
    && (if bundlePresent b 23 then stWordOk (bundleSt b) else bundleSt b == 0)
    && (if bundlePresent b 22 then syWordOk (bundleSy b) else bundleSy b == 0)

/-- The bundles of an overlay's bytes. -/
def overlayBundles (data : List Byte) : List (BitVec 384) :=
  (List.range (data.length / 48)).map fun i => BitVec.ofNat 384 (leNat ((data.drop (48 * i)).take 48))

end Sys2Proof.Machine
end

