-- ==== Sys2Proof/Machine/Image.lean ====
section
/-! DEFINITION. Program images: the manifest and the directory, relocation, bindings and patches (R178 to R188), with the
refusal that each check gives (R196, R197). -/

namespace Sys2Proof.Machine

open Sys2Proof

/-! ### Refusals -/

/-- A refused load: CODE and the fields of LOAD_WHERE (R196, R197). -/
structure Refuse where
  code : Nat
  sec : Nat := 0
  tile : Nat := 0xFF
  loc : Nat := 0
  deriving DecidableEq, Repr

/-- LOAD_WHERE. -/
def Refuse.word (r : Refuse) : W64 := BitVec.ofNat 64 (r.sec % 65536 * 2 ^ 48 + r.tile % 256 * 2 ^ 40 + r.loc % 2 ^ 32)

/-- A check: refused unless `ok`. -/
def must (ok : Bool) (r : Refuse) : Option Refuse := if ok then none else some r

/-- The first check that refuses. -/
def firstOf (l : List (Option Refuse)) : Option Refuse := l.findSome? id

/-! ### Reading bytes -/

def slice (b : List Byte) (off len : Nat) : List Byte := (b.drop off).take len

def allZero (b : List Byte) (off len : Nat) : Bool := (slice b off len).all fun x => decide (x = 0)

/-- Bytes put at an offset. -/
def putBytes (b : List Byte) (off : Nat) (d : List Byte) : List Byte := b.take off ++ d ++ b.drop (off + d.length)

/-! ### The manifest (R178) -/

/-- The manifest's fields. -/
structure Manifest where
  size : Nat
  sections : Nat
  rows : Nat
  ltpr : Nat
  positions : Nat
  seed : W64
  flags : Nat
  stepBelay : Nat
  cairnN : Nat
  wdog : Nat
  deriving DecidableEq, Repr

def manifestOf (b : List Byte) : Manifest :=
  ⟨leAt b 8 8, leAt b 0x10 2, leAt b 0x12 1, leAt b 0x13 1, leAt b 0x14 4, BitVec.ofNat 64 (leAt b 0x18 8), leAt b 0x20 4,
    leAt b 0x24 2, leAt b 0x26 2, leAt b 0x28 1⟩

def Manifest.relax (m : Manifest) : Bool := m.flags / 8 % 2 = 1
def Manifest.clsM (m : Manifest) : Bool := m.flags / 4 % 2 = 1
def Manifest.hash (m : Manifest) : Nat := m.flags % 4

/-- Logical tiles of the image. -/
def Manifest.tiles (m : Manifest) : Nat := m.rows * m.ltpr

/-- CODE 0x01. -/
def manifestCheck (b : List Byte) (m : Manifest) (size : Nat) : Option Refuse :=
  firstOf [
    must (decide (leAt b 0 4 = 0x49505841)) { code := 1, loc := 0 },
    must (decide (leAt b 4 1 = 1)) { code := 1, loc := 4 },
    must (decide (leAt b 5 1 = 1)) { code := 1, loc := 5 },
    must (decide (leAt b 6 2 = 0)) { code := 1, loc := 6 },
    must (decide (m.size = size) && decide (512 ≤ m.size) && decide (m.size ≤ 2 ^ 36)) { code := 1, loc := 8 },
    must (decide (m.flags < 16)) { code := 1, loc := 0x20 },
    must (decide (m.wdog = 0) || (decide (16 ≤ m.wdog) && decide (m.wdog ≤ 40))) { code := 1, loc := 0x28 },
    must (allZero b 0x29 215) { code := 1, loc := 0x29 }]

/-- CODE 0x04 and 0x05, as far as the manifest shows them. -/
def capacityCheck (m : Manifest) (position : Nat) (partM : Bool) : Option Refuse :=
  firstOf [
    must (decide (1 ≤ m.rows) && decide (m.rows ≤ 8)) { code := 4, loc := 0x12 },
    must (decide (1 ≤ m.ltpr) && decide (m.ltpr ≤ 24)) { code := 4, loc := 0x13 },
    must (decide (1 ≤ m.positions) && decide (m.positions ≤ 65536)) { code := 4, loc := 0x14 },
    must (decide (position < m.positions)) { code := 4, loc := 0x14 },
    must (m.clsM || !partM) { code := 5, loc := 0x20 }]

/-! ### The directory (R179 to R181) -/

def entryOf (b : List Byte) (i : Nat) : Section :=
  let o := 256 + 32 * i
  { typ := leAt b o 2, sver := leAt b (o + 2) 1, dflags := leAt b (o + 3) 1, index := leAt b (o + 4) 2,
    tile := leAt b (o + 6) 2, posLo := leAt b (o + 8) 2, posHi := leAt b (o + 10) 2, offset := leAt b (o + 16) 8,
    data := slice b (leAt b (o + 16) 8) (leAt b (o + 24) 8) }

def directoryOf (b : List Byte) (n : Nat) : List Section := (List.range n).map (entryOf b)

/-- An advisory section, which the loader does not read. -/
def Section.advisory (x : Section) : Bool := decide (2 ^ 15 ≤ x.typ)

def Section.applies (x : Section) (position : Nat) : Bool :=
  !x.advisory && decide (x.posLo ≤ position) && decide (position ≤ x.posHi)

/-- The greatest INDEX of a type, and whether the type is per tile; none for a type that is not listed. -/
def typeInfo : Nat → Option (Nat × Bool)
  | 0x0001 => some (4095, true)
  | 0x0002 => some (31, false)
  | 0x0003 => some (15, true)
  | 0x0004 => some (255, true)
  | 0x0005 => some (0, true)
  | 0x0006 => some (0, true)
  | 0x0007 => some (0, false)
  | 0x0008 => some (255, false)
  | 0x0009 => some (0, false)
  | 0x000A => some (15, false)
  | 0x000B => some (6, false)
  | 0x000C => some (0, false)
  | 0x000D => some (0, false)
  | 0x000E => some (0, false)
  | 0x000F => some (0, false)
  | 0x0010 => some (0, false)
  | _ => none

/-- Whether an entry's length suits its type (R31, R47, R57, R181). -/
def Section.lengthOk (x : Section) : Bool :=
  let n := x.data.length
  match x.typ with
  | 0x0001 => decide (n % 48 = 0) && decide (1 ≤ n / 48) && decide (n / 48 ≤ 4096)
  | 0x0002 => decide (n = 2064)
  | 0x0003 => decide (n = 4112)
  | 0x0004 => decide (8 ≤ n)
  | 0x0008 => decide (8 ≤ n)
  | 0x000B => decide (n % 16 = 0)
  | 0x000F => decide (n % 32 = 0) && decide (n / 32 ≤ 1024)
  | 0x0010 => decide (n % 16 = 0)
  | _ => true

/-- The fields of one entry: type, version, flags, index, tile, positions and bounds. -/
def Section.entryOk (x : Section) (m : Manifest) (b : List Byte) (i : Nat) : Bool :=
  let len := leAt b (256 + 32 * i + 24) 8
  let place := decide (x.sver = 1) && decide (x.posLo ≤ x.posHi) && allZero b (256 + 32 * i + 12) 4
    && decide (x.offset % 64 = 0) && decide (256 + 32 * m.sections ≤ x.offset) && decide (x.offset + len ≤ m.size)
  if x.advisory then place && decide (x.dflags = 0)
  else match typeInfo x.typ with
    | none => false
    | some (top, perTile) =>
      place && decide (x.index ≤ top) && (decide (x.typ ≠ 2) || decide (16 ≤ x.index))
        && (if x.typ = 8 then decide (x.dflags < 2) else decide (x.dflags = 0))
        && (decide (x.tile = 0xFFFF) || (perTile && decide (x.tile < m.tiles))) && x.lengthOk

/-- Whether two sections share a byte. -/
def Section.overlaps (x y : Section) : Bool :=
  !x.data.isEmpty && !y.data.isEmpty && decide (x.offset < y.offset + y.data.length)
    && decide (y.offset < x.offset + x.data.length)

/-- Whether two sections conflict: both apply to one tile of one position of the run. -/
def Section.conflicts (x y : Section) (positions : Nat) : Bool :=
  !x.advisory && decide (x.typ = y.typ) && decide (x.index = y.index) && decide (x.tile = y.tile)
    && decide (Nat.max x.posLo y.posLo ≤ Nat.min (Nat.min x.posHi y.posHi) (positions - 1))

/-- Whether two sections that every chip must hold alike differ (R181). -/
def Section.differs (x y : Section) (positions : Nat) : Bool :=
  (decide (x.typ = 2) || decide (x.typ = 9)) && decide (x.typ = y.typ) && decide (x.index = y.index)
    && decide (x.data ≠ y.data) && decide (x.posLo < positions) && decide (y.posLo < positions)

/-- Types whose sections together cover every position. -/
def everyPosition (typ : Nat) : Bool := decide (typ = 2) || decide (typ = 9) || decide (typ = 0xE) || decide (typ = 0xF)

/-- A position of the run that no section of a type and index covers. -/
def uncovered (l : List Section) (positions : Nat) (x : Section) : Bool :=
  (List.range positions).any fun p =>
    !(l.any fun y => decide (y.typ = x.typ) && decide (y.index = x.index) && y.applies p)

/-- Each section with its index. -/
def numbered (l : List Section) : List (Nat × Section) := (List.range l.length).zip l

/-- CODE 0x02 over the whole directory. -/
def directoryCheck (b : List Byte) (m : Manifest) (l : List Section) : Option Refuse :=
  firstOf ([
    must (decide (1 ≤ m.sections) && decide (m.sections ≤ 8192) && decide (256 + 32 * m.sections ≤ m.size))
      { code := 2, loc := 0x10 }] ++
    ((numbered l).map fun x => must (x.2.entryOk m b x.1) { code := 2, sec := x.1 }) ++
    ((numbered l).map fun x => must (!((l.take x.1).any fun y => y.overlaps x.2)) { code := 2, sec := x.1 }) ++
    ((numbered l).map fun x =>
      must (!((l.take x.1).any fun y => y.conflicts x.2 m.positions)) { code := 2, sec := x.1 }) ++
    ((numbered l).map fun x => must (!((l.take x.1).any fun y => y.differs x.2 m.positions)) { code := 2, sec := x.1 }) ++
    ((numbered l).map fun x =>
      must (!(everyPosition x.2.typ && uncovered l m.positions x.2)) { code := 2, sec := x.1 }) ++
    ((List.range m.tiles).map fun t =>
      must ((List.range m.positions).all fun p => l.any fun x =>
          x.applies p && decide (x.typ = 1) && decide (x.index = 0) && (decide (x.tile = t) || decide (x.tile = 0xFFFF)))
        { code := 2, tile := t }))

/-! ### Sections of a position and a tile (R180) -/

/-- The section of a type and index that applies to a tile of a position: its own, else the one for every tile. -/
def sectionAt (l : List Section) (typ index position t : Nat) : Option Section :=
  let here (x : Section) : Bool := x.applies position && decide (x.typ = typ) && decide (x.index = index)
  match l.find? fun x => here x && decide (x.tile = t) with
  | some x => some x
  | none => l.find? fun x => here x && decide (x.tile = 0xFFFF)

/-- The section of a type that is not per tile. -/
def sectionOf (l : List Section) (typ index position : Nat) : Option Section := sectionAt l typ index position 0xFFFF

/-- The directory index of a section, for LOAD_WHERE. -/
def whereIs (l : List Section) (x : Section) : Nat := (l.idxOf? x).getD 0

/-- The sections of a type for a position and tile, displaced ones left out. -/
def sectionsAt (l : List Section) (typ position t : Nat) : List Section :=
  l.filter fun x => x.applies position && decide (x.typ = typ) &&
    (decide (x.tile = t) || (decide (x.tile = 0xFFFF) &&
      !(l.any fun y => y.applies position && decide (y.typ = typ) && decide (y.index = x.index) && decide (y.tile = t))))

/-! ### Relocation (R184) -/

/-- The candidate tiles of a row: enabled ones in ascending position, then the spare, without the repair list. -/
def candidates (present repair : List Nat) (r : Nat) : List Nat :=
  ((rowTiles r).filter fun n => decide (present.getD n 0 = 1)) ++ ((rowTiles r).filter fun n => decide (present.getD n 0 = 2))
    |>.filter fun n => decide (n ∉ repair)

/-- The tiles that a row enables. -/
def enabledIn (present : List Nat) (r : Nat) : Nat := ((rowTiles r).filter fun n => decide (present.getD n 0 = 1)).length

/-- The tile map of an image: logical tiles in order. -/
def tileMapOf (present repair : List Nat) (m : Manifest) : List Nat :=
  (List.range m.rows).flatMap fun r => (candidates present repair r).take m.ltpr

def relocationCheck (present repair : List Nat) (m : Manifest) : Option Refuse :=
  firstOf ((List.range m.rows).map fun r =>
    must (decide (m.ltpr ≤ enabledIn present r) && decide (m.ltpr ≤ (candidates present repair r).length))
      { code := 4, loc := r })

/-! ### Bindings (R186) -/

/-- Whether a value suits its declaration, for the device's position. -/
def bindOk (d : List Byte) (i : Nat) (v : W64) (position : Nat) : Bool :=
  let w0 := leAt d (32 * i) 8
  let lo := leAt d (32 * i + 8) 8
  let hi := leAt d (32 * i + 16) 8
  let kind := w0 / 2 ^ 60
  let x := v.toNat
  let off := x % 2 ^ 41
  decide (kind < 2) && decide (bitsAt w0 59 6 = 0) && decide (leAt d (32 * i + 24) 8 = 0)
    && decide (x % 2 ^ (w0 % 64) = 0)
    && (if kind = 0 then decide (lo ≤ x) && decide (x ≤ hi)
        else decide (lo ≤ off) && decide (off ≤ hi) && decide (x / 2 ^ 62 = 0) && decide (x / 2 ^ 41 % 2 ^ 21 = position))

def bindingCheck (l : List Section) (position : Nat) (bind : List W64) : Option Refuse :=
  let s := sectionOf l 0xF 0 position
  let d := (s.map Section.data).getD []
  let sec := (s.map (whereIs l)).getD 0
  firstOf ([must (decide (bind.length = d.length / 32)) { code := 6, sec := sec, loc := Nat.min bind.length (d.length / 32) }] ++
    (List.range bind.length).map fun i => must (bindOk d i (bind.getD i 0) position) { code := 6, sec := sec, loc := i })

/-! ### Patches (R187, R188) -/

/-- Whether a patch's words are laid out as R187 says. -/
def patchWordsOk (w0 w1 : Nat) : Bool :=
  let kind := w0 / 2 ^ 60
  decide (1 ≤ kind) && decide (kind ≤ 3) && decide (bitsAt w0 59 58 < 2) && decide (bitsAt w0 41 32 = 0)
    && decide (bitsAt w0 15 0 = 0) && decide (bitsAt w1 63 32 = 0)

/-- Where a patch writes: byte offset and width in bytes; none where the target is not allowed. -/
def patchTarget (kind loc position : Nat) (x : Section) : Option (Nat × Nat) :=
  if !x.applies position then none
  else if kind = 1 then
    if x.typ = 1 ∧ loc < x.data.length / 48 then some (48 * loc + 4, 4) else none
  else
    let n := if kind = 2 then 4 else 8
    if (x.typ = 4 ∨ x.typ = 5 ∨ x.typ = 6 ∨ x.typ = 7 ∨ x.typ = 8) ∧ loc % n = 0 ∧ loc + n ≤ x.data.length then
      some (loc, n) else none

/-- One patch. -/
def patchOne (position : Nat) (bind : List W64) (l : List Section) (d : List Byte) (i : Nat) : Option (List Section) :=
  let w0 := leAt d (16 * i) 8
  let w1 := leAt d (16 * i + 8) 8
  let sec := bitsAt w0 31 16
  if !patchWordsOk w0 w1 then none
  else match bind[bitsAt w0 51 42]?, l[sec]? with
    | some v, some x =>
      match patchTarget (w0 / 2 ^ 60) (w1 % 2 ^ 32) position x with
      | some (off, n) =>
        let old := leAt x.data off n
        let add := v.toNat / 2 ^ bitsAt w0 57 52
        let new := (if bitsAt w0 59 58 = 1 then old + add else add) % 2 ^ (8 * n)
        some (l.set sec { x with data := putBytes x.data off (leBytes n new) })
      | none => none
    | _, _ => none

/-- The patches in order; the first that is refused ends them. -/
def patchGo (position : Nat) (bind : List W64) (d : List Byte) (sec : Nat) : Nat → Nat → List Section → Except Refuse (List Section)
  | 0, _, l => .ok l
  | fuel + 1, i, l =>
    match patchOne position bind l d i with
    | some l' => patchGo position bind d sec fuel (i + 1) l'
    | none => .error { code := 7, sec := sec, loc := i }

/-- The sections as patched for a position. -/
def patched (l : List Section) (position : Nat) (bind : List W64) : Except Refuse (List Section) :=
  match sectionOf l 0x10 0 position with
  | none => .ok l
  | some x => patchGo position bind x.data (whereIs l x) (x.data.length / 16) 0 l

end Sys2Proof.Machine
end

