-- ==== Sys2Proof/Machine/Sections.lean ====
section
/-! DEFINITION. What the sections of an image hold: semaphores, ports and globals (R182), the chip map (R274, R275), timetables
(R265 to R267), crossings (R203), reductions (R302), updates (R315 to R318) and outputs (R455). -/

namespace Sys2Proof.Machine

open Sys2Proof

/-! ### SEMS, PORTS and GLOBALS (R182) -/

/-- The initial value of a local semaphore. -/
def semInit (d : List Byte) (i : Nat) : Nat := leAt d (2 * i) 2

/-- The toll semaphores of a SEMS section, in ascending order. -/
def tollSems (d : List Byte) : List Nat := (List.range 64).filter fun i => leAt d 136 8 / 2 ^ i % 2 = 1

/-- A toll binding: receiver's position and tile, region base, region size. -/
structure TollBind where
  sem : Nat
  position : Nat
  tile : Nat
  base : Nat
  size : Nat
  deriving DecidableEq, Repr

def tollBinds (d : List Byte) : List TollBind :=
  ((List.range (tollSems d).length).zip (tollSems d)).map fun x =>
    let w0 := leAt d (144 + 16 * x.1) 8
    ⟨x.2, w0 / 2 ^ 48, bitsAt w0 47 40, bitsAt w0 20 0, leAt d (152 + 16 * x.1) 2⟩

/-- The configuration word of a belay port, a channel and its sender, and an outbound port. -/
def bpWord (d : List Byte) (p : Nat) : Nat := leAt d (8 * p) 8
def chWord (d : List Byte) (c : Nat) : Nat := leAt d (64 + 8 * c) 8
def senderOf (d : List Byte) (c : Nat) : Nat := leAt d (192 + 8 * c) 8
def ocWord (d : List Byte) (o : Nat) : Nat := leAt d (320 + 8 * o) 8

/-- A belay port as the image binds it (R174). -/
def bpOf (w : Nat) : BPort :=
  { valid := w / 2 ^ 63 = 1, chip := bitsAt w 51 32, index := bitsAt w 11 0 }

/-- An outbound port as the image binds it (R176). -/
def ocOf (w : Nat) : OPort :=
  { valid := w / 2 ^ 63 = 1, chip := bitsAt w 61 42, tile := bitsAt w 41 34, ch := bitsAt w 33 30, size := bitsAt w 29 17,
    toll := bitsAt w 16 11 }

/-- A channel as the image configures it (R175); the toll semaphore that its grants raise is filled in by the loader. -/
def chOf (w sender : Nat) : Chan :=
  { valid := w / 2 ^ 63 = 1, src := bitsAt w 62 61, size := bitsAt w 33 21, base := bitsAt w 20 0,
    sender := BitVec.ofNat 64 sender }

/-- A global semaphore's configuration word, initial value and release list. -/
def gsWord (d : List Byte) (n : Nat) : Nat := leAt d (16 * n) 8
def gsInit (d : List Byte) (n : Nat) : Nat := leAt d (16 * n + 8) 2
def gsListLen (d : List Byte) (n : Nat) : Nat := leAt d (16 * n + 10) 2
def gsListOff (d : List Byte) (n : Nat) : Nat := leAt d (16 * n + 12) 4
def gsChildren (d : List Byte) (n : Nat) : List W64 :=
  (List.range (gsListLen d n)).map fun k => BitVec.ofNat 64 (leAt d (gsListOff d n + 8 * k) 8)

/-- A global semaphore as the image sets it (R177); the ports bound to it are filled in by the loader. -/
def gsOf (d : List Byte) (n : Nat) : GSem :=
  let w := gsWord d n
  let mode : GsMode := if w / 2 ^ 62 = 1 then .counter else if w / 2 ^ 62 = 2 then .belay else .unused
  { mode := mode, parent := if bitsAt w 61 61 = 1 then some (bitsAt w 60 41, bitsAt w 40 29) else none,
    count := bitsAt w 12 0, value := if mode = .counter then gsInit d n else 0, children := gsChildren d n }

/-! ### The chip map (R274, R275) -/

def cableOf (w : Nat) : Nat × Nat × Nat := (w / 2 ^ 30, bitsAt w 29 26, w % 2 ^ 16)

def nodeOf (d : List Byte) (i : Nat) : Node :=
  let o := 64 + 80 * i
  { x := leAt d o 2, y := leAt d (o + 2) 2, z := leAt d (o + 4) 2, team := leAt d (o + 6) 2,
    cables := (List.range 16).map fun p => cableOf (leAt d (o + 16 + 4 * p) 4) }

def caseOf (d : List Byte) (o : Nat) : FailCase :=
  let w := leAt d o 8
  ⟨w / 2 ^ 62, bitsAt w 61 48, bitsAt w 47 32, bitsAt w 15 0⟩

def chipMapOf (d : List Byte) (positions : Nat) : ChipMap :=
  let spares := leAt d 1 1
  let n := positions + spares
  { spares := spares, dimX := leAt d 4 2, dimY := leAt d 6 2, dimZ := leAt d 8 2,
    nodes := (List.range n).map (nodeOf d),
    cases := (List.range (leAt d 2 2)).map fun k => caseOf d (64 + 80 * n + 8 * k) }

/-! ### Timetables (R265 to R267) -/

def queueOf (d : List Byte) (q : Nat) : QEntry :=
  let w := leAt d (64 + 16 * q) 8
  ⟨w / 2 ^ 60, bitsAt w 59 52, decide (bitsAt w 51 51 = 1), bitsAt w 47 32, bitsAt w 15 0⟩

def txOf (w : Nat) : TxEntry := ⟨w / 2 ^ 14, decide (bitsAt w 13 13 = 1), w % 256⟩
def rxOf (w : Nat) : RxEntry := ⟨w / 2 ^ 30, bitsAt w 29 26, bitsAt w 25 18, w % 256⟩

def ttableOf (d : List Byte) (k : Nat) : TTable :=
  let o := 4160 + 6160 * k
  { alt := leAt d o 2, slackStart := leAt d (o + 2) 2,
    tx := (List.range 1024).map fun i => txOf (leAt d (o + 16 + 2 * i) 2),
    rx := (List.range 1024).map fun i => rxOf (leAt d (o + 2064 + 4 * i) 4) }

def queuesOf (d : List Byte) : List QEntry := (List.range (leAt d 2 1)).map (queueOf d)
def ttablesOf (d : List Byte) : List TTable := (List.range (leAt d 3 1)).map (ttableOf d)

/-! ### Crossings (R203) -/

/-- An entry of a CROSSINGS section. -/
structure Crossing where
  ptile : Nat
  ctile : Nat
  dir : Nat
  anchor : Nat
  write : Nat
  read : Nat
  deriving DecidableEq, Repr

def crossingOf (d : List Byte) (i : Nat) : Crossing :=
  let w0 := leAt d (16 * i) 8
  let w1 := leAt d (16 * i + 8) 8
  ⟨w0 / 2 ^ 56, bitsAt w0 55 48, bitsAt w0 47 47, bitsAt w0 11 0, w1 / 2 ^ 32, w1 % 2 ^ 32⟩

def crossingsOf (d : List Byte) : List Crossing := (List.range (d.length / 16)).map (crossingOf d)

/-! ### Reductions (R302) -/

def redOf (d : List Byte) (i : Nat) : RedDesc :=
  let o := 64 + 64 * i
  let fl := leAt d (o + 9) 1
  { rid := leAt d o 2, role := leAt d (o + 2) 1, depot := leAt d (o + 3) 1, n := leAt d (o + 4) 2, fmt := leAt d (o + 6) 1,
    outFmt := leAt d (o + 7) 1, dispose := leAt d (o + 8) 1, log := fl % 2 = 1, order := fl / 2 % 2 = 1,
    digest := fl / 4 % 2 = 1, e32 := leAt d (o + 10) 2, nblocks := leAt d (o + 12) 4, slots := leAt d (o + 16) 2,
    localC := leAt d (o + 18) 2, trigger := leAt d (o + 20) 2, toll := leAt d (o + 22) 2, srcBase := leAt d (o + 24) 8,
    outBase := leAt d (o + 32) 8, dest := leAt d (o + 40) 2, drid := leAt d (o + 42) 2, contrib := leAt d (o + 44) 1 }

/-- The word from which a descriptor's sender list starts. -/
def redSendersOff (d : List Byte) (i : Nat) : Nat := leAt d (64 + 64 * i + 48) 4

/-- The length of a SUM's sender list: one entry for each contribution that does not come from this chip's staging. -/
def senderCount (r : RedDesc) : Nat := if r.role = 0 then (if r.localC = 0xFFFF then r.n else r.n - 1) else 0

def redsOf (d : List Byte) : List RedDesc :=
  (List.range (leAt d 2 2)).map fun i =>
    let r := redOf d i
    { r with senders := (List.range (senderCount r)).map fun k =>
        BitVec.ofNat 64 (leAt d (redSendersOff d i + 8 * k) 8) }

/-! ### Updates (R315, R316, R318) -/

/-- A pair of array fields, sets 0 and 1. -/
def pairAt (d : List Byte) (o : Nat) : Nat × Nat := (leAt d o 8, leAt d (o + 8) 8)

def updDescOf (d : List Byte) (i : Nat) : UpdDesc :=
  let o := 64 + 192 * i
  let fl := leAt d (o + 3) 1
  { rid := leAt d o 2, depot := leAt d (o + 2) 1, pingpong := fl % 2 = 1, wcopy := fl / 2 % 2 = 1,
    mfmt := BitVec.ofNat 32 (leAt d (o + 4) 4), vfmt := BitVec.ofNat 32 (leAt d (o + 8) 4),
    wfmt := BitVec.ofNat 32 (leAt d (o + 12) 4), mblk := leAt d (o + 16) 1, gfmt := leAt d (o + 17) 1,
    belay := leAt d (o + 18) 2, pbase := leAt d (o + 24) 8, master := pairAt d (o + 32), m := pairAt d (o + 48),
    ms := pairAt d (o + 64), v := pairAt d (o + 80), vs := pairAt d (o + 96), w := pairAt d (o + 112),
    ws := pairAt d (o + 128) }

def updDescsOf (d : List Byte) : List UpdDesc := (List.range (leAt d 1 1)).map (updDescOf d)

def groupsAt (d : List Byte) : Nat := 64 + 192 * leAt d 1 1

def updGroupOf (d : List Byte) (i : Nat) : UpdGroup :=
  let w (k : Nat) : W32 := BitVec.ofNat 32 (leAt d (groupsAt d + 32 * i + 4 * k) 4)
  ⟨w 0, w 1, w 2, w 3, w 4, w 5, w 6, w 7⟩

def updGroupsOf (d : List Byte) : List UpdGroup := (List.range (leAt d 2 2)).map (updGroupOf d)

def schedsAt (d : List Byte) : Nat := groupsAt d + 32 * leAt d 2 2

def schedsOf (d : List Byte) : List (List Byte) :=
  (List.range (leAt d 4 1)).map fun k => slice d (schedsAt d + 4112 * k) 4112

/-! ### Outputs (R455) -/

def outOf (d : List Byte) (i : Nat) : OutEntry :=
  let o := 64 + 32 * i
  ⟨leAt d o 1, leAt d (o + 4) 2, leAt d (o + 8) 8, leAt d (o + 16) 8⟩

def outsOf (d : List Byte) : List OutEntry := (List.range (leAt d 2 2)).map (outOf d)

end Sys2Proof.Machine
end

