-- ==== Sys2Proof/Machine/Verify.lean ====
section
/-! DEFINITION. The verifier (R198 to R203, R210): the checks that a look at the image decides, each with its CODE and place. The
checks over every control path stand in Walk and Verdict (log 8). -/

namespace Sys2Proof.Machine

open Sys2Proof

/-! ### What the checks look at -/

/-- An image under verification: its bytes, manifest, directory as supplied, sections as patched, the position, the bindings. -/
structure Checked where
  raw : List Byte
  man : Manifest
  dir : List Section
  secs : List Section
  position : Nat
  bind : List W64
  deriving DecidableEq, Repr

/-- The sections of a position: patched for the device's own, as supplied for a partner (R198). -/
def Checked.of (c : Checked) (position : Nat) : List Section := if position = c.position then c.secs else c.dir

/-- The bytes of a section of a position and tile; empty without one. -/
def Checked.bytes (c : Checked) (typ index position t : Nat) : List Byte :=
  ((sectionAt (c.of position) typ index position t).map Section.data).getD []

/-- The directory index of that section. -/
def Checked.where_ (c : Checked) (typ index position t : Nat) : Nat :=
  ((sectionAt (c.of position) typ index position t).map (whereIs (c.of position))).getD 0

/-- The sections of this position, by number. -/
def Checked.mine (c : Checked) (typ : Nat) : List (Nat × Section) :=
  (numbered c.secs).filter fun x => x.2.applies c.position && decide (x.2.typ = typ)

def Checked.logicals (c : Checked) : List Nat := List.range c.man.tiles
def Checked.allPositions (c : Checked) : List Nat := List.range c.man.positions

/-- TILE of LOAD_WHERE for a section. -/
def tileByte (x : Section) : Nat := if x.tile = 0xFFFF then 0xFF else x.tile

/-! ### Data ranges after patching (R181), CODE 0x02 -/

/-- The data of a section that places bytes ends within its space. -/
def dataFits (x : Section) : Bool :=
  (decide (x.typ ≠ 4) || decide (leAt x.data 0 8 + (x.data.length - 8) ≤ spadBytes)) &&
    (decide (x.typ ≠ 8) || decide (leAt x.data 0 8 + (x.data.length - 8) ≤ hbmSpace))

/-- Every section of a position of the run, as patched where it is the device's own; what lies beyond the positions names
nothing. -/
def Checked.dataRanges (c : Checked) : Option Refuse :=
  let check (l : List Section) : List (Option Refuse) := ((numbered l).filter fun x => decide (x.2.posLo < c.man.positions)).map
    fun x => must (dataFits x.2) { code := 2, sec := x.1, tile := if x.2.typ = 4 then tileByte x.2 else 0 }
  firstOf (check c.dir ++ check c.secs)

/-! ### Layout of SEMS, PORTS and GLOBALS (R182), CODE 0x03 -/

def semsOk (d : List Byte) : Bool :=
  decide (144 ≤ d.length) && decide (d.length = 144 + 16 * (tollSems d).length) &&
    (List.range (tollSems d).length).all fun k =>
      let w0 := leAt d (144 + 16 * k) 8
      let w1 := leAt d (152 + 16 * k) 8
      decide (bitsAt w0 39 21 = 0) && decide (bitsAt w0 20 0 % 64 = 0) && decide (1 ≤ w1) && decide (w1 ≤ 32768)

def portsOk (d : List Byte) : Bool :=
  decide (d.length = 448) &&
    ((List.range 8).all fun p => decide (bitsAt (bpWord d p) 62 52 = 0) && decide (bitsAt (bpWord d p) 31 12 = 0)) &&
    (List.range 16).all fun k =>
      let w := chWord d k
      let o := ocWord d k
      let sw := senderOf d k
      decide (bitsAt w 60 34 = 0) && decide (bitsAt w 62 61 < 2) && decide (bitsAt o 62 62 = 0) && decide (bitsAt o 10 0 = 0)
        && (if bitsAt w 62 61 = 0 then decide (bitsAt sw 39 36 = 0) && decide (bitsAt sw 31 0 = 0)
            else decide (bitsAt sw 63 24 = 0))

/-- A reference to a global semaphore (R152, KIND 1). -/
def globalRefOk (w : Nat) : Bool :=
  decide (bitsAt w 63 62 = 1) && decide (bitsAt w 61 56 = 0) && decide (bitsAt w 39 12 = 0)

def globalsOk (d : List Byte) (n : Nat) : Bool :=
  let w := gsWord d n
  let k := gsListLen d n
  let o := gsListOff d n
  decide (w / 2 ^ 62 < 3) && decide (bitsAt w 28 13 = 0) && decide (k ≤ 64)
    && (decide (k = 0) || (decide (65536 ≤ o) && decide (o % 8 = 0) && decide (o + 8 * k ≤ d.length)
      && (List.range k).all fun j => globalRefOk (leAt d (o + 8 * j) 8)))

def Checked.layouts (c : Checked) : Option Refuse :=
  firstOf (((c.mine 5).map fun x => must (semsOk x.2.data) { code := 3, sec := x.1, tile := tileByte x.2 }) ++
    ((c.mine 6).map fun x => must (portsOk x.2.data) { code := 3, sec := x.1, tile := tileByte x.2 }) ++
    ((c.mine 7).flatMap fun x =>
      must (decide (65536 ≤ x.2.data.length)) { code := 3, sec := x.1 } ::
        (List.range 4096).map fun n => must (globalsOk x.2.data n) { code := 3, sec := x.1, loc := n }))

/-! ### Encodings (R58 to R61, R84, R95, R121, R147), CODE 0x08, and a chain's outputs (R104), CODE 0x09 -/

/-- The bundles of this position, with directory index, tile byte and bundle index. -/
def Checked.bundles (c : Checked) : List (Nat × Nat × Nat × BitVec 384) :=
  (c.mine 1).flatMap fun x =>
    let bs := overlayBundles x.2.data
    ((List.range bs.length).zip bs).map fun b => (x.1, tileByte x.2, b.1, b.2)

def Checked.encodings (c : Checked) : Option Refuse :=
  firstOf (c.bundles.map fun b => must (bundleOk b.2.2.2) { code := 8, sec := b.1, tile := b.2.1, loc := b.2.2.1 })

/-- Whether the outputs of a chain stay within the v registers. -/
def chainOk (b : BitVec 384) : Bool :=
  !bundlePresent b 26 || decide (veOpc (bundleVe b) ≠ 0x60) ||
    decide ((veFields (bundleVe b)).vd.toNat + (veFields (bundleVe b)).sub.toNat / 8 ≤ 31)

def Checked.chains (c : Checked) : Option Refuse :=
  firstOf (c.bundles.map fun b => must (chainOk b.2.2.2) { code := 9, sec := b.1, tile := b.2.1, loc := b.2.2.1 })

/-! ### Loop terms and fixed addresses (R65, R85, R97, R102), CODE 0x0A -/

/-- A loop term: L is at most 4, and the stride register is g0 where L is 0. -/
def termOk (l stride : Nat) : Bool := decide (l < 5) && (decide (l ≠ 0) || decide (stride = 0))

/-- An address that no register takes part in is a multiple of the access's width. -/
def fixedOk (a stride imm width : Nat) : Bool := decide (a ≠ 0 ∨ stride ≠ 0) || decide (imm % width = 0)

def termsOk (b : BitVec 384) : Bool :=
  let sc := scFields (bundleSc b)
  let ve := veFields (bundleVe b)
  let mx := mxFields (bundleMx b)
  let scLs := bundlePresent b 27 && (decide (scOpc (bundleSc b) = 0x40) || decide (scOpc (bundleSc b) = 0x41))
  let veLs := bundlePresent b 26 && (decide (veOpc (bundleVe b) = 0x50) || decide (veOpc (bundleVe b) = 0x51))
  let veCh := bundlePresent b 26 && decide (veOpc (bundleVe b) = 0x60)
  let mxOp := mxOpc (bundleMx b)
  (!scLs || (termOk (sc.x.toNat / 8 % 8) sc.b.toNat &&
      fixedOk sc.a.toNat sc.b.toNat sc.imm.toNat (8 / 2 ^ (sc.x.toNat / 128)))) &&
    (!veLs || (termOk ve.l.toNat ve.gb.toNat && fixedOk ve.ga.toNat ve.gb.toNat ve.imm.toNat 32)) &&
    (!veCh || fixedOk ve.ga.toNat 0 ve.imm.toNat 64) &&
    (!bundlePresent b 25 || decide (mxOp = 0) || (if mxOp = 3 ∨ mxOp = 4 then decide (mx.l.toNat < 5)
      else termOk mx.l.toNat mx.b.toNat))

def Checked.terms (c : Checked) : Option Refuse :=
  firstOf (c.bundles.map fun b => must (termsOk b.2.2.2) { code := 0xA, sec := b.1, tile := b.2.1, loc := b.2.2.1 })

/-! ### Control flow (R60, R67, R70, R72, R75), CODE 0x0B -/

/-- A loop of an overlay: the index of its `loop`, the last bundle of its body, and its level. -/
structure LoopBody where
  head : Nat
  last : Nat
  level : Nat
  deriving DecidableEq, Repr

def LoopBody.holds (l : LoopBody) (i : Nat) : Bool := decide (l.head < i) && decide (i ≤ l.last)

/-- The opcode of a bundle's scalar slot; 0 without one. -/
def scOp (b : BitVec 384) : Nat := if bundlePresent b 27 then scOpc (bundleSc b) else 0

def loopsOf (bs : List (BitVec 384)) : List LoopBody :=
  bs.zipIdx.filterMap fun x =>
    let f := scFields (bundleSc x.1)
    if scOp x.1 = 0x54 then some ⟨x.2, x.2 + f.imm.toNat, f.x.toNat % 4⟩ else none

/-- A loop's body lies in its half, ends with its mark, and nests properly in the bodies around it. -/
def loopOk (bs : List (BitVec 384)) (ls : List LoopBody) (l : LoopBody) : Bool :=
  decide (l.head + 1 ≤ l.last) && decide (l.last - l.head ≤ 4094) && decide (l.last + 1 < 4096)
    && (match bs[l.last]? with
      | some b => (bundleLend b).getLsbD l.level
      | none => false)
    && ls.all fun o => decide (o.head ≥ l.head) || decide (o.last < l.head + 1) ||
      (decide (l.last ≤ o.last) && decide (o.level ≠ l.level))

/-- The instructions that a bundle with a loop-end mark must not hold. -/
def isControl (opc : Nat) : Bool := decide (0x50 ≤ opc) && decide (opc ≤ 0x55)

/-- A branch's target lies in the half, and in no body that does not hold the branch. -/
def targetOk (ls : List LoopBody) (i : Nat) (imm : W32) : Bool :=
  let t : Int := i + imm.toInt
  decide (0 ≤ t) && decide (t < 4096) && ls.all fun l => !l.holds t.toNat || l.holds i

/-- The control flow of one bundle: its marks end loops (log 8), its STOP and its `iswap` stand outside of bodies, its target is
allowed. -/
def flowOk (ls : List LoopBody) (i : Nat) (b : BitVec 384) : Bool :=
  let marks := (List.range 4).filter fun k => (bundleLend b).getLsbD k
  let inside := ls.any fun l => l.holds i
  let opc := scOp b
  (marks.all fun k => ls.any fun l => decide (l.last = i) && decide (l.level = k))
    && (decide (marks = []) || (!isControl opc && !bundleStop b))
    && !(inside && (bundleStop b || decide (opc = 0x55)))
    && (decide (opc ≠ 0x50 ∧ opc ≠ 0x51 ∧ opc ≠ 0x52) || targetOk ls i (scFields (bundleSc b)).imm)

/-- The overlay that a bundle's `ld.ovl` names. -/
def ovlNamed? (b : BitVec 384) : Option Nat :=
  if bundlePresent b 24 && decide (lsOpc (bundleLd b) = 3) then some ((lsFields (bundleLd b)).imm.toNat % 4096) else none

/-- The tiles that hold an overlay section. -/
def Checked.holders (c : Checked) (x : Nat × Section) : List Nat :=
  c.logicals.filter fun t => decide (c.where_ 1 x.2.index c.position t = x.1)

/-- Whether some fill of a tile's other half can exist: overlay 1, or an `ld.ovl` in one of its overlays. -/
def Checked.canSwap (c : Checked) (t : Nat) : Bool :=
  decide (c.bytes 1 1 c.position t ≠ []) ||
    (c.mine 1).any fun x => decide (c.where_ 1 x.2.index c.position t = x.1) &&
      (overlayBundles x.2.data).any fun b => (ovlNamed? b).isSome

def Checked.flow (c : Checked) : Option Refuse :=
  firstOf ((c.mine 1).map fun x =>
    let bs := overlayBundles x.2.data
    let ls := loopsOf bs
    let bad (i : Nat) : Refuse := { code := 0xB, sec := x.1, tile := tileByte x.2, loc := i }
    firstOf ((ls.map fun l => must (loopOk bs ls l) (bad l.head)) ++
      (bs.zipIdx.map fun b => must (flowOk ls b.2 b.1) (bad b.2)) ++
      (bs.zipIdx.map fun b => must (match ovlNamed? b.1 with
        | some k => (c.holders x).all fun t => decide (c.bytes 1 k c.position t ≠ [])
        | none => true) (bad b.2)) ++
      (bs.zipIdx.map fun b => must (decide (scOp b.1 ≠ 0x55) || (c.holders x).all c.canSwap) (bad b.2))))

/-! ### Format and curve tables (R35, R47, R110), CODE 0x0C -/

/-- CLASS, SIGN, LEAD and EXP of a decode entry. -/
def decClass (w : Nat) : Nat := w / 2 ^ 30
def decExp (w : Nat) : Int := signed8 (w / 2 ^ 16)

/-- FP32 +∞. -/
def posInf32 : Nat := 0x7F800000

def formatHeaderOk (t : List Byte) (index : Nat) : Bool :=
  let w0 := leAt t 0 4
  let w1 := leAt t 4 4
  let width := bitsAt w0 15 12
  let nenc := w0 % 256
  decide (w0 / 2 ^ 24 = 1) && decide (bitsAt w0 23 16 = index) && decide (16 ≤ index) && decide (index ≤ 31)
    && decide (4 ≤ width) && decide (width ≤ 8) && decide (bitsAt w0 11 10 ≠ 3) && decide (bitsAt w0 8 8 = 0)
    && decide (1 ≤ nenc) && decide (nenc ≤ 128) && decide (w1 % 256 = 0) && decide (leAt t 12 4 = 0)

/-- The decode table (R33, R35). -/
def formatDecodeOk (t : List Byte) : Bool :=
  let w0 := leAt t 0 4
  let w1 := leAt t 4 4
  let width := bitsAt w0 15 12
  let emin := signed8 (w1 / 2 ^ 24)
  let emax := signed8 (w1 / 2 ^ 16)
  let top := 2 ^ (width - 1)
  let fin := ((List.range (2 ^ width)).map (tableEntry t)).filter fun w => decide (decClass w = 0)
  let e0 := tableEntry t 0
  let en := tableEntry t top
  ((List.range 256).all fun c =>
      let w := tableEntry t c
      decide (bitsAt w 27 24 = 0) && decide (bitsAt w 15 7 = 0) && (decide (decClass w = 3) == decide (2 ^ width ≤ c)))
    && decide (decClass e0 = 0) && decide (bitsAt e0 29 28 = 0) && decide (e0 % 128 = 0) && decide (decExp e0 = emin)
    && ((List.range (top - 1)).all fun k =>
        let w := tableEntry t (k + 1)
        decide (tableEntry t (top + k + 1) = if bitsAt w 29 29 = 1 then w - 2 ^ 29 else w + 2 ^ 29))
    && (decide (decClass en = 1) || (decide (decClass en = 0) && decide (bitsAt en 29 29 = 1) && decide (bitsAt en 28 28 = 0)
        && decide (en % 128 = 0)))
    && (fin.all fun w => decide (emin ≤ decExp w) && decide (decExp w ≤ emax) && (tableLead w || decide (decExp w = emin)))
    && (fin.any fun w => decide (decExp w = emin)) && (fin.any fun w => decide (decExp w = emax))
    && decide (emax - emin ≤ 63) && decide (-64 ≤ emin) && decide (emax ≤ 63)

/-- The encode table, VMAX and ELEM_EMAX (R34, R35). -/
def formatEncodeOk (t : List Byte) : Bool :=
  let w0 := leAt t 0 4
  let width := bitsAt w0 15 12
  let n := w0 % 256
  let raw (i : Nat) : Nat := leAt t (1040 + 8 * i) 8
  let th (i : Nat) : Nat := raw i % 2 ^ 32
  let code (i : Nat) : Nat := raw i / 2 ^ 32 % 256
  let val (i : Nat) : Dy := (tableDecode (tableEntry t (code i))).dy
  let thv (i : Nat) : Dy := (fp32 (BitVec.ofNat 32 (th i))).dy
  let vmax := fp32 (BitVec.ofNat 32 (leAt t 8 4))
  ((List.range n).all fun i =>
      decide (raw i / 2 ^ 41 = 0) && decide (code i < 2 ^ (width - 1)) && decide (decClass (tableEntry t (code i)) = 0)
        && decide (bitsAt (tableEntry t (code i)) 29 29 = 0)
        && (if i + 1 = n then decide (th i = posInf32)
            else decide (0 < th i) && decide (th i < posInf32) && decide (th i < th (i + 1)) && (val i).lt (val (i + 1))
              && (val i).le (thv i) && (thv i).le (val (i + 1))))
    && decide (code 0 = 0)
    && ((List.range (128 - n)).all fun k => decide (raw (n + k) = 0))
    && (match vmax with
        | .fin neg _ _ => !neg && vmax.dy.eq (val (n - 1)) && decide ((val (n - 1)).m ≠ 0)
            && decide ((val (n - 1)).log2 = signed8 (leAt t 5 1))
        | _ => false)

def formatTableOk (t : List Byte) (index : Nat) : Bool :=
  formatHeaderOk t index && formatDecodeOk t && formatEncodeOk t

def curveTableOk (t : List Byte) : Bool :=
  let w0 := leAt t 0 4
  let ebase := signed8 (w0 / 2 ^ 8)
  decide (w0 / 2 ^ 24 = 1) && decide (bitsAt w0 23 18 = 0) && decide (bitsAt w0 17 16 ≠ 3) && decide (-126 ≤ ebase)
    && decide (bitsAt w0 7 3 = 0) && allZero t 4 12
    && (List.range 256).all fun k => allZero t (16 + 16 * k + 12) 4

def Checked.tables (c : Checked) : Option Refuse :=
  firstOf ([must (decide (c.man.hash ≠ 3)) { code := 0xC, loc := 0x20 }] ++
    ((c.mine 2).map fun x => must (formatTableOk x.2.data x.2.index) { code := 0xC, sec := x.1, loc := x.2.index }) ++
    ((c.mine 3).map fun x => must (curveTableOk x.2.data) { code := 0xC, sec := x.1, tile := tileByte x.2, loc := x.2.index }))

/-- The installed format tables of the image. -/
def Checked.formats (c : Checked) : SMap (List Byte) :=
  (c.mine 2).foldl (fun m x => SMap.set m x.2.index x.2.data) []

/-! ### Tolls (R133, R135), CODE 0x0F -/

/-- The toll semaphores of a tile of this position. -/
def Checked.tollsOf (c : Checked) (t : Nat) : List TollBind :=
  let d := c.bytes 5 0 c.position t
  if d = [] then [] else tollBinds d

def Checked.isToll (c : Checked) (t sem : Nat) : Bool := (c.tollsOf t).any fun x => decide (x.sem = sem)

/-- The bundles of a tile with directory index and bundle index. -/
def Checked.tileBundles (c : Checked) (t : Nat) : List (Nat × Nat × BitVec 384) :=
  (sectionsAt c.secs 1 c.position t).flatMap fun x =>
    let bs := overlayBundles x.data
    ((List.range bs.length).zip bs).map fun b => (whereIs c.secs x, b.1, b.2)

/-- A store or load slot must not name a toll semaphore as its completion, and a tolled store names a toll. -/
def Checked.tollUse (c : Checked) (t : Nat) (b : BitVec 384) : Bool :=
  let ld := lsFields (bundleLd b)
  let st := lsFields (bundleSt b)
  let sy := bundleSy b
  let so := lsOpc (bundleSt b)
  !(bundlePresent b 24 && decide (ld.sv = 1) && c.isToll t ld.sem.toNat)
    && !(bundlePresent b 23 && decide (st.sv = 1) && c.isToll t st.sem.toNat)
    && !(bundlePresent b 23 && (decide (so = 1) || decide (so = 2)) && decide (st.tv = 1) && !c.isToll t st.toll.toNat)
    && !(bundlePresent b 22 && decide (syOpc sy = 3) && c.isToll t (syFieldsA sy).sem.toNat)
    && !(bundlePresent b 22 && decide (syOpc sy = 0x18) && decide (bitsAt sy.toNat 14 14 = 1)
      && c.isToll t (bitsAt sy.toNat 13 8))

def Checked.tolls (c : Checked) : Option Refuse :=
  firstOf (c.logicals.flatMap fun t =>
    let d := c.bytes 5 0 c.position t
    ((c.tollsOf t).map fun x =>
      must (decide (semInit d x.sem ≤ x.size)) { code := 0xF, sec := c.where_ 5 0 c.position t, tile := t, loc := x.sem }) ++
    (c.tileBundles t).map fun b => must (c.tollUse t b.2.2) { code := 0xF, sec := b.1, tile := t, loc := b.2.1 })

/-! ### Semaphores, belays and channels (R21, R151, R155, R161, R166), CODE 0x0E -/

/-- A tile's ports at a position. -/
def Checked.ports (c : Checked) (position t : Nat) : List Byte := c.bytes 6 0 position t

/-- The belay ports bound by a position's tiles: chip and index of the belay. -/
def Checked.bindings (c : Checked) (position : Nat) : List (Nat × Nat) :=
  c.logicals.flatMap fun t => (List.range 8).filterMap fun p =>
    let b := bpOf (bpWord (c.ports position t) p)
    if b.valid then some (b.chip, b.index) else none

/-- Agents of this position that arrive at a belay: update descriptors, and base camp at the step-end belay. -/
def Checked.agents (c : Checked) (n : Nat) : Nat :=
  ((updDescsOf (c.bytes 0xC 0 c.position 0xFFFF)).filter fun u => decide (u.belay = n)).length
    + (if n = c.man.stepBelay then 1 else 0)

/-- The belays of a position whose parent is a given belay. -/
def Checked.childrenOf (c : Checked) (position parent n : Nat) : Nat :=
  let d := c.bytes 7 0 position 0xFFFF
  if d = [] then 0
  else ((List.range 4096).filter fun k =>
    decide (gsWord d k / 2 ^ 62 = 2) && decide ((gsOf d k).parent = some (parent, n))).length

/-- The participants of a belay of this position. -/
def Checked.participants (c : Checked) (n : Nat) : Nat :=
  (c.allPositions.map fun p =>
    ((c.bindings p).filter fun b => decide (b = (c.position, n))).length + c.childrenOf p c.position n).foldl (· + ·) 0
    + c.agents n

/-- Whether the parents of a belay end within four levels (R155). That the STEP_BELAY belays of all positions share one root, and
that the belay of an update descriptor lies in that tree, R199 does not ask, and an image where they do not is accepted
(DESIGN CHOICE, log 103). -/
def Checked.treeOk (c : Checked) : Nat → Nat → Nat → Bool
  | 0, _, _ => false
  | fuel + 1, p, n =>
    match (gsOf (c.bytes 7 0 p 0xFFFF) n).parent with
    | none => true
    | some (q, m) => Checked.treeOk c fuel q m

/-- Whether one of this position's belays is bound as R155 wants. -/
def Checked.belayOk (c : Checked) (d : List Byte) (n : Nat) : Bool :=
  let g := gsOf d n
  decide (g.mode ≠ .belay) || (decide (1 ≤ g.count) && decide (g.count ≤ 4096) && decide (g.count = c.participants n)
    && c.treeOk 4 c.position n)

/-- Whether a channel's configuration fits its ring and its one sender. -/
def Checked.channelOk (c : Checked) (t k : Nat) : Bool :=
  let d := c.ports c.position t
  let x := chOf (chWord d k) (senderOf d k)
  let sw := senderOf d k
  let o := ocOf (ocWord (c.ports (sw / 2 ^ 48) (bitsAt sw 47 40)) (bitsAt sw 35 32))
  !x.valid || (decide (64 ≤ x.size) && decide (x.size ≤ 4096) && decide (x.base % 64 = 0)
    && decide (x.base + 72 * x.size ≤ spadBytes)
    && (decide (x.src = 1) || (o.valid && decide (o.chip = c.position) && decide (o.tile = t) && decide (o.ch = k)
      && decide (o.size = x.size))))

/-- Whether an outbound port fits its receiver and its toll semaphore. -/
def Checked.outboundOk (c : Checked) (t k : Nat) : Bool :=
  let o := ocOf (ocWord (c.ports c.position t) k)
  let r := c.ports o.chip o.tile
  let x := chOf (chWord r o.ch) (senderOf r o.ch)
  let sw := senderOf r o.ch
  !o.valid || (x.valid && decide (x.src = 0) && decide (x.size = o.size) && decide (sw / 2 ^ 48 = c.position)
    && decide (bitsAt sw 47 40 = t) && decide (bitsAt sw 35 32 = k) && c.isToll t o.toll
    && decide (semInit (c.bytes 5 0 c.position t) o.toll = o.size)
    && (List.range 16).all fun j => decide (j = k) ||
        (let y := ocOf (ocWord (c.ports c.position t) j)
         !y.valid || decide (y.toll ≠ o.toll)))

/-- The regions of a tile's rings and of the data that the image places. -/
def Checked.ringsOf (c : Checked) (t : Nat) : List (Nat × Nat) :=
  (List.range 16).filterMap fun k =>
    let x := chOf (chWord (c.ports c.position t) k) 0
    if x.valid then some (x.base, x.base + 72 * x.size) else none
def Checked.placed (c : Checked) (t : Nat) : List (Nat × Nat) :=
  (sectionsAt c.secs 4 c.position t).map fun x => (leAt x.data 0 8, leAt x.data 0 8 + (x.data.length - 8))

def apart (a b : Nat × Nat) : Bool := decide (a.2 ≤ b.1) || decide (b.2 ≤ a.1)

/-- The regions of a tile that toll semaphores of other tiles are bound to (R133), but for those of outbound ports, whose region
is the ring. -/
def Checked.tollRegions (c : Checked) (t : Nat) : List (Nat × Nat) :=
  c.allPositions.flatMap fun p => c.logicals.flatMap fun u =>
    let d := c.bytes 5 0 p u
    let ports := c.ports p u
    (if d = [] then [] else tollBinds d).filterMap fun x =>
      if x.position = c.position ∧ x.tile = t ∧ !((List.range 16).any fun k =>
          (ocOf (ocWord ports k)).valid && decide ((ocOf (ocWord ports k)).toll = x.sem)) then
        some (x.base, x.base + 64 * x.size)
      else none

/-- A ring shares no byte with another ring, with data that the image places, or with a region that others fill (R161). -/
def Checked.ringsApart (c : Checked) (t : Nat) : Bool :=
  let rs := c.ringsOf t
  ((List.range rs.length).all fun i => (List.range rs.length).all fun j =>
    decide (i = j) || apart (rs.getD i (0, 0)) (rs.getD j (0, 0)))
  && rs.all fun r => (c.placed t ++ c.tollRegions t).all fun q => apart r q

/-- What a sync slot names: no toll in a wait, bound ports, bound outbound ports, configured channels. -/
def Checked.syncUse (c : Checked) (t : Nat) (b : BitVec 384) : Bool :=
  let d := c.ports c.position t
  let w := bundleSy b
  let opc := syOpc w
  let n := w.toNat
  !bundlePresent b 22 ||
    (if opc = 1 ∨ opc = 2 ∨ opc = 4 then !c.isToll t (syFieldsA w).sem.toNat
     else if opc = 0x10 ∨ opc = 0x11 ∨ opc = 0x12 then (bpOf (bpWord d (bitsAt n 25 23))).valid
     else if opc = 0x18 then (ocOf (ocWord d (bitsAt n 25 22))).valid
     else if opc = 0x20 ∨ opc = 0x21 then
       decide (bitsAt n 15 0 ≠ 0) && (List.range 16).all fun k => decide (n / 2 ^ k % 2 = 0) || (chOf (chWord d k) 0).valid
     else true)

def Checked.sync (c : Checked) : Option Refuse :=
  let sb := c.man.stepBelay
  firstOf ((c.allPositions.map fun p =>
      must (decide (sb < 4096) && decide (gsWord (c.bytes 7 0 p 0xFFFF) sb / 2 ^ 62 = 2))
        { code := 0xE, sec := c.where_ 7 0 p 0xFFFF, loc := sb }) ++
    (c.logicals.flatMap fun t =>
      let sec := c.where_ 6 0 c.position t
      let d := c.ports c.position t
      [must ((List.range 8).any fun p => (bpOf (bpWord d p)).valid && decide ((bpOf (bpWord d p)).index = sb))
        { code := 0xE, sec := sec, tile := t },
       must (c.ringsApart t) { code := 0xE, sec := sec, tile := t }] ++
      ((List.range 16).map fun k => must (c.channelOk t k && c.outboundOk t k) { code := 0xE, sec := sec, tile := t, loc := k }) ++
      ((c.tileBundles t).map fun b => must (c.syncUse t b.2.2) { code := 0xE, sec := b.1, tile := t, loc := b.2.1 })) ++
    (let d := c.bytes 7 0 c.position 0xFFFF
     (List.range 4096).map fun n =>
       must (c.belayOk d n) { code := 0xE, sec := c.where_ 7 0 c.position 0xFFFF, loc := n }))

/-! ### Routes (R124, R153, R202), CODE 0x10 and 0x13 -/

/-- The primary table of a port of this position, and its queues. -/
def Checked.timetable (c : Checked) (p : Nat) : List Byte := c.bytes 0xA p c.position 0xFFFF

/-- Whether a table gives a queue scheduled slots. -/
def TTable.serves (t : TTable) (q : Nat) : Bool := t.tx.any fun e => decide (e.cls = 1) && decide (e.queue = q)

/-- The chip map of the image. -/
def Checked.chipMap (c : Checked) : ChipMap :=
  let d := c.bytes 9 0 c.position 0xFFFF
  if d = [] then {} else chipMapOf d c.man.positions

/-- The table of a port of a position for an alternate: the one that names it, else the primary. -/
def Checked.tableFor (c : Checked) (position p alt : Nat) : Option TTable :=
  let d := c.bytes 0xA p position 0xFFFF
  if d = [] then none
  else match (ttablesOf d).find? fun t => decide (t.alt = alt) with
    | some t => some t
    | none => (ttablesOf d)[0]?

def noRepeats {α : Type} [DecidableEq α] : List α → Bool
  | [] => true
  | x :: l => !(l.any fun y => decide (y = x)) && noRepeats l

/-- The alternates that this position's tables name, the primary first. -/
def Checked.alts (c : Checked) : List Nat :=
  (0 :: (c.mine 0xA).flatMap fun x => (ttablesOf x.2.data).map TTable.alt).eraseDups

/-- Whether an alternate is that of a link case which names a port of this position or the port's partner (R275). -/
def Checked.failedPort (c : Checked) (alt p : Nat) : Bool :=
  let peer := (c.chipMap.node? c.position).bind fun x => x.cables[p]?
  c.chipMap.cases.any fun k => decide (k.kind = 1) && decide (k.alt = alt) &&
    (decide (k.position = c.position ∧ k.sub = p) || (match peer with
      | some (1, pp, n) => decide (k.position = n ∧ k.sub = pp)
      | _ => false))

/-- The queues that agents of this position send on under an alternate: source, detail and destination. Forwards and EAGER queues
(R270) are no routes of an agent. -/
def Checked.agentQueues (c : Checked) (alt : Nat) : List (Nat × Nat × Nat) :=
  (List.range 16).flatMap fun p =>
    match c.tableFor c.position p alt with
    | some t => if c.failedPort alt p then [] else
        (queuesOf (c.timetable p)).zipIdx.filterMap fun e =>
          if e.1.src ≠ 5 ∧ !e.1.eager ∧ t.serves e.2 then some (e.1.src, e.1.detail, e.1.dest) else none
    | none => []

/-- Whether this position has a route of a source to a destination, on each of its tables (R268). -/
def Checked.routed (c : Checked) (src detail dest : Nat) : Bool :=
  c.alts.all fun a => (c.agentQueues a).contains (src, detail, dest)

def Checked.routes (c : Checked) : Option Refuse :=
  firstOf (c.logicals.flatMap fun t =>
    let d := c.ports c.position t
    let sec := c.where_ 6 0 c.position t
    ((List.range 8).map fun p =>
      let b := bpOf (bpWord d p)
      must (!b.valid || decide (b.chip = c.position) || c.routed 1 t b.chip) { code := 0x10, sec := sec, tile := t, loc := p }) ++
    (List.range 16).map fun o =>
      let x := ocOf (ocWord d o)
      must (!x.valid || decide (x.chip = c.position) || c.routed 0 t x.chip) { code := 0x10, sec := sec, tile := t, loc := o })

/-- The layout of a TIMETABLE section (R265 to R267) and the fixed places of a leg (R264). -/
def queueOk (d : List Byte) (nq q : Nat) : Bool :=
  let w := leAt d (64 + 16 * q) 8
  let e := queueOf d q
  if q < nq then
    decide (e.src < 7) && decide (16 ≤ e.limit) && decide (e.limit ≤ 4096) && decide (bitsAt w 50 48 = 0)
      && decide (bitsAt w 31 16 = 0) && decide (leAt d (72 + 16 * q) 8 = 0)
      && (if e.src = 5 then decide (e.detail < 16) else if e.src = 6 then decide (e.detail = 0)
          else if 2 ≤ e.src then decide (e.detail < 4) else true)
  else allZero d (64 + 16 * q) 16

def tableSlotsOk (d : List Byte) (k nq : Nat) : Bool :=
  let t := ttableOf d k
  let o := 4160 + 6160 * k
  allZero d (o + 4) 12
    && ((List.range 1024).all fun i =>
        let w := leAt d (o + 16 + 2 * i) 2
        let r := leAt d (o + 2064 + 4 * i) 4
        decide (bitsAt w 12 8 = 0) && decide (bitsAt r 17 8 = 0) && decide (r / 2 ^ 30 < 3)
          && (decide (w / 2 ^ 14 ≠ 1) || decide (w % 256 < nq))
          && (decide (i % 16 ≠ 15) || decide (w / 2 ^ 14 = 2)))
    && decide (t.slackStart ≤ 1022)
    && decide (32 ≤ ((List.range 1023).filter fun i =>
        decide (t.slackStart ≤ i) && decide ((t.tx.getD i ⟨0, false, 0⟩).cls ≠ 2)).length)

def timetableOk (d : List Byte) (port : Nat) : Bool :=
  let nq := leAt d 2 1
  let nt := leAt d 3 1
  decide (leAt d 0 1 = 1) && decide (leAt d 1 1 = port) && decide (1 ≤ nt) && decide (d.length = 4160 + 6160 * nt)
    && allZero d 4 60 && ((List.range 256).all fun q => queueOk d nq q)
    && ((List.range nt).all fun k => tableSlotsOk d k nq)
    && decide ((ttableOf d 0).alt = 0)
    && ((List.range nt).all fun k => (List.range nt).all fun j =>
        decide (j = k) || decide ((ttableOf d j).alt ≠ (ttableOf d k).alt))

def chipMapOk (d : List Byte) (positions : Nat) : Bool :=
  let n := positions + leAt d 1 1
  decide (leAt d 0 1 = 1) && decide (leAt d 2 2 ≤ 16384) && decide (d.length = 64 + 80 * n + 8 * leAt d 2 2)
    && allZero d 10 54
    && ((List.range n).all fun i => allZero d (64 + 80 * i + 8) 8 &&
        (List.range 16).all fun p => decide (bitsAt (leAt d (64 + 80 * i + 16 + 4 * p) 4) 25 16 = 0))
    && (List.range (leAt d 2 2)).all fun k =>
        let x := caseOf d (64 + 80 * n + 8 * k)
        (decide (x.kind = 1) || decide (x.kind = 2)) && decide (1 ≤ x.alt) && decide (x.alt ≤ 254) && decide (x.position < positions)
          && (if x.kind = 1 then decide (x.sub < 16) else decide (x.sub < leAt d 1 1))

/-- Whether the partner of a port receives what a table sends, slot by slot. -/
def Checked.partnerTakes (c : Checked) (p : Nat) (t : TTable) : Bool :=
  match ((c.chipMap.node? c.position).bind fun x => x.cables[p]?) with
  | some (1, pp, n) =>
    match c.tableFor n pp t.alt with
    | some u => (List.range 1024).all fun i =>
        match t.tx[i]?, u.rx[i]? with
        | some a, some b => decide (a.cls ≠ 1) || (decide (b.action ≠ 0) && decide (b.squeue = a.queue))
        | _, _ => false
    | none => t.tx.all fun a => decide (a.cls ≠ 1)
  | _ => true

/-- The destinations that a belay of this position must reach. -/
def Checked.belayDests (c : Checked) (d : List Byte) (n : Nat) : List Nat :=
  let g := gsOf d n
  (match g.parent with
   | some (p, _) => [p]
   | none => []) ++ g.children.map refChip ++
    c.allPositions.filter fun p => (c.bindings p).any fun b => decide (b = (c.position, n))

def Checked.reds (c : Checked) : List RedDesc :=
  let d := c.bytes 0xD 0 c.position 0xFFFF
  if d = [] then [] else redsOf d

/-- The descriptors of a position that send contributions to a reduction. -/
def Checked.contributors (c : Checked) (p dest rid : Nat) : List RedDesc :=
  let d := c.bytes 0xD 0 p 0xFFFF
  (if d = [] then [] else redsOf d).filter fun x =>
    (decide (x.role = 1) || decide (x.dispose = 2)) && decide (x.dest = dest) && decide (x.drid = rid)

/-- The routes of the reduction engine (R202, R303, R304): to where a descriptor sends, and to its senders for their tolls; and
the contributors of a sum agree on its order: each has a place of its own among the N and sends blocks of one shape (log 8). -/
def Checked.redRouted (c : Checked) (r : RedDesc) : Bool :=
  let here (p : Nat) : Bool := decide (p = c.position) || c.routed 2 r.depot p
  let all := c.allPositions.flatMap fun p => c.contributors p c.position r.rid
  ((decide (r.role ≠ 1) && decide (r.dispose ≠ 2)) || here r.dest) &&
    (decide (r.role = 1) || ((r.senders.all fun x => here (refChip x))
      && noRepeats ((if r.localC = 0xFFFF then [] else [r.localC]) ++ all.map RedDesc.contrib)
      && all.all fun x => decide (x.contrib < r.n) && decide (x.nblocks = r.nblocks) && decide (x.e32 = r.e32)
        && decide ((if x.role = 1 then x.fmt else x.outFmt) = r.fmt)))

/-- Whether something sends on a port (R202): its partner's tables, or a forward of this position. -/
def Checked.portUsed (c : Checked) (p : Nat) : Bool :=
  (match ((c.chipMap.node? c.position).bind fun x => x.cables[p]?) with
   | some (1, pp, n) => (ttablesOf (c.bytes 0xA pp n 0xFFFF)).any fun t => t.tx.any fun e => decide (e.cls = 1)
   | _ => false)
    || (c.mine 0xA).any fun x => (ttablesOf x.2.data).any fun t => t.rx.any fun e => decide (e.action = 2) && decide (e.outPort = p)

/-- Where the chip map cables spares, each link of this position has a case with an alternate (R202, R275). -/
def Checked.bypassed (c : Checked) (p : Nat) : Bool :=
  let m := c.chipMap
  !(m.nodes.any fun x => x.cables.any fun k => decide (k.1 = 2)) ||
    (match ((m.node? c.position).bind fun x => x.cables[p]?) with
     | some (1, pp, n) => m.cases.any fun k => decide (k.kind = 1) &&
         (decide (k.position = c.position ∧ k.sub = p) || decide (k.position = n ∧ k.sub = pp))
     | _ => true)

def Checked.timetables (c : Checked) : Option Refuse :=
  let cm := c.bytes 9 0 c.position 0xFFFF
  let d := c.bytes 7 0 c.position 0xFFFF
  firstOf ([must (decide (cm = []) || chipMapOk cm c.man.positions) { code := 2, sec := c.where_ 9 0 c.position 0xFFFF }] ++
    ((c.mine 0xA).map fun x => must (timetableOk x.2.data x.2.index) { code := 0x13, sec := x.1 }) ++
    ((c.mine 0xA).flatMap fun x => (ttablesOf x.2.data).map fun t =>
      must (c.partnerTakes x.2.index t) { code := 0x13, sec := x.1, loc := t.alt }) ++
    (c.alts.map fun a => must (noRepeats (c.agentQueues a)) { code := 0x13, sec := c.where_ 0xA 0 c.position 0xFFFF, loc := a }) ++
    ((List.range 16).map fun p =>
      must (!c.portUsed p || decide (c.timetable p ≠ [])) { code := 0x13, sec := c.where_ 9 0 c.position 0xFFFF, loc := p }) ++
    ((List.range 16).map fun p => must (c.bypassed p) { code := 0x13, sec := c.where_ 9 0 c.position 0xFFFF, loc := p }) ++
    (c.reds.map fun r => must (c.redRouted r) { code := 0x13, sec := c.where_ 0xD 0 c.position 0xFFFF, loc := r.rid }) ++
    (List.range 4096).map fun n =>
      must (decide ((gsOf d n).mode ≠ .belay) ||
          (c.belayDests d n).all fun q => decide (q = c.position) || c.routed (holderSrc n).1 (holderSrc n).2 q)
        { code := 0x13, sec := c.where_ 7 0 c.position 0xFFFF, loc := n })

/-! ### Crossings (R203, R217), CODE 0x14 -/

/-- Entries of a group and direction that are live together at an issue cycle. -/
def liveAt (l : List Crossing) (cyc : Nat) : Nat := (l.filter fun e => decide (e.write ≤ cyc) && decide (cyc ≤ e.read)).length

/-- The peak of a group: the count is greatest where some entry begins. -/
def peakOf (l : List Crossing) : Nat := (l.map fun e => liveAt l e.write).foldl Nat.max 0

/-- The groups of one direction, in ascending ANCHOR. -/
def groupsOf (l : List Crossing) (dir : Nat) : List (List Crossing) :=
  let mine := l.filter fun e => decide (e.dir = dir)
  (sortNats (mine.map Crossing.anchor).eraseDups).map fun a => mine.filter fun e => decide (e.anchor = a)

def Checked.crossingOk (c : Checked) (pair : Nat) (e : Crossing) : Bool :=
  let rp := e.ptile / c.man.ltpr
  let rc := e.ctile / c.man.ltpr
  decide (e.ptile < c.man.tiles) && decide (e.ctile < c.man.tiles)
    && (if e.dir = 0 then decide (rp = pair) && decide (rc = pair + 1) else decide (rp = pair + 1) && decide (rc = pair))
    && decide (e.write + 4 ≤ e.read)

/-- The entries that a tile takes part in. -/
def Checked.crossingsAt (c : Checked) (t : Nat) : Nat :=
  ((c.mine 0xB).flatMap fun x => (crossingsOf x.2.data).filter fun e => decide (e.ptile = t) || decide (e.ctile = t)).length

def Checked.crossings (c : Checked) : Option Refuse :=
  firstOf (((c.mine 0xB).flatMap fun x =>
      let l := crossingsOf x.2.data
      ((List.range l.length).map fun i =>
        must (match l[i]? with
          | some e => c.crossingOk x.2.index e && decide (bitsAt (leAt x.2.data (16 * i) 8) 46 12 = 0)
          | none => true) { code := 0x14, sec := x.1, loc := i }) ++
      (List.range 2).map fun dir =>
        must (decide (((groupsOf l dir).map peakOf).foldl (· + ·) 0 ≤ 16)) { code := 0x14, sec := x.1 }) ++
    c.logicals.map fun t => must (decide (c.crossingsAt t ≤ 256)) { code := 0x14, tile := t })

/-! ### Reductions, updates and outputs (R302, R304, R317, R318, R455), CODE 0x02 -/

def gsemOfDepot (d g : Nat) : Bool := decide (768 * d ≤ g) && decide (g < 768 * d + 768)

def redOk (r : RedDesc) (d : List Byte) (i : Nat) (ctr : Nat → Bool) : Bool :=
  let o := 64 + 64 * i
  let snd := decide (r.role = 1)
  let fwd := snd || decide (r.dispose = 2)
  let staged := snd || decide (r.localC ≠ 0xFFFF)
  decide (r.role < 2) && decide (r.depot < 4) && decide (r.fmt < 2) && decide (leAt d (o + 9) 1 < 8) && decide (1 ≤ r.e32)
    && decide (r.e32 ≤ 256) && decide (1 ≤ r.nblocks) && allZero d (o + 45) 3 && allZero d (o + 52) 12
    && (snd || (decide (2 ≤ r.n) && decide (r.n ≤ 256) && decide (r.outFmt < 3) && decide (r.dispose < 3) && decide (1 ≤ r.slots)
      && decide (r.slots ≤ 4096) && (decide (r.localC = 0xFFFF) || decide (r.localC < r.n))
      && decide (redSendersOff d i + 8 * senderCount r ≤ d.length)))
    && (!staged || (gsemOfDepot r.depot r.trigger && ctr r.trigger))
    && (!fwd || (gsemOfDepot r.depot r.toll && ctr r.toll))

/-- The tolls of a sum (R304): its list names the toll semaphore of every position that sends to it, and each starts at its SLOTS. -/
def Checked.redTolls (c : Checked) (r : RedDesc) : Bool :=
  decide (r.role = 1) ||
    ((r.senders.all fun x =>
        let g := c.bytes 7 0 (refChip x) 0xFFFF
        decide (gsWord g (x.toNat % 4096) / 2 ^ 62 = 1) && decide (gsInit g (x.toNat % 4096) = r.slots))
      && c.allPositions.all fun p => (c.contributors p c.position r.rid).all fun y =>
        r.senders.any fun x => decide (refChip x = p) && decide (x.toNat % 4096 = y.toll))

def Checked.reductions (c : Checked) : Option Refuse :=
  let d := c.bytes 0xD 0 c.position 0xFFFF
  let g := c.bytes 7 0 c.position 0xFFFF
  let sec := c.where_ 0xD 0 c.position 0xFFFF
  if d = [] then none
  else
    let l := redsOf d
    firstOf ([must (decide (leAt d 0 1 = 1) && decide (1 ≤ leAt d 2 2) && decide (leAt d 2 2 ≤ 4096) && allZero d 1 1
        && allZero d 4 60 && decide (64 + 64 * leAt d 2 2 ≤ d.length)) { code := 2, sec := sec }] ++
      (l.zipIdx.map fun r => must (c.redTolls r.1) { code := 2, sec := sec, loc := r.2 }) ++
      ((List.range l.length).map fun i =>
        must (match l[i]? with
          | some r => redOk r d i (fun n => decide (gsWord g n / 2 ^ 62 = 1))
              && !((l.take i).any fun q => decide (q.rid = r.rid))
          | none => true) { code := 2, sec := sec, loc := i }) ++
      ((List.range 4).map fun k =>
        must (decide (((l.filter fun r => decide (r.role = 0) && decide (r.depot = k)).map fun r =>
          r.slots * r.slotBytes).foldl (· + ·) 0 ≤ 2 ^ 26)) { code := 2, sec := sec, loc := k }))

/-- The arrays of a descriptor: field, bits per element (or bytes per scale times eight), elements. -/
def Checked.arrays (c : Checked) (u : UpdDesc) (n : Nat) : List (Nat × Nat) :=
  let one (f : Nat × Nat) (len : Nat) : List (Nat × Nat) := [(f.1, len)] ++ (if u.pingpong then [(f.2, len)] else [])
  let fmt (f fs : Nat × Nat) (w : W32) : List (Nat × Nat) :=
    let code := fmtCode w
    one f (codeBytes c.formats code n) ++ (if (scaleBlock c.formats code).isSome then one fs (scaleBytes c.formats code n) else [])
  one u.master (4 * n) ++ fmt u.m u.ms u.mfmt ++ fmt u.v u.vs u.vfmt ++ (if u.wcopy then fmt u.w u.ws u.wfmt else [])

/-- The segments of an array. -/
def arraySegs (a : Nat × Nat) : List Nat := (List.range ((a.2 + 2 ^ 19 - 1) / 2 ^ 19)).map fun k => a.1 / 2 ^ 19 + 4 * k

/-- Whether a moment format is one that R317 accepts. -/
def Checked.momentOk (c : Checked) (w : W32) (mblk e : Nat) : Bool :=
  let code := fmtCode w
  let b := if mblk = 0 then 32 else 64
  decide (w.toNat < 256) && decide (fmtRnd w ≠ 3) &&
    (decide (code = 1) ||
      ((decide (code = 3) || decide (code = 4) || decide (code = 8) || decide (16 ≤ code)) &&
        (match bfmt? c.formats code with
         | some f => decide (f.width = 8) && decide (f.block = b) && decide (b ≤ e)
         | none => false)))

def Checked.copyOk (c : Checked) (u : UpdDesc) (e : Nat) : Bool :=
  let code := fmtCode u.wfmt
  if u.wcopy then
    decide (u.wfmt.toNat < 256) && decide (fmtRnd u.wfmt ≠ 3) &&
      (decide (code < 3) || (match bfmt? c.formats code with
        | some f => decide (f.block ≤ e)
        | none => false))
  else decide (u.wfmt = 0) && decide (u.w = (0, 0)) && decide (u.ws = (0, 0))

def fieldZero (u : UpdDesc) : Bool :=
  u.pingpong || (decide (u.master.2 = 0) && decide (u.m.2 = 0) && decide (u.ms.2 = 0) && decide (u.v.2 = 0) && decide (u.vs.2 = 0)
    && decide (u.w.2 = 0) && decide (u.ws.2 = 0))

/-- A power of two from 32 to 8,192. -/
def blockSizeOk (e : Nat) : Bool := (List.range 9).any fun k => decide (e = 32 * 2 ^ k)

def Checked.updOk (c : Checked) (l : List UpdDesc) (d : List Byte) (i : Nat) (u : UpdDesc) : Bool :=
  match c.reds.find? fun r => decide (r.rid = u.rid) with
  | none => false
  | some r =>
    let e := 32 * r.e32
    let n := r.nblocks * e
    let as_ := c.arrays u n
    let g := c.bytes 7 0 c.position 0xFFFF
    decide (r.role = 0) && decide (r.dispose = 1) && !((l.take i).any fun q => decide (q.rid = u.rid))
      && decide (u.depot = r.depot) && decide (u.gfmt = r.outFmt) && decide (u.mblk < 2) && blockSizeOk e
      && decide (leAt d (64 + 192 * i + 3) 1 < 4) && allZero d (64 + 192 * i + 20) 4 && allZero d (64 + 192 * i + 144) 48
      && c.momentOk u.mfmt u.mblk e && c.momentOk u.vfmt u.mblk e && c.copyOk u e && fieldZero u
      && ((scaleBlock c.formats (fmtCode u.mfmt)).isSome || decide (u.ms = (0, 0)))
      && ((scaleBlock c.formats (fmtCode u.vfmt)).isSome || decide (u.vs = (0, 0)))
      && (as_.all fun a => decide (a.1 % 2 ^ 19 = 0) && decide (a.1 / 2 ^ 19 % 4 = u.depot)
          && (arraySegs a).all fun k => decide (k < 4194304))
      && decide (u.pbase + n ≤ 2 ^ 38) && decide (gsWord g u.belay / 2 ^ 62 = 2)

/-- The parameter numbers of a descriptor. -/
def Checked.paramSpan (c : Checked) (u : UpdDesc) : Nat × Nat :=
  match c.reds.find? fun r => decide (r.rid = u.rid) with
  | some r => (u.pbase, u.pbase + r.nblocks * (32 * r.e32))
  | none => (u.pbase, u.pbase)

def Checked.updSegs (c : Checked) (u : UpdDesc) : List Nat :=
  match c.reds.find? fun r => decide (r.rid = u.rid) with
  | some r => (c.arrays u (r.nblocks * (32 * r.e32))).flatMap arraySegs
  | none => []

/-- Whether a value is finite and whether it lies within a half-open unit interval. -/
def fin32 (w : W32) : Bool := match fp32 w with
  | .fin _ _ _ => true
  | _ => false
def atLeast0 (w : W32) : Bool := match fp32 w with
  | .fin neg m _ => !neg || decide (m = 0)
  | _ => false
def below1 (w : W32) : Bool := fin32 w && atLeast0 w && (fp32 w).dy.lt ⟨1, 0⟩

def groupOk (g : UpdGroup) (nsched : Nat) : Bool :=
  fin32 g.lr && below1 g.beta1 && below1 g.beta2 && atLeast0 g.eps && fin32 g.wd
    && (decide (g.clip = 0x7F800000) || (atLeast0 g.clip && decide ((fp32 g.clip).dy.m ≠ 0)))
    && decide (g.sched.toNat < 32) && (decide (g.sched.toNat < 16) || decide (g.sched.toNat % 16 < nsched))
    && (decide (16 ≤ g.sched.toNat) || decide (g.sched = 0))

def Checked.updates (c : Checked) : Option Refuse :=
  let d := c.bytes 0xC 0 c.position 0xFFFF
  let sec := c.where_ 0xC 0 c.position 0xFFFF
  if d = [] then none
  else
    let l := updDescsOf d
    let n := leAt d 1 1
    let ng := leAt d 2 2
    let ns := leAt d 4 1
    firstOf ([must (decide (leAt d 0 1 = 1) && decide (1 ≤ n) && decide (n ≤ 64) && decide (1 ≤ ng) && decide (ng ≤ 4096)
        && decide (ns ≤ 16) && allZero d 5 59 && decide (d.length = schedsAt d + 4112 * ns)) { code := 2, sec := sec }] ++
      ((List.range l.length).map fun i => must (match l[i]? with
        | some u => c.updOk l d i u
        | none => true) { code := 2, sec := sec, loc := i }) ++
      [must (noRepeats (l.flatMap c.updSegs)) { code := 2, sec := sec }] ++
      ((List.range l.length).map fun i =>
        must ((List.range i).all fun j => apart (c.paramSpan (l.getD i {})) (c.paramSpan (l.getD j {})))
          { code := 2, sec := sec, loc := i }) ++
      ((List.range ng).map fun i => must (groupOk (updGroupOf d i) ns) { code := 2, sec := sec, loc := i }) ++
      ((List.range ns).map fun k => must (curveTableOk ((schedsOf d).getD k [])) { code := 0xC, sec := sec, loc := k }))

/-- The bytes of an output entry: its set for KIND 1, its digests for KIND 2. -/
def Checked.outSpans (c : Checked) (e : OutEntry) : List (Nat × Nat) :=
  if e.kind = 1 then [(e.base, e.base + 2 * e.size)]
  else match c.reds.find? fun r => decide (r.rid = e.rid) with
    | some r => [(e.base, e.base + 2 * r.nblocks * 48)]
    | none => []

def Checked.outOk (c : Checked) (d : List Byte) (i : Nat) (e : OutEntry) : Bool :=
  let o := 64 + 32 * i
  let zero := allZero d (o + 1) 3 && allZero d (o + 6) 2 && allZero d (o + 24) 8
  zero && (if e.kind = 1 then
      decide (e.rid = 0) && decide (e.base % 64 = 0) && decide (e.size % 64 = 0) && decide (64 ≤ e.size) && decide (e.size ≤ 2 ^ 30)
    else
      decide (e.kind = 2) && decide (e.size = 0) && decide (e.base % 2 ^ 19 = 0)
        && c.reds.any fun r => decide (r.rid = e.rid) && decide (r.role = 0) && r.digest)

def Checked.outputs (c : Checked) : Option Refuse :=
  let d := c.bytes 0xE 0 c.position 0xFFFF
  let sec := c.where_ 0xE 0 c.position 0xFFFF
  let l := if d = [] then [] else outsOf d
  let upd := c.bytes 0xC 0 c.position 0xFFFF
  let segs := if upd = [] then [] else (updDescsOf upd).flatMap c.updSegs
  firstOf ((if d = [] then [] else
      [must (decide (leAt d 0 1 = 1) && decide (1 ≤ leAt d 2 2) && decide (leAt d 2 2 ≤ 256) && allZero d 1 1 && allZero d 4 60
        && decide (d.length = 64 + 32 * leAt d 2 2)) { code := 2, sec := sec }]) ++
    ((List.range l.length).map fun i => must (match l[i]? with
      | some e => c.outOk d i e
      | none => true) { code := 2, sec := sec, loc := i }) ++
    (c.reds.map fun r => must (!r.digest || l.any fun e => decide (e.kind = 2) && decide (e.rid = r.rid)) { code := 2, sec := sec }) ++
    ((List.range l.length).map fun i =>
      let mine := (l[i]?.map c.outSpans).getD []
      must ((List.range i).all fun j => mine.all fun a => ((l[j]?.map c.outSpans).getD []).all fun b => apart a b)
        { code := 2, sec := sec, loc := i }) ++
    ((List.range l.length).map fun i =>
      must (((l[i]?.map c.outSpans).getD []).all fun a => segs.all fun k => apart a (k * 2 ^ 19, (k + 1) * 2 ^ 19))
        { code := 2, sec := sec, loc := i }))

/-! ### STRICT (R210), CODE 0x15 -/

/-- A receive that selects more than one channel. -/
def widRecv (b : BitVec 384) : Bool :=
  let w := bundleSy b
  bundlePresent b 22 && (decide (syOpc w = 0x20) || decide (syOpc w = 0x21)) &&
    decide (1 < ((List.range 16).filter fun k => decide (w.toNat / 2 ^ k % 2 = 1)).length)

def Checked.strict (c : Checked) : Option Refuse :=
  if c.man.relax then none
  else firstOf ((c.bundles.map fun b => must (!widRecv b.2.2.2) { code := 0x15, sec := b.1, tile := b.2.1, loc := b.2.2.1 }) ++
    (c.reds.map fun r => must (!r.order) { code := 0x15, sec := c.where_ 0xD 0 c.position 0xFFFF, loc := r.rid }) ++
    ((c.mine 0xA).map fun x =>
      must (((queuesOf x.2.data).all fun q => !q.eager) && (ttablesOf x.2.data).all fun t => t.tx.all fun e => !e.opp)
        { code := 0x15, sec := x.1 }))

end Sys2Proof.Machine
end

