-- ==== Sys2Proof/Machine/Static.lean ====
section
/-! DEFINITION. What the verifier knows of the values of a path (R65, R68, R86): static values with the bits it knows of them, the
links of `jal`, and data; and the scalar slot's integer instructions over them. -/

namespace Sys2Proof.Machine

open Sys2Proof

/-- What is known of a register: a static value, of which the bits of `mask` are known and read as those of `v`; a link that a
`jal` in a half wrote; or data. `rdstep` gives a static value with no bit known (log 8). -/
inductive Val where
  | static (mask v : W64)
  | link (half pc : Nat)
  | data
  deriving DecidableEq, Repr

/-- A static value, in one form: a bit not known is 0. -/
def Val.st (mask v : W64) : Val := .static mask (v &&& mask)

def Val.of (v : W64) : Val := .static (BitVec.allOnes 64) v

def Val.isStatic : Val → Bool
  | .static _ _ => true
  | _ => false

/-- The low `n` bits, where all of them are known. -/
def Val.low? (n : Nat) : Val → Option Nat
  | .static m v => if m.toNat % 2 ^ n = 2 ^ n - 1 then some (v.toNat % 2 ^ n) else none
  | _ => none

def Val.value? (v : Val) : Option W64 := (v.low? 64).map (BitVec.ofNat 64)

/-- Bits 31:0 alone. -/
def Val.low32 : Val → Val
  | .static m v => .st (m ||| 0xFFFFFFFF00000000) (v &&& 0xFFFFFFFF)
  | x => x

/-! ### Integer instructions (R62, R63) -/

/-- The instruction that an instruction with an immediate shares its operation with. -/
def scBase (opc : Nat) : Nat :=
  match opc with
  | 0x20 => 0x01
  | 0x21 => 0x03
  | 0x22 => 0x04
  | 0x23 => 0x05
  | 0x24 => 0x06
  | 0x25 => 0x07
  | 0x26 => 0x08
  | 0x27 => 0x09
  | 0x28 => 0x0D
  | 0x29 => 0x0E
  | n => n

/-- The result of an integer instruction, an immediate standing for gB. -/
def scAlu (opc : Nat) (a b c : W64) : W64 :=
  match scBase opc with
  | 0x01 => a + b
  | 0x02 => a - b
  | 0x03 => a &&& b
  | 0x04 => a ||| b
  | 0x05 => a ^^^ b
  | 0x06 => a <<< (b.toNat % 64)
  | 0x07 => a >>> (b.toNat % 64)
  | 0x08 => a.sshiftRight (b.toNat % 64)
  | 0x09 => a * b
  | 0x0A => BitVec.ofNat 64 (a.toNat * b.toNat / 2 ^ 64)
  | 0x0B => if b = 0 then BitVec.allOnes 64 else BitVec.ofNat 64 (a.toNat / b.toNat)
  | 0x0C => if b = 0 then a else BitVec.ofNat 64 (a.toNat % b.toNat)
  | 0x0D => bit64 (a.slt b)
  | 0x0E => bit64 (a.ult b)
  | 0x0F => bit64 (a == b)
  | 0x10 => if b.slt a then b else a
  | 0x11 => if b.ult a then b else a
  | 0x12 => if a.slt b then b else a
  | 0x13 => if a.ult b then b else a
  | 0x14 => if c ≠ 0 then a else b
  | 0x15 => clz64 a
  | 0x16 => BitVec.ofNat 64 (popcount 64 a.toNat)
  | 0x2A => b
  | 0x2B => (b <<< 32) ||| (a &&& 0xFFFFFFFF)
  | _ => 0

/-- The ones below the lowest zero. -/
def lowOnes (m : W64) : W64 := m &&& ~~~(m + 1)

/-- The bits of a result that are known where some bits of the operands are not. -/
def knownBits (opc : Nat) (ma va mb vb mc vc : W64) : W64 :=
  let k := vb.toNat % 64
  let amount := decide (mb.toNat % 64 = 63)
  let same := ma &&& mb &&& ~~~(va ^^^ vb)
  match scBase opc with
  | 0x01 => lowOnes (ma &&& mb)
  | 0x02 => lowOnes (ma &&& mb)
  | 0x03 => (ma &&& mb) ||| (ma &&& ~~~va) ||| (mb &&& ~~~vb)
  | 0x04 => (ma &&& mb) ||| (ma &&& va) ||| (mb &&& vb)
  | 0x05 => ma &&& mb
  | 0x06 => if amount then ~~~(~~~ma <<< k) else 0
  | 0x07 => if amount then ~~~(~~~ma >>> k) else 0
  | 0x08 => if amount then ma.sshiftRight k else 0
  | 0x09 => lowOnes (ma &&& mb)
  | 0x14 => if vc ≠ 0 then ma else if mc = BitVec.allOnes 64 then mb else same
  | 0x2A => mb
  | 0x2B => (mb <<< 32) ||| (ma &&& 0xFFFFFFFF)
  | _ => 0

/-- An integer instruction over what is known: static from static operands, data from any other (R65). -/
def Val.alu (opc : Nat) (a b c : Val) : Val :=
  match a, b, c with
  | .static ma va, .static mb vb, .static mc vc =>
    if ma = BitVec.allOnes 64 ∧ mb = BitVec.allOnes 64 ∧ mc = BitVec.allOnes 64 then .of (scAlu opc va vb vc)
    else .st (knownBits opc ma va mb vb mc vc) (scAlu opc va vb vc)
  | _, _, _ => .data

/-- base + stride * index + offset. -/
def Val.sum (base stride : Val) (idx : Nat) (off : W64) : Val :=
  let z := Val.of 0
  Val.alu 1 (Val.alu 1 base (Val.alu 9 stride (.of (BitVec.ofNat 64 idx)) z) z) (.of off) z

/-- The opcodes of the integer instructions, with how each takes gA, gB, gC and IMM. -/
def isInteger (opc : Nat) : Bool := (decide (1 ≤ opc) && decide (opc ≤ 0x16)) || (decide (0x20 ≤ opc) && decide (opc ≤ 0x2B))

/-- The second operand of an integer instruction. -/
def scSecond (opc : Nat) (f : ScF) (b : Val) : Val :=
  if opc < 0x20 then b
  else if opc = 0x24 ∨ opc = 0x25 ∨ opc = 0x26 ∨ opc = 0x2B then .of f.zimm
  else .of f.simm

/-- Latencies of the scalar slot's integer classes (R78). -/
def intLatency (opc : Nat) : Nat :=
  if opc = 0x09 ∨ opc = 0x0A ∨ opc = 0x27 then 3 else if opc = 0x0B ∨ opc = 0x0C then 24 else 1

/-- Latency of a vector instruction (R78, R96). -/
def veLatency (f : VeF) (opc : Nat) : Nat :=
  if opc = 0x60 then 6 + 4 * (f.sub.toNat % 8 + 1)
  else if opc = 0x50 then 7
  else if 0x30 ≤ opc ∧ opc ≤ 0x33 then 9
  else if opc = 0x1C ∨ (0x38 ≤ opc ∧ opc ≤ 0x3B) then 6
  else if opc = 0x28 then 8
  else if 0x20 ≤ opc ∧ opc ≤ 0x25 then 4
  else if opc = 3 ∨ opc = 4 ∨ opc = 9 then 4
  else if opc = 1 ∨ opc = 2 ∨ opc = 5 ∨ opc = 6 then (if f.ty = 3 then 2 else 4)
  else 2

/-! ### Spans of a scratchpad -/

/-- Whether two spans of a scratchpad share a byte; addresses wrap. -/
def spansMeet (x y : Nat × Nat) : Bool :=
  decide (0 < x.2) && decide (0 < y.2) &&
    (decide ((y.1 + spadBytes - x.1) % spadBytes < x.2) || decide ((x.1 + spadBytes - y.1) % spadBytes < y.2))

/-- The granules of a span, as a span. -/
def granules (x : Nat × Nat) : Nat × Nat := if x.2 = 0 then x else (x.1 / 4 * 4, (x.1 % 4 + x.2 + 3) / 4 * 4)

def anyMeet (l m : List (Nat × Nat)) : Bool := l.any fun x => m.any fun y => spansMeet x y

/-- The same by granules (R115). -/
def anyShare (l m : List (Nat × Nat)) : Bool := anyMeet (l.map granules) (m.map granules)

/-- Whether some two of a list share a byte. -/
def clashes : List (Nat × Nat) → Bool
  | [] => false
  | x :: l => l.any (spansMeet x) || clashes l

/-- The span at an address whose low 21 bits are known; none elsewhere. -/
def spanAt (a : Val) (len : Nat) : List (Nat × Nat) := ((a.low? 21).map fun x => (x, len)).toList

end Sys2Proof.Machine
end

