-- ==== Sys2Proof/Machine/Walk.lean ====
section
/-! DEFINITION. The verifier's walk of a tile's program over every control path (R198, R199): the state of a path in one issue
cycle, what the slots of a bundle do to it, and the states that can follow. -/

namespace Sys2Proof.Machine

open Sys2Proof

/-! ### The state of a path -/

/-- What is in flight on a path: a write of a register, of an accumulator row or of a stationary buffer that becomes visible, or
scratchpad words that a drain or a fill requests, when its issue cycle comes. -/
inductive WEff where
  | g (r : Nat) (v : Val)
  | f (r : Nat) (v : Val)
  | v (r : Nat)
  | k (r : Nat)
  | acc (key : Nat)
  | sb (b code : Nat)
  | store (l : List (Nat × Nat))
  | fetch (l : List (Nat × Nat))
  deriving DecidableEq, Repr

/-- Whether two effects write one thing (R56, R88, R90). -/
def WEff.same (a b : WEff) : Bool :=
  match a, b with
  | .g x _, .g y _ => decide (x = y)
  | .f x _, .f y _ => decide (x = y)
  | .v x, .v y => decide (x = y)
  | .k x, .k y => decide (x = y)
  | .acc x, .acc y => decide (x = y)
  | .sb x _, .sb y _ => decide (x = y)
  | _, _ => false

def WEff.requests : WEff → Bool
  | .store _ => true
  | .fetch _ => true
  | _ => false

def WEff.stores : WEff → List (Nat × Nat)
  | .store l => l
  | _ => []

def WEff.fetches : WEff → List (Nat × Nat)
  | .fetch l => l
  | _ => []

/-- A loop that is active on a path: a trip count that is not static may take any value. -/
structure WLoop where
  head : Nat
  last : Nat
  level : Nat
  trip : Option Nat
  deriving DecidableEq, Repr

/-- A command that counts as queued (R129): its completion semaphore, the spans of this tile's scratchpad that it is seen to read
and write, and a fill's half and overlay. -/
structure WCmd where
  sem : Option Nat := none
  rd : List (Nat × Nat) := []
  wr : List (Nat × Nat) := []
  fill : Option (Nat × Nat) := none
  deriving DecidableEq, Repr

/-- A crossing on a path: not armed, due in so many issue cycles, or made as its entry says. -/
inductive WArm where
  | never
  | due (n : Nat)
  | met
  deriving DecidableEq, Repr

/-- A path in an issue cycle. `sem` bounds each local semaphore from above, the signals of every command enqueued so far counted;
a semaphore that others may raise has no bound. `since` holds the registers written since the last entry of the loop on each
level, `recent` the compute writes of the last two cycles with their age, `runs` how long each bank has been requested without a
pause, `strs` and `chs` the ages of the streams and chains of the last 256 cycles. `filled` is, for each half, the semaphore of
the last fill and whether a wait on it has completed. -/
structure Walk where
  at_ : Nat := 0
  half : Nat := 0
  bub : Bool := false
  stopped : Bool := false
  forked : Bool := false
  idx : List Nat := List.replicate 4 0
  loops : List WLoop := []
  cnt : List Val := List.replicate 4 (.of 0)
  since : List (Option (List Nat)) := List.replicate 4 none
  g : List Val := List.replicate 32 (.of 0)
  f : List Val := List.replicate 32 .data
  sb : List (Option Nat) := [none, none]
  fl : List (Nat × WEff) := []
  recent : List (Nat × (Nat × Nat)) := []
  divT : Nat := 0
  fillT : Nat := 0
  runs : List Nat := List.replicate 32 0
  sem : List (Option Nat) := []
  ldq : List WCmd := []
  stq : List WCmd := []
  halves : List (List Nat) := []
  filled : List (Option (Option Nat × Bool)) := [none, none]
  arms : List WArm := []
  strs : List Nat := []
  chs : List Nat := []
  deriving DecidableEq, Repr

/-! ### The program of a tile -/

/-- A crossing that a tile takes part in: its section, its number there, whether this tile produces. -/
structure WEntry where
  sec : Nat
  num : Nat
  produces : Bool
  x : Crossing
  deriving DecidableEq, Repr

/-- What a walk reads of the image: the tile, its overlays by number with their directory indices, its crossings. -/
structure Prog where
  img : Checked
  tile : Nat
  overlays : SMap (Nat × List (BitVec 384))
  tables : SMap (List Byte)
  rings : List (Nat × Nat)
  entries : List WEntry

def Checked.entriesOf (c : Checked) (t : Nat) : List WEntry :=
  (c.mine 0xB).flatMap fun x =>
    (crossingsOf x.2.data).zipIdx.flatMap fun e =>
      (if e.1.ptile = t then [⟨x.1, e.2, true, e.1⟩] else []) ++ (if e.1.ctile = t then [⟨x.1, e.2, false, e.1⟩] else [])

def Checked.progOf (c : Checked) (t : Nat) : Prog :=
  { img := c, tile := t,
    overlays := (sectionsAt c.secs 1 c.position t).map fun x => (x.index, whereIs c.secs x, overlayBundles x.data),
    tables := c.formats, rings := c.ringsOf t, entries := c.entriesOf t }

/-- A tile's path before its first bundle (R73, R144). -/
def Prog.start (p : Prog) : Walk :=
  let d := p.img.bytes 5 0 p.img.position p.tile
  { sem := (List.range 64).map fun i =>
      if leAt d 128 8 / 2 ^ i % 2 = 1 ∨ leAt d 136 8 / 2 ^ i % 2 = 1 then none else some (semInit d i),
    halves := [[0], if (p.overlays.get? 1).isSome then [1] else []],
    arms := p.entries.map fun _ => .never }

/-- The bundle at an index of a half, with its overlay's directory index and the overlay's bundles: what the newest fill that
reaches the index has left there (R74). -/
def Prog.fetch (p : Prog) (w : Walk) (half i : Nat) : Option (Nat × List (BitVec 384) × BitVec 384) :=
  (w.halves.getD half []).findSome? fun k =>
    match p.overlays.get? k with
    | some (sec, bs) => (bs[i]?).map fun b => (sec, bs, b)
    | none => none

/-- The loop bodies that hold an index of a half. -/
def Prog.bodies (p : Prog) (w : Walk) (half i : Nat) : List LoopBody :=
  match p.fetch w half i with
  | some (_, bs, _) => (loopsOf bs).filter fun l => l.holds i
  | none => []

/-- The place of a refusal: the bundle that the path stands at. -/
def Prog.refuse (p : Prog) (w : Walk) (code : Nat) : Refuse :=
  { code := code, sec := ((p.fetch w w.half w.at_).map Prod.fst).getD 0, tile := p.tile, loc := w.at_ }

/-! ### What the slots of a bundle do -/

/-- What a bundle checks, sets in flight, requests and enqueues; `posts` are the semaphores that its static posts raise. -/
structure Acts where
  checks : List (Bool × Nat) := []
  effs : List (Nat × WEff) := []
  reads : List (Nat × Nat) := []
  writes : List (Nat × Nat) := []
  ld : List WCmd := []
  st : List WCmd := []
  posts : List (Nat × Nat × Nat) := []
  deriving DecidableEq, Repr

def Acts.and (a b : Acts) : Acts :=
  ⟨a.checks ++ b.checks, a.effs ++ b.effs, a.reads ++ b.reads, a.writes ++ b.writes, a.ld ++ b.ld, a.st ++ b.st,
    a.posts ++ b.posts⟩

def Walk.gv (w : Walk) (r : BitVec 5) : Val := if r = 0 then .of 0 else w.g.getD r.toNat .data

/-- The index that an L field names. -/
def Walk.loopIdx (w : Walk) (l : Nat) : Nat := if l = 0 then 0 else w.idx.getD (l - 1) 0

/-- A write of a g register: one of g0 is discarded (R53). -/
def gWrite (lat : Nat) (r : BitVec 5) (v : Val) : List (Nat × WEff) := if r = 0 then [] else [(lat, .g r.toNat v)]

/-- Whether registers have not been written since the entry of the loop that L names, or of the innermost active one (R65). A
write counts from its issue and again when it becomes visible. -/
def Walk.unwritten (w : Walk) (l : Nat) (rs : List (BitVec 5)) : Bool :=
  let level := if l = 0 then w.loops.head?.map WLoop.level else some (l - 1)
  match level.bind fun k => w.since.getD k none with
  | some ws => rs.all fun r => decide (r = 0) || !ws.contains r.toNat
  | none => true

/-- The checks of a static address: static registers, none written since the loop's entry, `n` low bits zero (R65, R85, R97). -/
def Walk.addrChecks (w : Walk) (l : Nat) (rs : List (BitVec 5)) (a : Val) (n : Nat) : List (Bool × Nat) :=
  [((rs.map w.gv).all Val.isStatic, 0xA), (w.unwritten l rs, 0xA), (decide (a.low? n = some 0), 0xA)]

/-- The scalar slot (R61 to R70). -/
def scActs (p : Prog) (w : Walk) (b : BitVec 384) : Acts :=
  let opc := scOp b
  let f := scFields (bundleSc b)
  if isInteger opc then
    { checks := [(!(decide (opc = 0x0B) || decide (opc = 0x0C)) || decide (w.divT = 0), 9)],
      effs := gWrite (intLatency opc) f.d (Val.alu opc (w.gv f.a) (scSecond opc f (w.gv f.b)) (w.gv f.c)) }
  else if 0x30 ≤ opc ∧ opc ≤ 0x38 then { effs := gWrite 4 f.d .data }
  else if opc = 0x40 ∨ opc = 0x41 then
    let l := f.x.toNat / 8 % 8
    let a := Val.sum (w.gv f.a) (w.gv f.b) (w.loopIdx l) f.simm
    let cs := w.addrChecks l [f.a, f.b] a (Nat.log2 f.bytes)
    if opc = 0x40 then { checks := cs, effs := gWrite 7 f.d .data, reads := spanAt a f.bytes }
    else { checks := cs, writes := spanAt a f.bytes }
  else if opc = 0x52 then { effs := gWrite 1 f.d (.link w.half (w.at_ + 1)) }
  else if opc = 0x62 ∨ opc = 0x66 then { effs := gWrite 1 f.d .data }
  else if opc = 0x63 then { effs := gWrite 1 f.d (.of (BitVec.ofNat 64 (w.idx.getD f.level 0))) }
  else if opc = 0x64 then { effs := [(2, .f f.d.toNat (w.gv f.a).low32)] }
  else if opc = 0x65 then { effs := [(2, .f f.d.toNat (.of f.zimm))] }
  else if opc = 0x67 then { effs := gWrite 1 f.d (.of (BitVec.ofNat 64 p.tile)) }
  else if opc = 0x68 then { effs := gWrite 1 f.d (.of (BitVec.ofNat 64 p.img.position)) }
  else if opc = 0x69 then { effs := gWrite 1 f.d (.st 0 0) }
  else {}

/-- The code and the rounding of a format register, where the verifier can determine them (R86). -/
def Walk.fmt? (w : Walk) (r : BitVec 5) : Option W32 := ((w.f.getD r.toNat .data).low? 8).map (BitVec.ofNat 32)

/-- A check of a format register's code; a register that cannot be determined fails it. -/
def fmtCheck (f : Option W32) (ok : Nat → Bool) : Bool × Nat := ((f.map fun x => ok (fmtCode x)).getD false, 0xA)

def blockCode (c : Nat) : Bool := (decide (3 ≤ c) && decide (c ≤ 8)) || decide (16 ≤ c)

/-- The vector slot (R96 to R104). -/
def veActs (w : Walk) (b : BitVec 384) : Acts :=
  let opc := if bundlePresent b 26 then veOpc (bundleVe b) else 0
  let f := veFields (bundleVe b)
  let lat := veLatency f opc
  let fmt := w.fmt? f.f
  if opc = 0 then {}
  else if opc = 0x0A ∨ (0x40 ≤ opc ∧ opc ≤ 0x44) then { effs := [(lat, .k (f.vd.toNat % 8))] }
  else if opc = 0x1C ∨ opc = 0x45 then { effs := gWrite lat f.ga .data }
  else if opc = 0x38 then { effs := (lat, .v f.vd.toNat) :: gWrite lat f.ga .data }
  else if opc = 0x50 ∨ opc = 0x51 then
    let a := Val.sum (w.gv f.ga) (w.gv f.gb) (w.loopIdx f.l.toNat) (f.imm.setWidth 64)
    let cs := w.addrChecks f.l.toNat [f.ga, f.gb] a 5
    if opc = 0x50 then { checks := cs, effs := [(lat, .v f.vd.toNat)], reads := spanAt a (4 * f.lanes) }
    else { checks := cs, writes := spanAt a (4 * f.lanes) }
  else if opc = 0x60 then
    let a := Val.sum (w.gv f.ga) (.of 0) 0 (f.imm.setWidth 64)
    { checks := [((w.gv f.ga).isStatic, 0xA), (decide (a.low? 6 = some 0), 0xA)],
      effs := (List.range (f.sub.toNat / 8 + 1)).map fun k => (lat, .v (f.vd.toNat + k)), reads := spanAt a 64 }
  else
    { checks := if opc = 0x20 ∨ opc = 0x21 then [fmtCheck fmt fun c => decide (c = 1) || decide (c = 2)]
        else if opc = 0x24 ∨ opc = 0x25 then [fmtCheck fmt blockCode] else [],
      effs := [(lat, .v f.vd.toNat)] }

/-- The element and scale addresses of a matrix slot. -/
def Walk.mxE (w : Walk) (f : MxF) : Val := Val.sum (w.gv f.a) (w.gv f.b) (w.loopIdx f.l.toNat) (f.off.setWidth 64)
def Walk.mxS (w : Walk) (f : MxF) : Val := Val.sum (w.gv f.c) (w.gv f.b) (w.loopIdx f.l.toNat) 0

/-- The rows of a stationary block and the bytes and scale bytes of one of its columns (R82, R83). -/
def columnBytes (m : MxFmt) : Nat × Nat :=
  match m with
  | .half _ => (256, 0)
  | .block b => ((if b.width = 4 then 256 else 128) * b.width / 8, (if b.width = 4 then 256 else 128) / b.block)

/-- What a fill reads in its cycle `i`. -/
def fillSpans (m : MxFmt) (e s : Val) (i : Nat) : List (Nat × Nat) :=
  let cb := columnBytes m
  let at_ (v : Val) (n : Nat) : List (Nat × Nat) := ((v.low? 21).map fun x => ((x + 8 * i * n) % spadBytes, 8 * n)).toList
  at_ e cb.1 ++ at_ s cb.2

/-- What a drain writes (R83, R91). -/
def drainSpans (tables : SMap (List Byte)) (code : Nat) (e s : Val) : List (Nat × Nat) :=
  if code = 0 then spanAt e 512
  else match mxFmt tables (BitVec.ofNat 32 code) with
    | some (.half _) => spanAt e 256
    | some (.block b) => spanAt e (16 * b.width) ++ spanAt s (128 / b.block)
    | none => []

/-- The checks of an address in the matrix slot: gA, gB and gC static; C is 0 where the operand has no scales (R85). -/
def Walk.mxChecks (w : Walk) (f : MxF) (noScale : Bool) : List (Bool × Nat) :=
  w.addrChecks f.l.toNat [f.a, f.b, f.c] (w.mxE f) 0 ++ [(!noScale || decide (f.c = 0), 0xA)]

/-- The matrix slot (R82 to R91). A code whose table the image does not install has no width, and R23 leaves what it does open:
the checks that need the width pass. -/
def mxActs (p : Prog) (w : Walk) (b : BitVec 384) : Acts :=
  let opc := if bundlePresent b 25 then mxOpc (bundleMx b) else 0
  let f := mxFields (bundleMx b)
  let key := accKey f.acc.toNat ((f.row.toNat + w.loopIdx f.l.toNat) % 128)
  let fmt := w.fmt? f.f
  let code := (fmt.map fmtCode).getD 0
  let operand := fmtCheck fmt fun c => decide (1 ≤ c) && (decide (c ≤ 8) || decide (16 ≤ c))
  let clear : List (Nat × WEff) := if f.h = 1 then [(1, .acc key)] else []
  if opc = 1 then
    { checks := operand :: (decide (w.fillT = 0), 9) :: w.mxChecks f (decide (code < 3)),
      effs := (24, .sb f.sb.toNat code) :: match mxFmt p.tables (BitVec.ofNat 32 code) with
        | some m => (List.range 16).map fun i => (i, .fetch (fillSpans m (w.mxE f) (w.mxS f) i))
        | none => [] }
  else if opc = 2 then
    let sr := mxFmt p.tables (BitVec.ofNat 32 code)
    let st := (w.sb.getD f.sb.toNat none).bind fun c => mxFmt p.tables (BitVec.ofNat 32 c)
    { checks := operand :: w.mxChecks f (decide (code < 3)) ++ match st, sr with
        | some x, some y => [(x.pairs y, 0xA),
            (decide (f.h = 0) || (match x with
              | .half _ => true
              | .block k => decide (k.width = 4) && decide (y.width ≠ 4)), 0xA)]
        | _, _ => [],
      effs := [(8, .acc key)],
      reads := match sr with
        | some y =>
          let k := kPerStream (st.getD y) y
          spanAt (w.mxE f) (k * y.width / 8) ++ match y with
            | .half _ => []
            | .block m => spanAt (w.mxS f) (k / m.block)
        | none => [] }
  else if opc = 3 then { effs := [(8, .acc key)] }
  else if opc = 4 then { effs := (12, .v f.c.toNat) :: clear }
  else if opc = 5 then
    { checks := fmtCheck fmt (fun c => decide (c ≤ 8) || decide (16 ≤ c)) ::
        w.mxChecks f (decide (code < 3) && decide ((fmt.map fmtRnd) ≠ some 1)),
      effs := (9, .store (drainSpans p.tables code (w.mxE f) (w.mxS f))) :: clear }
  else {}

/-! ### The engines' commands -/

/-- The length of an `ld` or `st`, where it is known (R123). -/
def Walk.lsLen (w : Walk) (f : LsF) : Option Nat :=
  (if f.gc = 0 then some (64 * f.imm.toNat) else (w.gv f.gc).low? 22).map fun n => Nat.min (n / 4 * 4) (2 ^ 21)

/-- A span of this tile's scratchpad that an engine touches, bits of the address below `unit` ignored. -/
def engineSpan (a : Val) (unit : Nat) (len : Option Nat) : List (Nat × Nat) :=
  match a.low? 21, len with
  | some x, some n => [(x / unit * unit, n)]
  | _, _ => []

/-- A static global address. -/
def Walk.target (w : Walk) (r : BitVec 5) : Option W64 := (w.gv r).value?

/-- Whether a global address lies in this tile's scratchpad. -/
def Prog.own (p : Prog) (g : W64) : Bool :=
  decide (gaSpace g = 1) && decide (gaChip g = p.img.position) && decide (gaOff g / spadBytes = p.tile)

def Prog.ownSpan (p : Prog) (g : Option W64) (len : Option Nat) : List (Nat × Nat) :=
  match g with
  | some a => if p.own a then engineSpan (.of a) 4 len else []
  | none => []

def signal (f : LsF) : Option Nat := if f.sv = 1 then some f.sem.toNat else none

/-- The load slot (R122, R210). -/
def ldActs (p : Prog) (w : Walk) (b : BitVec 384) : Acts :=
  let opc := if bundlePresent b 24 then lsOpc (bundleLd b) else 0
  let f := lsFields (bundleLd b)
  if opc = 1 then
    let wr := engineSpan (w.gv f.ga) 4 (w.lsLen f)
    { checks := [(p.img.man.relax || decide ((w.target f.gb).map gaSpace ≠ some 2), 0x15), (!anyMeet wr p.rings, 0xE)],
      ld := [{ sem := signal f, rd := p.ownSpan (w.target f.gb) (w.lsLen f), wr := wr }] }
  else if opc = 2 then { ld := [{ sem := signal f, rd := engineSpan (w.gv f.gb) 64 (some 64) }] }
  else if opc = 3 then
    let half := f.imm.toNat / 4096
    { checks := [(decide (half ≠ w.half), 0xB)],
      ld := [{ sem := signal f, fill := some (half, f.imm.toNat % 4096) }] }
  else {}

/-- The tolls of a store to a static address in another tile's scratchpad (R135). -/
def Prog.tolled (p : Prog) (f : LsF) (g : W64) (len : Option Nat) : Bool :=
  decide (gaSpace g ≠ 1) || p.own g || decide (len = some 0) ||
    (decide (f.tv = 1) && (p.img.tollsOf p.tile).any fun x =>
      decide (x.sem = f.toll.toNat) && decide (x.position = gaChip g) && decide (x.tile = gaOff g / spadBytes)
        && decide (x.base ≤ gaOff g % spadBytes / 4 * 4)
        && decide (gaOff g % spadBytes / 4 * 4 + (len.getD 4) ≤ x.base + 64 * x.size))

/-- The checks of a static reference to a semaphore (R133, R151, R153): a route, a declared target, a toll raised by its receiver
alone. `src` is the sending agent's queue source. A reference that R153 discards at its target is not checked. -/
def Prog.refChecks (p : Prog) (r : Option W64) (src : Nat) : List (Bool × Nat) :=
  match r with
  | none => []
  | some x =>
    let n := x.toNat
    let chip := bitsAt n 59 40
    let tile := bitsAt n 23 16
    let i := bitsAt n 11 0
    let kind := n / 2 ^ 62
    let sems := p.img.bytes 5 0 chip tile
    if 2 ≤ kind ∨ bitsAt n 61 56 ≠ 0 ∨ bitsAt n 39 24 ≠ 0 ∨ bitsAt n 15 12 ≠ 0 ∨ (kind = 1 ∧ tile ≠ 0) then []
    else
      [(decide (chip = p.img.position) || p.img.routed src p.tile chip, 0x10),
       (if kind = 0 then decide (i < 64) && decide (leAt sems 128 8 / 2 ^ i % 2 = 1)
        else decide (gsWord (p.img.bytes 7 0 chip 0xFFFF) i / 2 ^ 62 = 1), 0xE),
       (decide (kind = 1) || decide (sems = []) || (tollBinds sems).all fun t =>
          decide (t.sem ≠ i) || (decide (t.position = p.img.position) && decide (t.tile = p.tile)), 0xF)]

/-- The local semaphore that a static reference names. -/
def postTarget (r : Option W64) : List (Nat × Nat × Nat) :=
  match r with
  | some x => if x.toNat / 2 ^ 62 = 0 then [(bitsAt x.toNat 59 40, bitsAt x.toNat 23 16, bitsAt x.toNat 11 0)] else []
  | none => []

/-- The store slot (R122, R124). -/
def stActs (p : Prog) (w : Walk) (b : BitVec 384) : Acts :=
  let opc := if bundlePresent b 23 then lsOpc (bundleSt b) else 0
  let f := lsFields (bundleSt b)
  if opc = 1 then
    let g := w.target f.gb
    let wr := p.ownSpan g (w.lsLen f)
    { checks := (!anyMeet wr p.rings, 0xE) :: match g with
        | some a => [(p.tolled f a (w.lsLen f), 0xF),
            (decide (gaChip a = p.img.position) || p.img.routed 0 p.tile (gaChip a), 0x10)]
        | none => [],
      st := [{ sem := signal f, rd := engineSpan (w.gv f.ga) 4 (w.lsLen f), wr := wr }] }
  else if opc = 2 then { st := [{ sem := signal f, rd := engineSpan (w.gv f.gb) 64 (some 64) }] }
  else if opc = 3 then
    { checks := p.refChecks (w.target f.gb) 0, st := [{ sem := signal f }], posts := postTarget (w.target f.gb) }
  else {}

/-- The sync slot (R148), its waits apart. -/
def syActs (p : Prog) (w : Walk) (b : BitVec 384) : Acts :=
  let x := bundleSy b
  let opc := if bundlePresent b 22 then syOpc x else 0
  let n := x.toNat
  if opc = 8 then { checks := p.refChecks (w.target (syFieldsB x).ga) 1 }
  else if opc = 0x18 then
    { st := [{ sem := if bitsAt n 14 14 = 1 then some (bitsAt n 13 8) else none,
               rd := engineSpan (w.gv (BitVec.ofNat 5 (bitsAt n 19 15))) 64 (some (64 * (bitsAt n 21 20 + 1))) }] }
  else if opc = 0x20 ∨ opc = 0x21 then
    { effs := (1, .v (bitsAt n 25 21)) :: gWrite 1 (BitVec.ofNat 5 (bitsAt n 20 16)) .data }
  else {}

/-- Everything that a bundle does; the store slot's command comes before a `send` (R149). -/
def actsOf (p : Prog) (w : Walk) (b : BitVec 384) : Acts :=
  (scActs p w b).and ((veActs w b).and ((mxActs p w b).and ((ldActs p w b).and ((stActs p w b).and (syActs p w b)))))

/-! ### Waits and the queues (R75, R129) -/

def signals (q : List WCmd) (s : Nat) : Nat := (q.filter fun c => decide (c.sem = some s)).length

/-- A queue split after its `i`-th command that signals a semaphore. -/
def splitDone (s : Nat) : List WCmd → Nat → List WCmd × List WCmd
  | q, 0 => ([], q)
  | [], _ + 1 => ([], [])
  | c :: q, i + 1 =>
    let r := if c.sem = some s then splitDone s q i else splitDone s q (i + 1)
    (c :: r.1, r.2)

/-- The path with fills completed: each overlay lies over what the half held. -/
def Walk.fillDone (w : Walk) (done : List WCmd) : Walk :=
  done.foldl (fun w c => match c.fill with
    | some (h, k) => { w with halves := w.halves.set h (k :: (w.halves.getD h []).filter (· ≠ k)) }
    | none => w) w

/-- A completed wait on a semaphore for `n`: a command is complete if without its signal, and those of the later commands of its
queue, the semaphore could not have reached `n`. -/
def Walk.retire (w : Walk) (s n : Nat) : Walk :=
  match w.sem.getD s none with
  | none => w
  | some m =>
    let split (q : List WCmd) : List WCmd × List WCmd := splitDone s q (Nat.min (signals q s) (n + signals q s - m))
    { w.fillDone (split w.ldq).1 with ldq := (split w.ldq).2, stq := (split w.stq).2 }

/-- The bound of a semaphore changed; it never falls below the signals still to come, and a semaphore holds at most 65,535. -/
def Walk.bound (w : Walk) (s : Nat) (f : Nat → Nat) : Walk :=
  { w with sem := w.sem.set s ((w.sem.getD s none).map fun m =>
      Nat.min (Nat.max (f m) (signals w.ldq s + signals w.stq s)) (65535 + 1024)) }

/-- The sync slot's effect on the semaphores; a wait has completed when its bundle issues. -/
def Walk.sync (w : Walk) (b : BitVec 384) : Walk :=
  let f := syFieldsA (bundleSy b)
  let s := f.sem.toNat
  let n := f.n.toNat
  let waited := { w.retire s n with filled := w.filled.map fun x => x.map fun y => (y.1, y.2 || decide (y.1 = some s)) }
  if !bundlePresent b 22 then w
  else match syOpc (bundleSy b) with
    | 1 => waited.bound s (· - n)
    | 2 => waited
    | 3 => w.bound s (· + n)
    | 4 => w.bound s (· - n)
    | _ => w

/-- One command enqueued. -/
def Walk.enqueue (w : Walk) (load : Bool) (c : WCmd) : Walk :=
  let w1 := if load then { w with ldq := w.ldq ++ [c] } else { w with stq := w.stq ++ [c] }
  let w2 := match c.sem with
    | some s => w1.bound s (· + 1)
    | none => w1
  match c.fill with
  | some (h, _) => { w2 with filled := w2.filled.set h (some (c.sem, false)) }
  | none => w2

/-! ### An issue cycle -/

/-- Whether some effect has a twin that becomes visible in the same issue cycle (R56). -/
def twins : List (Nat × WEff) → Bool
  | [] => false
  | x :: l => l.any (fun y => decide (y.1 = x.1) && x.2.same y.2) || twins l

/-- The banks that an issue cycle requests (R105). -/
def banksOf (hash : Nat) (l : List (Nat × Nat)) : List Nat :=
  ((l.flatMap fun x => wordsOf x.1 x.2).map (bankOf hash)).eraseDups

/-- What the commands queued before this issue cycle read and write. -/
def Walk.queued (w : Walk) (sel : WCmd → List (Nat × Nat)) : List (Nat × Nat) := (w.ldq ++ w.stq).flatMap sel

/-- The checks of an issue cycle's scratchpad requests (R66, R77, R115, R126, R128, R161). -/
def Walk.requestChecks (p : Prog) (w : Walk) (reads writes : List (Nat × Nat)) : List (Bool × Nat) :=
  [(!clashes writes, 9), (!anyMeet reads (w.queued WCmd.wr), 9), (!anyMeet writes (w.queued WCmd.rd), 9),
   (!anyShare writes (w.queued WCmd.wr), 0x11), (!anyMeet writes p.rings, 0xE)]

/-- The checks of an enqueued command (R77, R108, R115, R129): its queue has room, no compute write to what it reads is younger
than three issue cycles or still to come, and the other engine's commands leave its bytes alone. -/
def Walk.enqueueChecks (w : Walk) (load : Bool) (writes : List (Nat × Nat)) (c : WCmd) : List (Bool × Nat) :=
  let other := if load then w.stq else w.ldq
  let fresh := writes ++ w.recent.map Prod.snd ++ w.fl.flatMap fun x => x.2.stores
  [(decide ((if load then w.ldq else w.stq).length < 512), 0xD), (!anyMeet c.rd fresh, 9),
   (!anyShare c.wr (other.flatMap fun x => x.rd ++ x.wr) && !anyShare c.rd (other.flatMap WCmd.wr), 0x11)]

/-- Commands checked and enqueued one after another. -/
def Walk.enqueueAll (load : Bool) (writes : List (Nat × Nat)) : List WCmd → Walk → List (Bool × Nat) → Walk × List (Bool × Nat)
  | [], w, cs => (w, cs)
  | c :: l, w, cs => Walk.enqueueAll load writes l (w.enqueue load c) (cs ++ w.enqueueChecks load writes c)

/-- Registers written: none of them counts as unwritten since a loop's entry any more. -/
def Walk.touch (w : Walk) (rs : List Nat) : Walk :=
  { w with since := w.since.map fun x => x.map fun l => l ++ rs.filter fun r => !l.contains r }

def gTargets (l : List (Nat × WEff)) : List Nat :=
  l.filterMap fun x => match x.2 with
    | .g r _ => some r
    | _ => none

/-- An effect becomes visible. -/
def Walk.land (w : Walk) (e : WEff) : Walk :=
  match e with
  | .g r v => { w with g := w.g.set r v }
  | .f r v => { w with f := w.f.set r v }
  | .sb b c => { w with sb := w.sb.set b (some c) }
  | _ => w

/-- The end of an issue cycle: everything in flight comes one cycle nearer. -/
def Walk.tick (w : Walk) (writes : List (Nat × Nat)) : Walk :=
  let fl := (w.fl.filter fun x => decide (x.1 ≠ 0)).map fun x => (x.1 - 1, x.2)
  let now := fl.filter fun x => decide (x.1 = 0) && !x.2.requests
  let w1 := (now.foldl (fun w x => w.land x.2) w).touch (gTargets now)
  { w1 with
    fl := fl.filter fun x => !(decide (x.1 = 0) && !x.2.requests),
    recent := (w.recent.filter fun x => decide (x.1 < 2)).map (fun x => (x.1 + 1, x.2)) ++ writes.map fun x => (1, x),
    divT := w.divT - 1, fillT := w.fillT - 1,
    arms := w.arms.map fun a => match a with
      | .due n => .due (n - 1)
      | x => x,
    strs := (w.strs.map (· + 1)).filter (· < 257), chs := (w.chs.map (· + 1)).filter (· < 257) }

/-- The charge of the 256 issue cycles that end here (R200). -/
def Walk.charge (w : Walk) : Nat := (w.strs.length + 63) / 64 + w.chs.length

/-- The first check that fails. -/
def failed (l : List (Bool × Nat)) : Option Nat := (l.find? fun x => !x.1).map Prod.snd

/-- The crossings of an issue cycle (R203, R218): a bundle that completes a wait on their anchor arms them; one that is due is
made by a `vst` or a `vld` with LEN 0 and KM 0. The number of the entry that fails, or the path. -/
def Walk.cross (p : Prog) (w : Walk) (b : Option (BitVec 384)) : Except WEntry Walk :=
  let sy := (b.map bundleSy).getD 0
  let waits := (b.any fun x => bundlePresent x 22) && (decide (syOpc sy = 0x11) || decide (syOpc sy = 0x12))
  let port := bpOf (bpWord (p.img.ports p.img.position p.tile) (bitsAt sy.toNat 25 23))
  let armed := (p.entries.zip w.arms).map fun x =>
    (x.1, if waits && port.valid && decide (port.index = x.1.x.anchor) then
      WArm.due (if x.1.produces then x.1.x.write else x.1.x.read) else x.2)
  let made (e : WEntry) : Bool := b.any fun x =>
    bundlePresent x 26 && decide (veOpc (bundleVe x) = if e.produces then 0x51 else 0x50)
      && decide ((veFields (bundleVe x)).sub.toNat % 16 = 0) && decide ((veFields (bundleVe x)).km = 0)
  match armed.find? fun x => decide (x.2 = .due 0) && !made x.1 with
  | some x => .error x.1
  | none => .ok { w with arms := armed.map fun x => if x.2 = .due 0 then .met else x.2 }

/-- The refusal of a crossing. -/
def Prog.refuseEntry (p : Prog) (e : WEntry) : Refuse := { code := 0x14, sec := e.sec, tile := p.tile, loc := e.num }

/-! ### Control (R60, R67 to R75) -/

/-- What the LEND marks of a bundle can do to the active loops (R71): the loops, the indices, and the bundle that follows where
one goes round again. -/
def lends (marks : BitVec 4) : List Nat → List WLoop → List (List WLoop × List Nat × Option Nat)
  | idx, [] => [([], idx, none)]
  | idx, f :: l =>
    if marks.getLsbD f.level then
      let i := idx.getD f.level 0
      let again := (f :: l, idx.set f.level (i + 1), some (f.head + 1))
      match f.trip with
      | some n => if i + 1 < n then [again] else lends marks idx l
      | none => if i + 1 < 2 ^ 32 - 1 then again :: lends marks idx l else lends marks idx l
    else (lends marks idx l).map fun x => (f :: x.1, x.2)

/-- A transfer to a bundle of a half: it enters no body but one of a loop that is active, and ends the loops it leaves (R72). -/
def Walk.transfer (p : Prog) (w : Walk) (half target : Nat) : Option Walk :=
  let stay := if half = w.half then w.loops.filter fun l => decide (l.head < target) && decide (target ≤ l.last) else []
  if target < 4096 ∧ (p.bodies w half target).all fun b => stay.any fun l => decide (l.head = b.head) && decide (l.level = b.level) then
    some { w with at_ := target, half := half, bub := true, loops := stay }
  else none

/-- The bundle at pc + simm. -/
def relTarget (w : Walk) (f : ScF) : Option Nat :=
  let t : Int := w.at_ + f.imm.toInt
  if 0 ≤ t then some t.toNat else none

/-- The outcomes of a condition on values that may not be known. -/
def outcomes (vs : List Val) (cond : List W64 → Bool) : List Bool :=
  match vs.mapM Val.value? with
  | some l => [cond l]
  | none => [true, false]

/-- The paths after a branch. -/
def Walk.branch (p : Prog) (w : Walk) (f : ScF) (taken : List Bool) : List (Option Walk) :=
  taken.map fun t => if t then (relTarget w f).bind (w.transfer p w.half) else some { w with at_ := w.at_ + 1 }

/-- Whether the other half may become active (R74, R75): filled, a wait on its last fill completed, no fill outstanding. -/
def Walk.mayEnter (w : Walk) (half : Nat) : Bool :=
  decide (w.halves.getD half [] ≠ []) && (((w.filled.getD half none).map Prod.snd).getD true)
    && w.ldq.all fun c => decide ((c.fill.map Prod.fst) ≠ some half)

/-- The paths after a `loop` (R70): a trip count that is not known may be zero or not. -/
def Walk.enterLoop (p : Prog) (w : Walk) (f : ScF) : List (Option Walk) :=
  let n := f.level
  let len := f.imm.toNat % 4096
  let trip := ((w.cnt.getD n .data).low? 32)
  let w1 := { w with idx := w.idx.set n 0, since := w.since.set n (some []), bub := true }
  let enter := if w.loops.any fun l => decide (l.level = n) then none
    else some { w1 with at_ := w.at_ + 1, loops := ⟨w.at_, w.at_ + len, n, trip⟩ :: w.loops }
  let marks := (p.fetch w w.half (w.at_ + len)).map fun x => bundleLend x.2.2
  let skip := (lends (marks.getD 0) w1.idx w.loops).map fun x =>
    some { w1 with loops := x.1, idx := x.2.1, at_ := x.2.2.getD (w.at_ + 1 + len) }
  match trip with
  | some 0 => skip
  | some _ => [enter]
  | none => enter :: skip

/-- The paths after a bundle: `v` is the path as its slots read it, `w` the path with what they did. None stands for control
flow that R60, R68, R72 or R75 refuses. -/
def Walk.control (p : Prog) (v w : Walk) (b : BitVec 384) : List (Option Walk) :=
  let f := scFields (bundleSc b)
  if bundleStop b then [if w.loops.isEmpty then some { w with stopped := true } else none]
  else match scOp b with
    | 0x50 => w.branch p f (if f.x.toNat % 8 = 0 then [true] else outcomes [v.gv f.a] fun l => brTaken (f.x.toNat % 8) (l.getD 0 0))
    | 0x51 => w.branch p f (outcomes [v.gv f.a, v.gv f.b] fun l => brcTaken (f.x.toNat % 8) (l.getD 0 0) (l.getD 1 0))
    | 0x52 => w.branch p f [true]
    | 0x53 => match v.gv f.a with
      | .link h pc => [if h = w.half then w.transfer p w.half (pc % 4096) else none]
      | _ => [none]
    | 0x54 => w.enterLoop p f
    | 0x55 => [if w.loops.isEmpty && w.mayEnter (1 - w.half) then w.transfer p (1 - w.half) (f.imm.toNat % 4096) else none]
    | _ => (lends (bundleLend b) w.idx w.loops).map fun x =>
        some { w with loops := x.1, idx := x.2.1, at_ := x.2.2.getD (w.at_ + 1) }

/-- The scalar slot's effect on the counts, and the timers that an issue starts (R70, R78, R88). -/
def Walk.start (w : Walk) (b : BitVec 384) : Walk :=
  let opc := scOp b
  let f := scFields (bundleSc b)
  let mx := if bundlePresent b 25 then mxOpc (bundleMx b) else 0
  let ve := if bundlePresent b 26 then veOpc (bundleVe b) else 0
  { w with
    cnt := if opc = 0x60 then w.cnt.set f.level (w.gv f.a).low32 else if opc = 0x61 then w.cnt.set f.level (.of f.zimm) else w.cnt,
    divT := if opc = 0x0B ∨ opc = 0x0C then 24 else w.divT, fillT := if mx = 1 then 16 else w.fillT,
    strs := if mx = 2 then 0 :: w.strs else w.strs, chs := if ve = 0x60 then 0 :: w.chs else w.chs }

/-- The part of an issue cycle that a bubble has too: what is in flight requests its words, the banks count, the crossings fall
due, and the cycle ends. -/
def Walk.close (p : Prog) (w : Walk) (b : Option (BitVec 384)) (reads writes : List (Nat × Nat)) : Except Refuse Walk :=
  let banks := banksOf p.img.man.hash (reads ++ writes)
  let runs := (List.range 32).map fun k => if banks.contains k then w.runs.getD k 0 + 1 else 0
  if runs.any fun n => decide (64 ≤ n) then .error (p.refuse w 0x11)
  else match w.cross p b with
    | .error e => .error (p.refuseEntry e)
    | .ok w1 => .ok { w1 with runs := runs }

/-- The requests of what is in flight. -/
def Walk.flightReads (w : Walk) : List (Nat × Nat) := (w.fl.filter fun x => decide (x.1 = 0)).flatMap fun x => x.2.fetches
def Walk.flightWrites (w : Walk) : List (Nat × Nat) := (w.fl.filter fun x => decide (x.1 = 0)).flatMap fun x => x.2.stores

/-- A cycle that issues a bubble. -/
def Walk.bubble (p : Prog) (w : Walk) : Except Refuse Walk :=
  match failed (w.requestChecks p w.flightReads w.flightWrites) with
  | some c => .error (p.refuse w c)
  | none =>
    match w.close p none w.flightReads w.flightWrites with
    | .error e => .error e
    | .ok w1 => .ok ({ w1 with bub := false }.tick w.flightWrites)

/-- A cycle that issues a bundle: the paths that can follow, with what its posts raise. -/
def Walk.issue (p : Prog) (w : Walk) (b : BitVec 384) : Except Refuse (List Walk × List (Nat × Nat × Nat)) :=
  let a := actsOf p w b
  let w1 := w.sync b
  let w2 := { w1 with fl := w.fl ++ a.effs }
  let reads := a.reads ++ w2.flightReads
  let writes := a.writes ++ w2.flightWrites
  let checks := a.checks ++ [(!twins w2.fl, 9)] ++ w2.requestChecks p reads writes
  let w3 := Walk.enqueueAll true writes a.ld w2 checks
  let w4 := Walk.enqueueAll false writes a.st w3.1 w3.2
  match failed w4.2 with
  | some c => .error (p.refuse w c)
  | none =>
    match ((w4.1.start b).touch (gTargets a.effs)).close p (some b) reads writes with
    | .error e => .error e
    | .ok w5 =>
      match (w.control p w5 b).mapM id with
      | none => .error (p.refuse w 0xB)
      | some l => .ok (l.map fun x => { x.tick writes with forked := x.forked || decide (1 < l.length) || (x.bub && decide (x.at_ ≤ w.at_)) }, a.posts)

/-- One issue cycle of a path (R54, R60): none follows once a stopped tile has nothing in flight, and then every crossing it takes
part in has been made. -/
def Walk.next (p : Prog) (w : Walk) : Except Refuse (List Walk × List (Nat × Nat × Nat)) :=
  if w.stopped && w.fl.isEmpty then
    match (p.entries.zip w.arms).find? fun x => decide (x.2 ≠ .met) with
    | some x => .error (p.refuseEntry x.1)
    | none => .ok ([], [])
  else if w.stopped || w.bub then (w.bubble p).map fun x => ([x], [])
  else match p.fetch w w.half w.at_ with
    | none => .error (p.refuse w 0xB)
    | some x => w.issue p x.2.2

/-! ### Every path -/

/-- What a walk of every path found: the greatest charge of any 256 consecutive issue cycles, and what its posts raise. -/
structure Found where
  peak : Nat := 0
  posts : List (Nat × Nat × Nat) := []
  deriving DecidableEq, Repr

/-- The paths of a list followed to their ends, each state of a path that has forked once. The fuel outlasts every walk that can
be carried out. -/
def Prog.explore (p : Prog) : Nat → List Walk → SMap (List Walk) → Found → Except Refuse Found
  | 0, _, _, r => .ok r
  | _ + 1, [], _, r => .ok r
  | n + 1, w :: l, seen, r =>
    let key := w.half * 4096 + w.at_
    if w.forked && (seen.get key []).contains w then p.explore n l seen r
    else
      match w.next p with
      | .error e => .error e
      | .ok (ws, posts) =>
        p.explore n (ws ++ l) (if w.forked then seen.set key (w :: seen.get key []) else seen)
          { peak := (ws.map Walk.charge).foldl Nat.max r.peak, posts := r.posts ++ posts.filter fun x => !r.posts.contains x }

/-- More steps than any walk takes that a device could carry out (log 8). -/
def walkFuel : Nat := 2 ^ 4096

end Sys2Proof.Machine
end

