-- ==== Sys2Proof/Machine/Verdict.lean ====
section
/-! DEFINITION. The verdict of the verifier: the walks of all tiles, the link semaphores that their posts raise (R138), the power
tokens (R200, R201), and all checks in their order (R196, R199). -/

namespace Sys2Proof.Machine

open Sys2Proof

/-! ### Power tokens (R200) -/

/-- The charges of a tile's windows: those that are exact, then zero for ever, the tile's peak, or a round of charges. -/
inductive Tail where
  | ended
  | peak
  | round (l : List Nat)
  deriving DecidableEq, Repr

structure Charges where
  exact : List Nat := []
  tail : Tail := .ended
  deriving DecidableEq, Repr

/-- The charge of window `k`. -/
def Charges.at_ (c : Charges) (peak k : Nat) : Nat :=
  match c.exact[k]? with
  | some x => x
  | none => match c.tail with
    | .ended => 0
    | .peak => peak
    | .round l => l.getD ((k - c.exact.length) % Nat.max l.length 1) 0

/-- The windows after which a tile's charges repeat. -/
def Charges.period (c : Charges) : Nat :=
  match c.tail with
  | .round l => Nat.max l.length 1
  | _ => 1

/-- A tile's windows while one path alone is possible: the issue cycle, the streams and chains of the window so far, the charges
of the windows before it, newest first, and the paths at their starts. A window is exact where every path issues the same bundles
up to its end; after a fork only a bubble can still be common. -/
def Prog.charges (p : Prog) : Nat → Walk → Nat → Nat × Nat → List Nat → List Walk → Charges
  | 0, _, _, _, done, _ => ⟨done.reverse, .peak⟩
  | n + 1, w, cyc, sv, done, starts =>
    let charge (x : Nat × Nat) : Nat := (x.1 + 63) / 64 + x.2
    match (if cyc % 256 = 0 then starts.idxOf? w else none) with
    | some k => ⟨(done.reverse).take (starts.length - 1 - k), .round ((done.reverse).drop (starts.length - 1 - k))⟩
    | none =>
      let starts1 := if cyc % 256 = 0 then w :: starts else starts
      match w.next p with
      | .error _ => ⟨done.reverse, .peak⟩
      | .ok ([], _) => ⟨(charge sv :: done).reverse, .ended⟩
      | .ok (x :: l, _) =>
        let sv1 := (sv.1 + (x.strs.filter (· = 1)).length, sv.2 + (x.chs.filter (· = 1)).length)
        let last := decide (cyc % 256 = 255) || (!l.isEmpty && (x :: l).all Walk.bub && decide (cyc % 256 = 254))
        let done1 := if last then charge sv1 :: done else done
        if l.isEmpty then p.charges n x (cyc + 1) (if last then (0, 0) else sv1) done1 starts1
        else ⟨done1.reverse, .peak⟩

/-- The budgets of a row and of the chip, by the image's CLASS (R201). -/
def Checked.rowBudget (c : Checked) : Nat := if c.man.clsM then 76 else 96
def Checked.chipBudget (c : Checked) : Nat := if c.man.clsM then 600 else 768

/-- The first window in which a sum of charges exceeds its budget; `l` holds each tile's charges and peak, in ascending tiles. -/
def Checked.tokens (c : Checked) (l : List (Charges × Nat)) : Option Refuse :=
  let windows := (l.map fun x => x.1.exact.length).foldl Nat.max 0 + (l.map fun x => x.1.period).foldl Nat.lcm 1
  let charge (t k : Nat) : Nat := match l[t]? with
    | some x => x.1.at_ x.2 k
    | none => 0
  let sum (ts : List Nat) (k : Nat) : Nat := (ts.map fun t => charge t k).foldl (· + ·) 0
  firstOf ((List.range windows).map fun k =>
    must (decide (sum c.logicals k ≤ c.chipBudget) && (List.range c.man.rows).all fun r =>
        decide (sum ((List.range c.man.ltpr).map fun i => r * c.man.ltpr + i) k ≤ c.rowBudget))
      { code := 0x12, loc := k })

/-! ### Links (R138) -/

/-- Whether a load slot of a tile completes on a semaphore. -/
def Checked.loadsOn (c : Checked) (t sem : Nat) : Bool :=
  (c.tileBundles t).any fun b => bundlePresent b.2.2 24 && decide ((lsFields (bundleLd b.2.2)).sv = 1)
    && decide ((lsFields (bundleLd b.2.2)).sem.toNat = sem)

/-- A semaphore that the posts of one tile raise is no full semaphore of another link: no other tile posts to it, and no load
engine of this position completes on it. -/
def Checked.links (c : Checked) (posts : List (Nat × List (Nat × Nat × Nat))) : Option Refuse :=
  firstOf (posts.flatMap fun x => x.2.map fun y =>
    must (posts.all (fun z => decide (z.1 = x.1) || !z.2.contains y)
        && (decide (y.1 ≠ c.position) || !c.loadsOn y.2.1 y.2.2))
      { code := 0xE, sec := c.where_ 5 0 c.position x.1, tile := x.1, loc := y.2.2 })

/-! ### The verdict -/

/-- The walks of all tiles: the first refusal, or what each found. -/
def Checked.walks (c : Checked) : List Nat → List (Nat × Found) → Except Refuse (List (Nat × Found))
  | [], r => .ok r
  | t :: l, r =>
    let p := c.progOf t
    match p.explore walkFuel [p.start] [] {} with
    | .error e => .error e
    | .ok x => c.walks l (r ++ [(t, x)])

/-- The checks over every control path (R198). -/
def Checked.paths (c : Checked) : Option Refuse :=
  match c.walks c.logicals [] with
  | .error e => some e
  | .ok l => firstOf [c.links (l.map fun x => (x.1, x.2.posts)),
      c.tokens (l.map fun x => ((c.progOf x.1).charges walkFuel (c.progOf x.1).start 0 (0, 0) [] [], x.2.peak))]

/-- The checks that a look at the image decides, in the order of the codes. -/
def Checked.sections (c : Checked) : Option Refuse :=
  firstOf [c.dataRanges, c.reductions, c.updates, c.outputs, c.layouts, c.encodings, c.chains, c.terms, c.flow, c.tables, c.sync, c.tolls, c.routes,
    c.timetables, c.crossings, c.strict]

/-- The first check that the image fails: the checks over paths come last. -/
def Checked.verify (c : Checked) : Option Refuse :=
  match c.sections with
  | some e => some e
  | none => c.paths

end Sys2Proof.Machine
end

