-- ==== Sys2Proof/Machine/Install.lean ====
section
/-! DEFINITION. Installing an image (R73, R111, R177, R182, R189, R194, R217, R290, R453) and the loader's way to it. -/

namespace Sys2Proof.Machine

open Sys2Proof

/-! ### What an image gives a tile -/

/-- The sections of a position: as patched for the device's own, as supplied for another. -/
def Image.of (m : Image) (position : Nat) : List Section := if position = m.position then m.sections else m.dir

/-- The bytes of a section of a position and tile; empty without one. -/
def Image.bytes (m : Image) (typ index position t : Nat) : List Byte :=
  ((sectionAt (m.of position) typ index position t).map Section.data).getD []

/-- The logical tiles of the image. -/
def Image.logicals (m : Image) : List Nat := List.range (m.rows * m.ltpr)

/-- The CAIRN_N in force: 0 stands for 64. -/
def Image.cairnEvery (m : Image) : Nat := if m.cairnN = 0 then 64 else m.cairnN

/-- The signal that a channel's grants raise: the toll semaphore of its sender's outbound port (log 13). -/
def Image.tollRefOf (m : Image) (sender : Nat) : W64 :=
  let p := sender / 2 ^ 48
  let t := bitsAt sender 47 40
  refLocal p t (ocOf (ocWord (m.bytes 6 0 p t) (bitsAt sender 35 32))).toll

/-- The lowest slot of a range that no earlier entry holds over an overlapping span (R217). -/
def freeSlot (base count : Nat) (taken : List (Nat × Crossing)) (e : Crossing) : Nat :=
  (((List.range count).map fun k => base + k).find? fun k =>
    !(taken.any fun x => decide (x.1 = k) && decide (x.2.write ≤ e.read) && decide (e.write ≤ x.2.read))).getD base

/-- Entries in the order of WRITE, section order kept among equals. -/
def insertCrossing (e : Crossing) : List Crossing → List Crossing
  | [] => [e]
  | x :: l => if x.write ≤ e.write then x :: insertCrossing e l else e :: x :: l
def sortCrossings (l : List Crossing) : List Crossing := l.foldl (fun acc e => insertCrossing e acc) []

/-- The slots of one group. -/
def groupSlots (base : Nat) (l : List Crossing) : List (Nat × Crossing) :=
  (sortCrossings l).foldl (fun acc e => acc ++ [(freeSlot base (peakOf l) acc e, e)]) []

/-- The slots of one direction: a range for each group, in ascending ANCHOR. -/
def directionSlots (l : List Crossing) (dir : Nat) : List (Nat × Crossing) :=
  ((groupsOf l dir).foldl (fun (acc : Nat × List (Nat × Crossing)) g =>
    (acc.1 + peakOf g, acc.2 ++ groupSlots acc.1 g)) (0, [])).2

/-- The boundary sequencer of a tile. -/
def Image.crossingsFor (m : Image) (l : Nat) : List SeqEntry :=
  (List.range 7).flatMap fun pair =>
    let entries := crossingsOf (m.bytes 0xB pair m.position 0xFFFF)
    (List.range 2).flatMap fun dir => (directionSlots entries dir).flatMap fun x =>
      (if x.2.ptile = l then [⟨pair, dir, x.1, true, x.2.write, x.2.anchor, none⟩] else []) ++
      (if x.2.ctile = l then [⟨pair, dir, x.1, false, x.2.read, x.2.anchor, none⟩] else [])

/-- The semaphores, ports, channels and watchdog limit of a logical tile. -/
def Image.portsFor (m : Image) (l : Nat) : Tile :=
  let sems := m.bytes 5 0 m.position l
  let ports := m.bytes 6 0 m.position l
  { hash := m.hash, wdogLimit := BitVec.ofNat 6 m.wdog,
    rtarget := BitVec.ofNat 64 (leAt sems 128 8),
    sems := if sems = [] then [] else (List.range 64).map fun i => (i, { value := semInit sems i }),
    bp := if ports = [] then [] else (List.range 8).map fun p => (p, bpOf (bpWord ports p)),
    ch := if ports = [] then [] else (List.range 16).map fun c =>
      (c, { chOf (chWord ports c) (senderOf ports c) with tollRef := m.tollRefOf (senderOf ports c) }),
    oc := if ports = [] then [] else (List.range 16).map fun o => (o, ocOf (ocWord ports o)),
    crossings := m.crossingsFor l }

/-- A logical tile as step 7 of R189 leaves it. -/
def Image.tileFor (m : Image) (l : Nat) : Tile :=
  let t0 := m.portsFor l
  let t1 : Tile :=
    { t0 with
      curves := (sectionsAt m.sections 3 m.position l).foldl (fun c x => SMap.set c x.index x.data) [],
      spad := (sectionsAt m.sections 4 m.position l).foldl
        (fun sp x => sp.write (leAt x.data 0 8) ((x.data.drop 8).map fun b => (b, false))) {} }
  (t1.fillHalf 0 (m.bytes 1 0 m.position l)).fillHalf 1 (m.bytes 1 1 m.position l)

/-! ### Global semaphores (R177, R182) -/

/-- The belay ports, on every position, that are bound to a belay of this one. -/
def Image.portRefs (m : Image) : List (Nat × PortRef) :=
  (List.range m.positions).flatMap fun p => m.logicals.flatMap fun t => (List.range 8).filterMap fun k =>
    let b := bpOf (bpWord (m.bytes 6 0 p t) k)
    if b.valid ∧ b.chip = m.position then some (b.index, ⟨p, t, k⟩) else none

def Image.gsemsFor (m : Image) : SMap GSem :=
  let d := m.bytes 7 0 m.position 0xFFFF
  let refs := m.portRefs
  if d = [] then []
  else (List.range 4096).filterMap fun n =>
    let g := gsOf d n
    if g.mode = .unused then none
    else some (n, { g with ports := (refs.filter fun x => decide (x.1 = n)).map Prod.snd })

/-! ### The program's state for a run that begins at a counter (R193, R345) -/

/-- A bound queue pair that a restart finds BROKEN is ready again (R420). -/
def Qp.mend (q : Qp) : Qp := if q.st = .broken then { q with st := .ready } else q

/-- The image's tiles, semaphores, ports and channels, and the counts of a step counter. A BROKEN record that has come for
the run before has no effect (R169). -/
def State.placeProgram (s : State) (m : Image) (k : W64) : State :=
  let limited := (List.range 200).foldl (fun s n => s.setTile n { Tile.reset with wdogLimit := BitVec.ofNat 6 m.wdog }) s
  let s1 := (m.logicals.zip s.tileMap).foldl (fun s x => s.setTile x.2 (m.tileFor x.1)) limited
  { s1 with
    gs := m.gsemsFor,
    redSeq := seqStart s1.reds k.toNat,
    redBlocks := [], redHeld := [], updDone := [], updTag := [],
    senders := s1.senders.map fun x => (x.1, { x.2 with w := 0, seq := 0 }),
    qps := s1.qps.map fun x => (x.1, x.2.mend),
    step := k, arrived := false, bcTag := 0, stepReleases := 0, reports := [], reportsNext := [],
    delivered := s1.delivered.filter fun r => match r.body with
      | .broken _ _ _ => false
      | _ => true }

/-! ### Step 7 of R189 -/

/-- The block resets of a load: every tile, and the depots' program state; what is under way between them is lost. -/
def State.loadResets (s : State) : State :=
  let s1 := (s.blockResetAll ((List.range 200).map fun n => ⟨1, n⟩)).blockResetAll ((List.range 4).map fun d => ⟨3, d⟩)
  { (s1.clearGsems 3072 1024) with sigDiscards := 0, net := [], delivered := s1.delivered.filter fun r => r.dyn }

/-- The initial HBM data. -/
def State.placeHbm (s : State) (m : Image) : State :=
  (m.sections.filter fun x => x.applies m.position && decide (x.typ = 8)).foldl
    (fun s x => s.hbmWrite (leAt x.data 0 8) ((x.data.drop 8).map fun b => (b, false)) false) s

/-- A Caravan port takes the timetables of an image: none is in use before the start, and the port is not in open mode
(R193, R271, R290). -/
def CvPort.install (x : CvPort) (d : List Byte) : CvPort :=
  { x with
    queues := [], offers := [], reorder := x.reorder.filter fun w => w.entry.isNone,
    groups := x.groups.filter fun g => decide (g.1 = 256), wraps := [],
    qtab := if d = [] then [] else queuesOf d, tables := if d = [] then [] else ttablesOf d,
    cur := none, prepared := none, previous := none, prevOpen := false, alt := 0, tbl := 0, open_ := false }

def State.installPorts (s : State) (m : Image) : State :=
  let s1 := (List.range 16).foldl (fun s p => s.modPort p fun x => x.install (m.bytes 0xA p m.position 0xFFFF)) s
  { s1 with cv := { s1.cv with
      alt := 0, tbl := 0, open_ := false, epoch := 0, pending := none, waiting := [], seen := [], switchLeg := none,
      synced := false, primary := 1 } }

/-- What TABLES_DIGEST covers (R453). -/
def Image.tableBytes (m : Image) : List Byte :=
  ((List.range 16).flatMap fun k => m.bytes 2 (16 + k) m.position 0xFFFF) ++
    m.logicals.flatMap fun l => (List.range 16).flatMap fun c =>
      let d := m.bytes 3 c m.position l
      if d = [] then List.replicate 4112 0 else d

/-- What TIMETABLE_DIGEST covers (R453). -/
def Image.timetableBytes (m : Image) : List Byte :=
  m.bytes 9 0 m.position 0xFFFF ++ (List.range 16).flatMap fun p => m.bytes 0xA p m.position 0xFFFF

/-- The measurements of an installed image (R452), and the run chain cleared (R465). -/
def State.measure (s : State) (m : Image) : State :=
  { s with sec := { s.sec with
      tablesDigest := sha384 m.tableBytes, timetableDigest := sha384 m.timetableBytes,
      runChain := List.replicate 48 0, runFirst := 0, runLast := 0, ring := [], chains := [], segments := [],
      truncated := false, runOpen := false, folded := true, spareChain := none, build := none } }

/-- The descriptors and tables of an image. -/
def State.installTables (s : State) (m : Image) : State :=
  let at_ (typ : Nat) : List Byte := m.bytes typ 0 m.position 0xFFFF
  { s with
    formats := (List.range 16).filterMap fun k =>
      let d := m.bytes 2 (16 + k) m.position 0xFFFF
      if d = [] then none else some (16 + k, d),
    chipmap := chipMapOf (at_ 9) m.positions,
    reds := if at_ 0xD = [] then [] else redsOf (at_ 0xD),
    upds := if at_ 0xC = [] then [] else updDescsOf (at_ 0xC),
    groups := if at_ 0xC = [] then [] else updGroupsOf (at_ 0xC),
    scheds := if at_ 0xC = [] then [] else schedsOf (at_ 0xC),
    outputs := if at_ 0xE = [] then [] else outsOf (at_ 0xE) }

/-- The image is installed, with HBM_INIT data; the step counter becomes `k`. -/
def State.install (s : State) (m : Image) (tileMap : List Nat) (k : W64) : State :=
  let s1 := s.loadResets
  let s2 := (({ s1 with image := some m, tileMap := tileMap }).installTables m).installPorts m
  let s3 := ((s2.placeProgram m k).placeHbm m).measure m
  { s3 with loadCode := 0, loadWhere := 0, rowsDue := [], faultsOut := [], reportsOut := [] }

/-! ### The loader (R189) -/

/-- The first unit of the image region that reads poisoned, as a byte offset in the image. -/
def badUnit (l : List (Byte × Bool)) : Option Nat := (l.findIdx? fun x => x.2).map fun i => i / 64 * 64

/-- Steps 2 to 6 on the bytes of the image region: the image and its tile map, or the refusal. -/
def loadCheck (fuses : Fuses) (raw : List (Byte × Bool)) (position base size : Nat) (bind : List W64) (repair : List Nat) :
    Except Refuse (Image × List Nat) :=
  let b := raw.map Prod.fst
  let man := manifestOf b
  let dir := directoryOf b man.sections
  match firstOf [(badUnit raw).map fun o => { code := 0x16, loc := o }, manifestCheck b man size,
      capacityCheck man position fuses.clsM] with
  | some r => .error r
  | none =>
    match firstOf [directoryCheck b man dir, relocationCheck fuses.present repair man, bindingCheck dir position bind] with
    | some r => .error r
    | none =>
      match patched dir position bind with
      | .error r => .error r
      | .ok secs =>
        match (Checked.mk b man dir secs position bind).verify with
        | some r => .error r
        | none =>
          .ok ({ position := position, base := base, size := size, rows := man.rows, ltpr := man.ltpr,
                 positions := man.positions, seed := man.seed, relax := man.relax, clsM := man.clsM, hash := man.hash,
                 stepBelay := man.stepBelay, cairnN := man.cairnN, wdog := man.wdog, dir := dir, sections := secs,
                 bind := bind, repair := repair, imageDigest := sha384 b,
                 bindingDigest := sha384 (bind.flatMap fun v => leBytes 8 v.toNat) },
               tileMapOf fuses.present repair man)

/-- The loader's read of the image region: detections mark no step. -/
def State.readRegion (s : State) (base size : Nat) : State × List (Byte × Bool) :=
  (s.hbmTouch base size false, s.hbmBytes base size)

/-- A load of a position: the refusal in the load registers, or the image installed. -/
def State.loadImage (s : State) (position base size : Nat) (bind : List W64) (repair : List Nat) (k : W64) :
    State × Option Refuse :=
  let (s1, raw) := s.readRegion base size
  match loadCheck s1.fuses raw position base size bind repair with
  | .error r => ({ s1 with loadCode := r.code, loadWhere := r.word }, some r)
  | .ok (m, tiles) => (s1.install m tiles k, none)

/-- Whether step 7 of this load fails (R189, R433; log 80). -/
def State.stepSeven (s : State) : Bool × State := (Config.loadFails s.freeCtr, { s with freeCtr := s.freeCtr + 1 })

end Sys2Proof.Machine
end

