-- ==== Sys2Proof/Machine/Switch.lean ====
section
/-! DEFINITION. Timetable switches: posting and accepting a SWITCH, the switch leg, keep and flush switches (R280 to R283). -/

namespace Sys2Proof.Machine

open Sys2Proof

/-! ### Accepting (R280) -/

/-- Base camp's local GTC in whole nanoseconds. -/
def State.now (s : State) : Nat := s.stamp.toNat

/-- How far an EPOCH lies ahead of the last one applied. -/
def CvChip.ahead (c : CvChip) (r : RecSwitch) : Nat := (r.epoch + 256 - c.epoch) % 256

/-- A switch becomes the pending one: its tables are prepared on every port that has them (R281). -/
def State.prepareSwitch (s : State) (r : RecSwitch) : State :=
  let s1 := (List.range 16).foldl (fun s p => s.modPort p fun x =>
    { x with prepared := if r.alt = 255 then none else x.tables.findIdx? fun t => decide (t.alt = r.alt) }) s
  { s1 with cv := { s1.cv with
      pending := some r, switchAt := BitVec.ofNat 64 r.instant, late := s1.cv.late || decide (r.instant < s.now) } }

/-- The switch that comes next in EPOCH order becomes the pending one: the one after the last applied, or, where none has
been applied since the image was installed, the nearest known (log 105). -/
def State.nextSwitch (s : State) : State :=
  if s.cv.pending.isSome then s
  else
    let near (r : RecSwitch) : Bool := s.cv.waiting.all fun q => decide (s.cv.ahead r ≤ s.cv.ahead q)
    match s.cv.waiting.find? fun r => decide (s.cv.ahead r = 1) || (!s.cv.synced && near r) with
    | some r => ({ s with cv := { s.cv with waiting := s.cv.waiting.erase r } }).prepareSwitch r
    | none => s

/-- A switch that this chip has not seen: of its own team it is accepted, unless a later one has been applied. -/
def State.takeSwitch (s : State) (r : RecSwitch) : State :=
  let s1 := { s with cv := { s.cv with seen := (r.team * 256 + r.epoch) :: s.cv.seen.take 127 } }
  if s1.image.isSome ∧ r.team = s1.teamNo ∧ ¬ (s1.cv.synced ∧ (s1.cv.ahead r = 0 ∨ 128 ≤ s1.cv.ahead r)) then
    ({ s1 with cv := { s1.cv with waiting := s1.cv.waiting ++ [r] } }).nextSwitch
  else s1

def execSwitchRecord (p : Nat) (r : RecSwitch) (s : State) : Res :=
  let s1 := s.took fun b => decide (b = .switch r)
  .next (if r.team * 256 + r.epoch ∈ s1.cv.seen then s1 else (s1.floodOn p (s.deliveredAs (.switch r))).takeSwitch r)

/-- The EPOCH of the next switch that this chip posts. -/
def CvChip.nextEpoch (c : CvChip) : Nat :=
  let known := c.pending.toList ++ c.waiting
  (c.epoch + 1 + (known.map c.ahead).foldl Nat.max 0) % 256

/-- Base camp posts a switch of its team. -/
def State.postSwitch (s : State) (alt : Nat) (flush : Bool) (instant : Nat) : State :=
  let r : RecSwitch := ⟨s.teamNo, s.cv.nextEpoch, alt, flush, instant⟩
  (s.flood (.switch r)).takeSwitch r

/-! ### The switch leg (R281) -/

/-- A port at the switch leg: open mode, or the table of ALT where it has one, else the table that it had. -/
def CvPort.switchTo (x : CvPort) (alt tbl : Nat) : CvPort :=
  let y := { x with previous := x.cur, prevOpen := x.open_, prepared := none, tbl := tbl }
  if alt = 255 then { y with alt := 255, open_ := true }
  else
    let c := x.prepared.or x.cur
    { y with cur := c, open_ := false, alt := ((c.bind fun i => x.tables[i]?).map TTable.alt).getD alt }

/-- Flits in groups of at most eight, each group behind a head flit with a DETOUR record for each of them (R282). -/
def detourGo (p : Nat) : Nat → List RetryItem → List QFlit
  | 0, _ => []
  | _ + 1, [] => []
  | fuel + 1, i :: l =>
    let g := (i :: l).take 8
    let head : QFlit :=
      { kind := 1, flit := headFlit (g.map fun x => recBits ⟨false, 0, 0, 0, .detour ⟨p, x.slot.tbl, x.slot.leg, x.slot.slot⟩⟩) }
    let flits := g.map fun x => ({ kind := x.slot.kind, psn := x.slot.psn, flit := x.slot.flit, wrap := some p } : QFlit)
    head :: flits ++ detourGo p fuel ((i :: l).drop 8)

/-- Where a queue of a failed port goes on its twin: the queue of the same source and destination. -/
def State.twinQueue (s : State) (p q : Nat) : Option (Nat × Nat) :=
  match twinOf p, (s.port p).qtab[q]? with
  | some w, some e => ((s.port w).queueFor e.src e.detail e.dest).map fun q' => (w, q')
  | _, _ => none

/-- The contents of a queue of a failed port go to the head of its route's queue on the twin. -/
def State.moveQueue (s : State) (p q : Nat) : State :=
  match s.twinQueue p q with
  | none => s
  | some (w, q') =>
    let x := s.port p
    let items := x.retry.filter fun i => decide (i.queue = q)
    let flits := detourGo p items.length items ++ x.queues.get q [] ++ x.offers.get q []
    (s.modPort w fun y => { y with queues := y.queues.upd q' [] fun l => flits ++ l }).modPort p fun x =>
      { x with retry := x.retry.filter fun i => decide (i.queue ≠ q), queues := SMap.erase x.queues q,
               offers := SMap.erase x.offers q }

/-- The dynamic records of a failed port whose flits are not all confirmed, each once. -/
def CvPort.dynUnconfirmed (x : CvPort) : List Routed :=
  let l := (x.retry.filterMap RetryItem.rec_) ++ x.dynOut.filterMap QFlit.rec_
  l.foldl (fun acc r => if acc.getLast? = some r then acc else acc ++ [r]) []

/-- The dynamic records of a failed port set out again by another port. -/
def State.moveDynamic (s : State) (p : Nat) : State :=
  let x := s.port p
  let s1 := s.modPort p fun x => { x with retry := x.retry.filter fun i => decide (i.queue ≠ 256), dynq := [], dynOut := [] }
  (x.dynUnconfirmed ++ x.dynq).foldl (fun s r => s.dynForward (some p) r) s1

/-- A keep switch moves what each failed port holds (R282). -/
def State.keepPort (s : State) (p : Nat) : State :=
  if (s.port p).st = .failed then
    ((List.range (s.port p).qtab.length).foldl (fun s q => s.moveQueue p q) s).moveDynamic p
  else s

/-- The flits that a flush discards. -/
def CvPort.flushCount (x : CvPort) : Nat :=
  (x.retry.filter fun i => decide (i.queue ≠ 256)).length + (x.reorder.filter fun w => w.entry.isSome).length +
    ((x.queues ++ x.offers).map fun q => q.2.length).foldl (· + ·) 0

/-- A flush switch empties a port but for its dynamic traffic (R283). -/
def CvPort.flush (x : CvPort) : CvPort :=
  { x.count cvDiscards x.flushCount with
    retry := x.retry.filter fun i => decide (i.queue = 256), idleAns := [], queues := [], offers := [],
    reorder := x.reorder.filter fun w => w.entry.isNone, groups := x.groups.filter fun g => decide (g.1 = 256),
    wraps := [], previous := none }

/-- Whether the pending switch takes effect at this leg boundary. -/
def State.switchDue (s : State) : Option RecSwitch :=
  s.cv.pending.bind fun r => if r.instant ≤ s.now ∧ s.cv.slotCount % 1024 = 0 then some r else none

/-- The tables, tag and flags of a switch. -/
def State.applySwitch (s : State) (r : RecSwitch) : State :=
  let tbl := (s.cv.tbl + 1) % 4
  let s1 := (List.range 16).foldl (fun s p => s.modPort p fun x => x.switchTo r.alt tbl) s
  let s2 := { s1 with cv := { s1.cv with
      alt := r.alt, tbl := tbl, open_ := decide (r.alt = 255), pending := none, epoch := r.epoch,
      switchLeg := some (s1.cv.slotCount / 1024), synced := true } }
  let s3 := if r.flush then (List.range 16).foldl (fun s p => s.modPort p CvPort.flush) s2
    else (List.range 16).foldl State.keepPort s2
  let s4 := if r.alt = 255 then s3 else { s3 with recov := { s3.recov with runAlt := r.alt } }
  s4.nextSwitch

/-- The previous tables are dropped (R281). -/
def execPreviousTablesExpire (s : State) : Res :=
  .next (match s.cv.switchLeg with
    | some l =>
      if l + 4 ≤ s.cv.slotCount / 1024 then
        let s1 := (List.range 16).foldl (fun s p => s.modPort p fun x => { x with previous := none, prevOpen := false }) s
        { s1 with cv := { s1.cv with switchLeg := none } }
      else s
    | none => s)

end Sys2Proof.Machine
end

