-- ==== Sys2Proof/Machine/Cairn.lean ====
section
/-! DEFINITION. Full cairns and the gradient log: slots and pages, streaming, commits and acknowledgements (R349 to R358, R365). -/

namespace Sys2Proof.Machine

open Sys2Proof

/-! ### Another position's descriptors (R337, R351, R357) -/

/-- This chip as it would be at another position of the run: its descriptors come from the image. -/
def State.asOwner (s : State) (p : Nat) : State :=
  match s.image with
  | none => s
  | some m =>
    if p = m.position then s
    else
      let upd := m.bytes 0xC 0 p 0xFFFF
      let red := m.bytes 0xD 0 p 0xFFFF
      { s with image := some { m with position := p },
               upds := if upd = [] then [] else updDescsOf upd, reds := if red = [] then [] else redsOf red }

/-- Up to the next multiple of 64. -/
def up64 (n : Nat) : Nat := (n + 63) / 64 * 64

/-- The bytes of a slot: its 64-byte head and the owner's largest chunk (R351). -/
def State.slotSize (s : State) : Nat := 64 + up64 (((List.range s.chunkCount).map s.chunkBytes).foldl Nat.max 0)

/-- The chunks of this position that a holder holds. -/
def State.heldBy (s : State) (h : Nat) : List Nat := (List.range s.chunkCount).filter fun q => decide (s.holderOf q = some h)

/-- The slots that a holder keeps for this position. -/
def State.slotCount (s : State) (h : Nat) : Nat := (s.heldBy h).length + 1

/-- The positions whose chunks a holder holds, ascending. -/
def State.ownersOf (s : State) (h : Nat) : List Nat := s.teamPositions.filter fun p => decide (h ∈ s.holdersOf p)

/-- The bases of the cairn and log regions (R337; one for the team, log 28). -/
def State.cairnBase (s : State) : Nat := (s.recov.team.map TeamBody.cairnBase).getD 0
def State.logBase (s : State) : Nat := (s.recov.team.map TeamBody.logBase).getD 0
def State.logSteps (s : State) : Nat := Nat.max 1 ((s.recov.team.map TeamBody.logsteps).getD 1)

/-- Where a slot of an owner lies at a holder. -/
def State.slotOff (s : State) (h owner slot : Nat) : Nat :=
  s.cairnBase + (((s.ownersOf h).filter fun p => decide (p < owner)).map fun p =>
    (s.asOwner p).slotCount h * (s.asOwner p).slotSize).foldl (· + ·) 0 + slot * (s.asOwner owner).slotSize

/-! ### Streaming (R350, R351, R354, R365) -/

/-- The bytes of a chunk as stored for a tag. -/
def State.chunkData (s : State) (q tag : Nat) : List (Byte × Bool) :=
  (s.chunkSpans q (s.chunkSet q tag)).flatMap fun x => s.hbmBytes x.1 x.2

def State.chunkTouch (s : State) (q tag : Nat) : State :=
  (s.chunkSpans q (s.chunkSet q tag)).foldl (fun s x => s.hbmTouch x.1 x.2 true) s

/-- A cairn with a tag begins, where the team takes cairns (R338). -/
def State.beginCairn (s : State) (tag : W64) : State :=
  if s.recov.prot ∧ 0 < s.chunkCount then
    { s with recov := { s.recov with stream := some (tag, 0), streamInFlight := [] } }
  else s

/-- After a restart the stream goes on with the first chunk that has not been acknowledged. -/
def State.resumeCairn (s : State) : State :=
  let s1 := { s with recov := { s.recov with streamInFlight := [] } }
  match s.recov.stream with
  | some (tag, _) =>
    match (List.range s.chunkCount).find? fun q => decide (s.recov.ackTag.get? q ≠ some tag) with
    | some q => { s1 with recov := { s1.recov with stream := some (tag, q) } }
    | none => { s1 with recov := { s1.recov with stream := none } }
  | none => s1

/-- The next chunk to stream and its tag: refills first. -/
def State.nextChunk (s : State) : Option (Nat × W64) :=
  let idle (q : Nat) : Bool := !(s.recov.streamInFlight.any fun x => decide (s.holderOf x = s.holderOf q))
  let refill := if s.recov.refill then
      (List.range s.chunkCount).find? fun q => (s.recov.ackTag.get? q).isNone && idle q && decide (q ∉ s.recov.streamInFlight)
    else none
  match refill with
  | some q => some (q, s.recov.recStep)
  | none =>
    match s.recov.stream with
    | some (tag, q) => if q < s.chunkCount ∧ idle q then some (q, tag) else none
    | none => none

/-- The words of a commit (R353). -/
def commitBytes (owner slot q : Nat) (tag : W64) (bytes : Nat) : List Byte :=
  leBytes 8 (owner * 2 ^ 48 + slot) ++ leBytes 8 q ++ leBytes 8 tag.toNat ++ leBytes 8 bytes ++ List.replicate 32 0

/-- Global addresses of HBM and of control space on a chip (R14). -/
def hbmAddr (chip off : Nat) : W64 := BitVec.ofNat 64 (chip * 2 ^ 41 + off)
def ctlAddr (chip off : Nat) : W64 := BitVec.ofNat 64 (2 ^ 62 + chip * 2 ^ 41 + off)

/-- Bytes as a WRITE record of base camp. -/
def writeRec (addr : W64) (data : List (Byte × Bool)) : Rec := .write ⟨0xFF, addr, bytesUnits ((data.length + 63) / 64) data⟩
def clean (b : List Byte) : List (Byte × Bool) := b.map fun x => (x, false)

/-- The free slot of a holder: the one it last announced; before any, one that the spec leaves open (log 29). -/
def State.freeSlotAt (s : State) (h : Nat) : Nat × State :=
  match s.recov.freeAt.get? h with
  | some x => (x, s)
  | none =>
    let (v, s1) := s.fresh
    (v % s.slotCount h, s1)

/-- A chunk and its commit leave for the holder. -/
def State.sendChunk (s : State) (q : Nat) (tag : W64) (h : Nat) : State :=
  let (slot, s1) := s.freeSlotAt h
  let data := s1.chunkData q tag.toNat
  let s2 := ((s1.chunkTouch q tag.toNat).sendDyn h (writeRec (hbmAddr h (s1.slotOff h s1.position slot + 64)) data)).sendDyn h
    (writeRec (ctlAddr h commitOff) (clean (commitBytes s1.position slot q tag data.length)))
  let rc := s2.recov
  let stream := match rc.stream with
    | some (t, k) => if k = q ∧ t = tag then some (t, k + 1) else some (t, k)
    | none => none
  { s2 with recov := { rc with streamInFlight := rc.streamInFlight ++ [q], stream := stream } }

def execCairnChunk (s : State) : Res :=
  .next (if s.recov.haltPosted then s
  else match s.nextChunk with
    | some (q, tag) =>
      match s.holderOf q with
      | some h => s.sendChunk q tag h
      | none => s
    | none => s)

/-! ### Commits at the holder (R351, R357) -/

def dirKey (owner q : Nat) : Nat := owner * 2 ^ 32 + q

/-- Log entries of an owner whose step lies below the tags of all its chunks here are discarded. -/
def State.pruneLog (s : State) (owner : Nat) : State :=
  let mine := (s.asOwner owner).heldBy s.position
  { s with recov := { s.recov with log := s.recov.log.filter fun e =>
      !(decide (e.1 = owner) && mine.all fun q => match s.recov.dirTag.get? (dirKey owner q) with
        | some t => decide (e.2.1.toNat < t.toNat)
        | none => false) } }

/-- The slot that is free after a commit: the chunk's former slot; without one, a slot in no use (log 29). -/
def State.freedSlot (s : State) (owner q slot : Nat) : Nat × State :=
  match s.recov.dirSlot.get? (dirKey owner q) with
  | some x => (x, s)
  | none =>
    let v := s.asOwner owner
    let used := slot :: (v.heldBy s.position).filterMap fun k => s.recov.dirSlot.get? (dirKey owner k)
    let left := (List.range (v.slotCount s.position)).filter fun k => decide (k ∉ used)
    let (r, s1) := s.fresh
    (left.getD (r % Nat.max 1 left.length) 0, s1)

def State.commit (s : State) (owner slot q : Nat) (tag : W64) (bytes : Nat) : State :=
  let (free, s1) := s.freedSlot owner q slot
  let s2 := s1.hbmWrite (s1.slotOff s1.position owner slot) (clean (commitBytes owner slot q tag bytes)) false
  let s3 := { s2 with recov := { s2.recov with
      dirSlot := s2.recov.dirSlot.set (dirKey owner q) slot, dirTag := s2.recov.dirTag.set (dirKey owner q) tag,
      ownerFree := s2.recov.ownerFree.set owner free } }
  (s3.pruneLog owner).sendMgmt owner 0x06
    [BitVec.ofNat 64 (owner * 2 ^ 48 + free), BitVec.ofNat 64 q, tag]

/-- The commit's WRITE record as it was delivered. -/
def isCommitOf (data : List Byte) (b : Rec) : Bool :=
  match b with
  | .write r => isCommit r && decide ((unitsBytes r.data).map Prod.fst = data)
  | _ => false

def execCairnCommit (owner slot q : Nat) (tag : W64) (bytes : Nat) (s : State) : Res :=
  let data := commitBytes owner slot q tag bytes
  match s.delivered.find? fun r => isCommitOf data r.body with
  | some r => s.recAct r.body fun s => s.commit owner slot q tag bytes
  | none => .next (s.commit owner slot q tag bytes)

/-! ### Acknowledgements at the owner (R351, R352, R372) -/

/-- The least acknowledged tag. -/
def Recovery.low (r : Recovery) : W64 :=
  match r.ackTag.map Prod.snd with
  | [] => 0
  | t :: l => l.foldl (fun a b => if b.toNat < a.toNat then b else a) t

def State.chunkAcked (s : State) (slot q : Nat) (tag : W64) : State :=
  let r := s.recov
  let acks := r.ackTag.set q tag
  let free := match s.holderOf q with
    | some h => r.freeAt.set h slot
    | none => r.freeAt
  let all := List.range s.chunkCount
  let stream := match r.stream with
    | some (t, k) => if all.all fun x => decide (acks.get? x = some t) then none else some (t, k)
    | none => none
  let r1 := { r with ackTag := acks, freeAt := free, chunksSent := r.chunksSent + 1,
                     streamInFlight := r.streamInFlight.filter fun x => decide (x ≠ q), stream := stream,
                     refill := r.refill && !(all.all fun x => (acks.get? x).isSome) }
  { s with recov := { r1 with cairnLow := r1.low } }

def execCairnAck (owner slot q : Nat) (tag : W64) (s : State) : Res :=
  .next ((s.tookMgmt 0x06 [BitVec.ofNat 64 (owner * 2 ^ 48 + slot), BitVec.ofNat 64 q, tag]).chunkAcked slot q tag)

/-! ### The gradient log (R355 to R358) -/

/-- The units of a block of a reduction in the log, and the blocks of a step that fall to a holder. -/
def RedDesc.logBytes (r : RedDesc) : Nat := up64 (r.elems * plainBytes r.outFmt)
def State.logBlocks (s : State) (h : Nat) (r : RedDesc) : List Nat :=
  (List.range r.nblocks).filter fun b => decide (s.logHolder r b = some h)

/-- The reductions of this position that log, in RID order. -/
def State.logReds (s : State) : List RedDesc :=
  let l := s.reds.filter fun r => decide (r.role = 0) && r.log
  (sortNats (l.map RedDesc.rid)).filterMap fun k => l.find? fun r => decide (r.rid = k)

/-- The bytes of a page that a holder keeps for this position. -/
def State.pageSize (s : State) (h : Nat) : Nat :=
  (s.logReds.map fun r => (s.logBlocks h r).length * r.logBytes).foldl (· + ·) 0

/-- Where the k-th entry of a RID lies within the page of a step. -/
def State.pageOff (s : State) (h rid k : Nat) : Nat :=
  ((s.logReds.filter fun r => decide (r.rid < rid)).map fun r => (s.logBlocks h r).length * r.logBytes).foldl (· + ·) 0
    + k * ((s.logReds.find? fun r => decide (r.rid = rid)).map RedDesc.logBytes).getD 0

/-- Where an entry lies in this holder's log region. -/
def State.logOff (s : State) (owner step rid k : Nat) : Nat :=
  let h := s.position
  s.logBase + (((s.ownersOf h).filter fun p => decide (p < owner)).map fun p =>
    s.logSteps * (s.asOwner p).pageSize h).foldl (· + ·) 0
    + step % s.logSteps * (s.asOwner owner).pageSize h + (s.asOwner owner).pageOff h rid k

/-- The entries held for an owner, step and RID. -/
def State.logCount (s : State) (owner : Nat) (step : W64) (rid : Nat) : Nat :=
  (s.recov.log.filter fun e => decide (e.1 = owner) && decide (e.2.1 = step) && decide (e.2.2.1 = rid)).length

/-- Whether the page that a step needs still holds another step of the owner. -/
def State.pageBusy (s : State) (owner : Nat) (step : W64) : Bool :=
  s.recov.log.any fun e => decide (e.1 = owner) && decide (e.2.1 ≠ step)
    && decide (e.2.1.toNat % s.logSteps = step.toNat % s.logSteps)

/-- An entry is accepted in its page and acknowledged. -/
def State.appendLog (s : State) (r : RecLog) : State :=
  let step := BitVec.ofNat 64 r.step
  let k := s.logCount r.owner step r.rid
  let s1 := s.hbmWrite (s.logOff r.owner r.step r.rid k) (unitsBytes r.data) true
  let s2 := { s1 with recov := { s1.recov with
      log := s1.recov.log ++ [(r.owner, step, r.rid, r.block, decide (r.step < s1.step.toNat))],
      logAppends := s1.recov.logAppends + 1 } }
  s2.sendMgmt r.owner 0x07 [BitVec.ofNat 64 (r.owner * 2 ^ 48 + r.rid % 65536 * 2 ^ 32 + r.block % 2 ^ 32)]

def execLogRecord (r : RecLog) (s : State) : Res :=
  s.recAct (.log r) fun s =>
    if s.pageBusy r.owner (BitVec.ofNat 64 r.step) ∨ s.recov.logWaiting.any (fun x => decide (x.owner = r.owner)) then
      { s with recov := { s.recov with logWaiting := s.recov.logWaiting ++ [r] } }
    else s.appendLog r

def execLogEntryResume (s : State) : Res :=
  .next (match s.recov.logWaiting.find? fun r => !s.pageBusy r.owner (BitVec.ofNat 64 r.step) with
    | some r => ({ s with recov := { s.recov with logWaiting := s.recov.logWaiting.erase r } }).appendLog r
    | none => s)

/-- The holder that sent an acknowledgement, where it stands among the delivered records. -/
def State.mgmtFrom (s : State) (sub : Nat) (words : List W64) : Option Nat :=
  (s.delivered.find? fun r => match r.body with
    | .mgmt m => decide (m.subtype = sub) && decide (m.words.take words.length = words)
    | _ => false).map Routed.src

/-- Blocks of a RID up to a sequence number are logged, of those that fall to the holder of the named one: it is the
holder that acknowledges (R17, R356). -/
def State.logAcked (s : State) (rid block : Nat) : State :=
  match s.sumDesc rid with
  | none => s
  | some r =>
    { s with redBlocks := s.redBlocks.map fun x =>
        let b := x.1 % 2 ^ 32
        if x.1 / 2 ^ 32 = rid ∧ x.2.complete ∧ (block + 2 ^ 32 - b) % 2 ^ 32 < 2 ^ 31 ∧ s.logHolder r b = s.logHolder r block then
          (x.1, { x.2 with logAcked := true })
        else x }

def execLogAck (owner rid block : Nat) (s : State) : Res :=
  let words := [BitVec.ofNat 64 (owner * 2 ^ 48 + rid % 65536 * 2 ^ 32 + block % 2 ^ 32)]
  .next ((s.tookMgmt 0x07 words).logAcked rid block)

/-- The entries of a step are final once the step has ended here (R358). -/
def State.finalLog (s : State) (step : W64) : State :=
  { s with recov := { s.recov with log := s.recov.log.map fun e =>
      if e.2.1 = step then (e.1, e.2.1, e.2.2.1, e.2.2.2.1, true) else e } }

end Sys2Proof.Machine
end

