-- ==== Sys2Proof/Machine/Chain.lean ====
section
/-! DEFINITION. Step outputs, step digests and the run chain, and the chains and segments that the lead and the deputy keep
(R455 to R460). -/

namespace Sys2Proof.Machine

open Sys2Proof

/-! ### Output digests (R456) -/

/-- Bytes of HBM that a fold reads, and whether a unit of them was poisoned. -/
def foldRead (s : State) (off len : Nat) : List Byte × Bool :=
  let b := s.hbmBytes off len
  (b.map Prod.fst, b.any Prod.snd)

/-- Where the digest of an output entry is read for a step: offset and length. -/
def State.outSpan (s : State) (e : OutEntry) (step : Nat) : Nat × Nat :=
  if e.kind = 1 then (e.base + step % 2 * e.size, e.size)
  else
    let n := ((s.redDesc e.rid).map RedDesc.nblocks).getD 0
    (e.base + step % 2 * n * 48, n * 48)

/-- STATUS and digest of an entry. -/
def State.outDigest (s : State) (step : Nat) (e : OutEntry) : List Byte × Bool :=
  let x := s.outSpan e step
  let (b, p) := foldRead s x.1 x.2
  ((if p then 1 else 0) :: sha384 b, p)

/-! ### Digests and chains (R457) -/

/-- SD(s) of this position, and whether a STATUS is 1. -/
def State.stepDigest (s : State) (step : W64) : List Byte × Bool :=
  let ds := s.outputs.map (s.outDigest step.toNat)
  (sha384 ([0x41, 0x58, 0x53, 0x44] ++ leBytes 2 s.position ++ leBytes 8 step.toNat ++ ds.flatMap Prod.fst), ds.any Prod.snd)

/-- c(first − 1). -/
def chainStart (imageDigest binding : List Byte) (position : Nat) (first : W64) : List Byte :=
  sha384 ([0x41, 0x58, 0x52, 0x4E] ++ imageDigest ++ binding ++ leBytes 2 position ++ leBytes 8 first.toNat)

/-- c(s) from c(s − 1) and SD(s). -/
def chainNext (c sd : List Byte) : List Byte := sha384 (c ++ sd)

/-! ### The lead's and the deputy's records (R460) -/

/-- 48 bytes as the six words of a message, and back. -/
def digestWords (d : List Byte) : List W64 := (List.range 6).map fun k => BitVec.ofNat 64 (leAt d (8 * k) 8)

/-- A digest that the spec leaves open (log 30). -/
def State.freshDigest (s : State) : List Byte × State :=
  let (v, s1) := s.fresh
  (leBytes 48 v, s1)

/-- At most 2,048 segments; beyond them TRUNCATED. -/
def Security.addSegment (x : Security) (g : Segment) : Security :=
  if x.segments.length < 2048 then { x with segments := x.segments ++ [g] } else { x with truncated := true }

/-- The first segment and chain of a position at the start of a run: of another device, its identity and bindings are not
known here. -/
def State.openChain (s : State) (first : W64) (position : Nat) : State :=
  match s.image with
  | none => s
  | some m =>
    let (dev, s1) := if position = m.position then (s.fuses.deviceId, s) else s.freshDigest
    let (fw, s2) := if position = m.position then (s.base.fwDigest, s1) else s1.freshDigest
    let (bind, s3) := if position = m.position then (m.bindingDigest, s2) else s2.freshDigest
    let c := chainStart m.imageDigest bind position first
    let g : Segment := ⟨position, dev, fw, bind, first, first - 1, c, false⟩
    let x : Security := { s3.sec with chains := s3.sec.chains.set position [(first - 1, c)] }
    { s3 with sec := x.addSegment g }

/-- A run begins at a counter: its chain, and on the lead and the deputy the chains of the team. -/
def State.openRun (s : State) (first : W64) : State :=
  match s.image with
  | none => s
  | some m =>
    let c := chainStart m.imageDigest m.bindingDigest m.position first
    let s1 := { s with sec := { s.sec with
        runOpen := true, runFirst := first, runLast := first - 1, runChain := c, chains := [], segments := [],
        truncated := false, folded := true } }
    if s1.isLead ∨ s1.isDeputy then s1.teamPositions.foldl (fun s p => s.openChain first p) s1 else s1

/-- The segment of a position that is being played now reaches one step further. -/
def extendSegments (position : Nat) (step : W64) (l : List Segment) : List Segment :=
  l.map fun g => if g.position = position ∧ g.last + 1 = step then { g with last := step } else g

/-- A STEP_DIGEST at the lead or the deputy: the next step of the position's chain. -/
def Security.digestTaken (x : Security) (position : Nat) (step : W64) (sd : List Byte) : Security :=
  match x.chains.get position [] with
  | (t, c) :: l =>
    if step = t + 1 then
      { x with chains := x.chains.set position (((step, chainNext c sd) :: (t, c) :: l).take 1024),
               segments := extendSegments position step x.segments }
    else x
  | [] => x

def execStepDigest (pos : Nat) (poison : Bool) (step : W64) (sd : List Byte) (s : State) : Res :=
  let w0 := BitVec.ofNat 64 (pos % 65536 + (if poison then 65536 else 0))
  let s1 := s.tookMgmt 0x41 ([w0, step] ++ digestWords sd)
  .next (if s1.isLead ∨ s1.isDeputy then { s1 with sec := s1.sec.digestTaken pos step sd } else s1)

/-- CHAIN at a spare: the chain that its segment starts from. -/
def execChain (pos : Nat) (km1 : W64) (c : List Byte) (s : State) : Res :=
  let s1 := s.tookMgmt 0x42 ([BitVec.ofNat 64 pos, km1] ++ digestWords c)
  .next (if s1.recov.takeover.isSome then
    { s1 with sec := { s1.sec with
        spareChain := some (km1, c), runOpen := true, runFirst := km1 + 1, runLast := km1, runChain := c, folded := true } }
  else s1)

/-! ### Folding a step (R458) -/

/-- SD(s) and c(s) of the step that has ended: stored, put in the ring, and sent to the lead and the deputy. -/
def State.fold (s : State) (step : W64) : State :=
  let (sd, p) := s.stepDigest step
  let s1 := s.outputs.foldl (fun s e =>
    let x := s.outSpan e step.toNat
    s.hbmTouch x.1 x.2 true) s
  let c := chainNext s1.sec.runChain sd
  let s2 := { s1 with sec := { s1.sec with
      runChain := c, runLast := step, ring := s1.sec.ring.set (step.toNat % 1024) (step, sd, c), folded := true } }
  let words := [BitVec.ofNat 64 (s2.position + (if p then 65536 else 0)), step] ++ digestWords sd
  ((s2.leadPos.toList ++ s2.deputyPos.toList).eraseDups).foldl (fun s d => s.sendMgmt d 0x41 words) s2

end Sys2Proof.Machine
end

