-- ==== Sys2Proof/Machine/Team.lean ====
section
/-! DEFINITION. Base camp's part in a step, its reports, and the halt of a team on each of its chips (R120, R158, R342 to R347,
R508). -/

namespace Sys2Proof.Machine

open Sys2Proof

/-! ### Entries and reports (R342, R370, R373) -/

/-- An entry in a state, written down and reported to the lead. -/
def State.notifyAs (s : State) (cls st : Nat) (step place : W64) : State :=
  let e := s.entry cls st (s.selfId.getD 0 % 65536) step place
  let s1 := s.record e
  match s1.leadPos with
  | some l => s1.sendMgmt l 0x02 e.words
  | none => s1

/-- An entry that is only reported to the lead, which writes it down as its own action. -/
def State.tell (s : State) (cls st : Nat) (step place : W64) : State :=
  match s.leadPos with
  | some l => s.sendMgmt l 0x02 (s.entry cls st (s.selfId.getD 0 % 65536) step place).words
  | none => s

/-- An entry that is only written down. -/
def State.noteAs (s : State) (cls st : Nat) (step place : W64) : State :=
  s.record (s.entry cls st (s.selfId.getD 0 % 65536) step place)

/-- A place as the word of an entry. -/
def placeWord (p : Place) : W64 := BitVec.ofNat 64 (Place.word p)

/-- A run of several positions without a team configuration has no lead (R508). -/
def State.solo (s : State) : Bool :=
  match s.image with
  | some m => s.recov.team.isNone && decide (1 < m.positions)
  | none => false

/-! ### Repeated detections (R347) -/

/-- A detection at a place: one that an earlier run of the step had at the same physical tile names the repair candidate. -/
def State.detectAt (s : State) (p : Place) : State :=
  let s1 := { s with recov := { s.recov with detected := s.recov.detected ++ [p] } }
  match Place.tile? p with
  | none => s1
  | some t =>
    if !(s1.recov.candValid && decide (s1.recov.cand = t)) ∧ (s1.recov.detectedBefore.any fun q => decide (Place.tile? q = some t)) then
      ({ s1 with recov := { s1.recov with candValid := true, cand := t } }).notifyAs 14 1 s1.step
        (BitVec.ofNat 64 (t * 2 ^ 56))
    else s1

/-- The logical unit of HBM whose stored place is given. -/
def State.unitOf (s : State) (d : Nat) (r : HRow) (u : Nat) : Option Nat :=
  (s.hbm.map.find? fun e => decide (e.1 % 4 = d) && entMapped e.2 &&
    (decide (entRow e.2 = r) || (decide (entState e.2 = 2) && decide (entDst e.2 = r)))).map fun e => e.1 * 8192 + u

/-- Units stored poisoned are kept for R346. -/
def State.keepUnit (s : State) (p : Place) : State :=
  match p with
  | .hbm d st c r u =>
    match s.unitOf d ⟨st, c, r⟩ u with
    | some k => { s with recov := { s.recov with poisonUnits := s.recov.poisonUnits ++ (if k ∈ s.recov.poisonUnits then [] else [k]) } }
    | none => s
  | _ => s

/-! ### The team halt on a chip (R344, R346) -/

/-- The place of an offset in an array of `len` bytes from field `f` (R319). -/
def inArray (f len off : Nat) : Bool :=
  decide (f ≤ off) && decide ((off - f) % 2 ^ 21 < 2 ^ 19)
    && decide ((off - f) / 2 ^ 21 * 2 ^ 19 + (off - f) % 2 ^ 21 < len)

/-- The arrays of a descriptor in a set: field and bytes. -/
def State.arraysOf (s : State) (d : UpdDesc) (set : Nat) : List (Nat × Nat) :=
  let n := s.updParams d
  let enc (f fs : Nat × Nat) (fmt : W32) : List (Nat × Nat) :=
    [(setField f set, n * elemBits s.formats (fmtCode fmt) / 8),
     (setField fs set, match scaleBlock s.formats (fmtCode fmt) with
       | some b => n / b
       | none => 0)]
  (setField d.master set, 4 * n) :: (enc d.m d.ms d.mfmt ++ enc d.v d.vs d.vfmt ++
    (if d.wcopy then enc d.w d.ws d.wfmt else []))

/-- Whether an offset lies in an update array of the set that a step reads, or of the one it writes. -/
def State.inReadSet (s : State) (step off : Nat) : Bool :=
  s.upds.any fun d => (s.arraysOf d (d.readSet step)).any fun a => inArray a.1 a.2 off
def State.inWriteSet (s : State) (step off : Nat) : Bool :=
  s.upds.any fun d => (s.arraysOf d (d.writeSet step)).any fun a => inArray a.1 a.2 off

/-- The CONST section of HBM_INIT that covers a unit. -/
def State.constOver (s : State) (off : Nat) : Option Section :=
  s.image.bind fun m => m.sections.find? fun x =>
    x.applies m.position && decide (x.typ = 8) && decide (x.dflags = 1) && decide (leAt x.data 0 8 < off + 64)
      && decide (off < leAt x.data 0 8 + (x.data.length - 8))

/-- The part of a section's data that lies in a unit: its offset and bytes. -/
def constPart (x : Section) (off : Nat) : Nat × List Byte :=
  let b := leAt x.data 0 8
  let lo := Nat.max off b
  (lo, slice x.data (8 + (lo - b)) (off + 64 - lo))

/-- Whether a unit is still stored poisoned. -/
def State.unitBad (s : State) (k : Nat) : Bool := (s.unitValue k).poison

/-- What base camp can do about a unit at once: a CONST section's data is written again. -/
def State.mendUnit (s : State) (k : Nat) : State :=
  let off := 64 * k
  if !s.unitBad k ∨ s.inReadSet s.step.toNat off ∨ s.inWriteSet s.step.toNat off then s
  else
    match s.constOver off with
    | some x =>
      let (lo, b) := constPart x off
      s.hbmWrite lo (b.map fun y => (y, false)) false
    | none => s

/-- The units that need this position's own cairn and log, and those that need the host. -/
def State.cairnUnits (s : State) : List Nat :=
  s.recov.poisonUnits.filter fun k => s.unitBad k && s.inReadSet s.step.toNat (64 * k)
def State.hostUnits (s : State) : List Nat :=
  s.recov.poisonUnits.filter fun k =>
    s.unitBad k && !(s.inReadSet s.step.toNat (64 * k)) && !(s.inWriteSet s.step.toNat (64 * k))

/-- The first tag that a restoring chip asks for: that of the cairn before the current one (log 31). -/
def firstTag (every k : Nat) : W64 := BitVec.ofNat 64 (k / Nat.max 1 every * every - every)

/-- FETCH to every holder of this position. -/
def State.sendFetch (s : State) (chip chunkOff logOff : Nat) : State :=
  let every := (s.image.map Image.cairnEvery).getD 64
  let words := [BitVec.ofNat 64 s.position, BitVec.ofNat 64 chip, BitVec.ofNat 64 chunkOff, BitVec.ofNat 64 logOff,
    firstTag every s.recov.recStep.toNat]
  let s1 := { s with recov := { s.recov with staging := some (chunkOff, logOff) } }
  (s1.holdersOf s1.position).foldl (fun s h => s.sendMgmt h 0x05 words) s1

/-- Units stored poisoned are resolved before a restart (R346): from a CONST section, from the cairn, or by the host. The lead
waits from an entry of class 2 in state queued to the same entry in state done. -/
def State.resolveUnits (s : State) : State :=
  let s0 := s.recov.poisonUnits.foldl State.mendUnit s
  let s1 := if s0.hostUnits.isEmpty then s0 else (s0.enter .halted .hbm s0.step).notifyAs 2 5 s0.step 0
  if !s0.cairnUnits.isEmpty then
    if s1.holdersOf s1.position = [] then s1.tell 16 1 s1.step 0
    else
      let (v, s2) := s1.fresh
      let base := v % 2 ^ 20 * 2 ^ 19
      (s2.sendFetch (s2.nodeId.getD 0) base (base + 2 ^ 40)).notifyAs 2 0 s2.step 0
  else if s0.hostUnits.isEmpty then { s1 with recov := { s1.recov with poisonUnits := [] } }
  else s1

/-- At the switch leg of a halt the chip's tiles, reductions, updates and log go back to the start of step K. -/
def State.haltTiles (s : State) : State :=
  let s1 := s.blockResetAll ((List.range 200).map fun n => ⟨1, n⟩)
  let s2 := (List.range 4).foldl (fun s d => (s.clearReductions d).modDepot d Depot.clearUnits) s1
  let k := s2.recov.recStep
  let r := s2.recov
  { s2 with
    net := [], redBlocks := [], redHeld := [], updDone := [], step := k, arrived := false, stepReleases := 0, rowsDue := [],
    reports := [], reportsNext := [],
    recov := { r with
      halted := true, streamInFlight := [],
      log := r.log.filter fun e => decide (e.2.1.toNat < k.toNat),
      logWaiting := r.logWaiting.filter fun e => decide (e.step < k.toNat) } }

/-- The same, then the units that R346 names. -/
def State.teamHalt (s : State) : State := s.haltTiles.resolveUnits

/-- A chip accepts a halt at K: the state it goes to is that of the halt's reason. -/
def State.acceptHalt (s : State) (k : W64) (d : DevSt) (r : Reason) : State :=
  let s1 := { s with recov := { s.recov with
      haltPosted := true, halted := false, startPosted := false, recStep := k, halts := s.recov.halts + 1, phase := 1 } }
  if s1.dev = .faulted then s1 else s1.enter d r k

/-- The halt of a device without a lead: its own tiles, at once (R508). -/
def State.stopSolo (s : State) : State :=
  let s1 := s.noteAs 16 5 s.step 0
  let r := s1.recov
  let s2 := { s1 with recov := { r with haltPosted := true, recStep := s1.step, halts := r.halts + 1, phase := 5 } }
  (s2.haltTiles).enter .faulted .none s2.step

/-! ### What base camp hears (R120, R342, R343) -/

/-- A poison report is taken down for the step: absorbed while a halt stands, where a unit stored poisoned is resolved with
the others before START, and for the next step once base camp has arrived. -/
def State.takeReport (s : State) (r : PReport) : State :=
  let cls := Place.cls r.place
  let w := placeWord r.place
  let s0 := s.keepUnit r.place
  if s.recov.haltPosted then
    let s1 := s0.noteAs cls 3 s.step w
    if cls = 2 ∧ s1.recov.halted ∧ s1.recov.takeover.isNone then s1.resolveUnits else s1
  else if s.recov.startPosted ∧ cls ≠ 2 then s0.noteAs cls 3 s.step w
  else if s.solo then (s0.noteAs cls 1 s.step w).stopSolo
  else if s.arrived then
    ({ s0 with reportsNext := s0.reportsNext ++ [r] }.noteAs cls 1 (s.step + 1) w)
  else (({ s0 with reports := s0.reports ++ [r] }).noteAs cls 1 s.step w).detectAt r.place

def execPoisonReport (r : PReport) (s : State) : Res :=
  .next (if r ∈ s.reportsOut then ({ s with reportsOut := s.reportsOut.erase r }).takeReport r else s)

/-- The class of a tile's FAULT, by its flags. -/
def Tile.faultCls (t : Tile) : Nat := if t.shown.imemParity then 5 else if t.shown.syncWdogSy || t.shown.syncWdogToll then 6 else 7

/-- The logical tile and bundle at which a watchdog stopped a tile. -/
def State.stopPlace (s : State) (n : Nat) : Nat × Nat :=
  ((s.logicalOf n).getD 0, (s.tile n).half.toNat * 4096 + (s.tile n).lastPc.toNat)

/-- A tile has entered FAULT: the lead hears of it at once; a watchdog at the same bundle as in the run before is the program's
fault (R347). -/
def State.takeFault (s : State) (n : Nat) : State :=
  let cls := (s.tile n).faultCls
  let w := BitVec.ofNat 64 (n * 2 ^ 56)
  if s.recov.haltPosted ∨ s.recov.startPosted then s.noteAs cls 3 s.step w
  else if s.solo then (s.noteAs cls 1 s.step w).stopSolo
  else if cls = 5 then
    let s1 := s.detectAt (.control n)
    ({ s1 with recov := { s1.recov with phase := 1 } }).notifyAs cls 1 s1.step w
  else
    let at_ := s.stopPlace n
    let s1 := { s with recov := { s.recov with wdogAt := s.recov.wdogAt ++ [at_], phase := 1 } }
    if at_ ∈ s.recov.wdogBefore then (s1.noteAs cls 1 s.step w).tell 15 1 s.step w else s1.notifyAs cls 1 s.step w

def execTileFault (n : Nat) (s : State) : Res :=
  .next (if n ∈ s.faultsOut then ({ s with faultsOut := s.faultsOut.erase n }).takeFault n else s)

/-- Whether every other participant of the step-end belay has arrived. -/
def State.othersArrived (s : State) : Bool :=
  match s.image with
  | some m =>
    let g := s.gsem m.stepBelay
    decide (g.mode = .belay) && !g.overrun && !g.fwd && decide (g.value + 1 = g.count)
  | none => false

/-- Base camp arrives, or notifies the lead where a report of the step exists. -/
def execBaseCampArrival (s : State) : Res :=
  .next (match s.image with
    | none => s
    | some m =>
      if !s.othersArrived ∨ s.arrived ∨ s.recov.haltPosted ∨ s.recov.phase ≠ 0 ∨ !s.sec.folded then s
      else if !s.reports.isEmpty then
        if s.dev = .running then
          s.reports.foldl (fun s r => s.tell (Place.cls r.place) 1 s.step (placeWord r.place))
            { s with recov := { s.recov with phase := 1 } }
        else s
      else ({ s with arrived := true, bcTag := s.bcTag + 1 }).agentArrive 6 0 m.position m.stepBelay s.bcTag.toNat)

/-! ### The end of a step (R21, R158, R206, R358, R458) -/

/-- SLIP_STEP of a tile as the step ends. -/
def Tile.latchSlip (t : Tile) : Tile :=
  let h := t.holdWait + t.holdBoundary
  { t with slipStep := h - t.slipBase, slipBase := h }

/-- The step counter goes on: the fold, the events, the log and a cairn that begins. -/
def State.endStep (s : State) : State :=
  let k := s.step
  let every := (s.image.map Image.cairnEvery).getD 64
  let s1 := { s with
    step := k + 1, arrived := false, stepReleases := s.stepReleases - 1,
    tiles := s.tiles.map fun (x : Nat × Tile) => (x.1, x.2.latchSlip),
    reports := s.reportsNext, reportsNext := [],
    recov := { s.recov with
      detected := s.reportsNext.map PReport.place, detectedBefore := [], wdogAt := [], wdogBefore := [], starts := 1,
      poisonUnits := if s.reportsNext.isEmpty then [] else s.recov.poisonUnits } }
  let s2 := ((s1.fold k).finalLog k).raise 2 (beBytes 8 (k + 1).toNat)
  if s2.step.toNat % every = 0 then s2.beginCairn s2.step else s2

def execStepEnd (s : State) : Res :=
  .next (if 0 < s.stepReleases ∧ s.arrived ∧ (!s.recov.haltPosted ∨ s.step.toNat < s.recov.recStep.toNat) then s.endStep else s)

end Sys2Proof.Machine
end

