-- ==== Sys2Proof/Machine/Lead.lean ====
section
/-! DEFINITION. The halt and the restart of a team: what the lead posts and what each chip does (R339, R344 to R347, R369). -/

namespace Sys2Proof.Machine

open Sys2Proof

/-! ### Who is told (R337, R369) -/

/-- The chip that plays a position: the spare that took it, else its own. -/
def State.deviceOf (s : State) (p : Nat) : Nat :=
  match s.recov.spareUse.find? fun x => decide (x.1 = p) with
  | some x => spareId x.2
  | none => p

/-- The other devices of the team: the live positions, and the spares that play or restore a lost one. -/
def State.teamDevices (s : State) : List Nat :=
  ((s.teamPositions.filter fun p => decide (p ∉ s.recov.lost) || s.recov.spareUse.any fun x => decide (x.1 = p)).map
    s.deviceOf).filter fun i => !s.isSelf i

/-- The team of a position by the chip map, and the lowest positions of the other teams of the run, lowest team first. -/
def State.teamAt (s : State) (p : Nat) : Nat := ((s.chipmap.node? p).map Node.team).getD 0
def State.otherTeams (s : State) : List Nat :=
  match s.image with
  | some m => sortNats ((((List.range m.positions).map s.teamAt).eraseDups).filter fun t => decide (t ≠ s.teamNo))
  | none => []
def State.firstOf (s : State) (team : Nat) : Option Nat :=
  s.image.bind fun m => (List.range m.positions).find? fun p => decide (s.teamAt p = team)
def State.otherLeads (s : State) : List Nat := if s.recov.team.isSome then s.otherTeams.filterMap s.firstOf else []

/-- The lead of the run's lowest-numbered team, where that is another chip. -/
def State.mainLead (s : State) : Option Nat :=
  if s.recov.team.isNone then none
  else match s.otherTeams with
    | t :: _ => if t < s.teamNo then s.firstOf t else none
    | [] => none

/-- ROLE and the security block's lead bit (R374). -/
def State.setRole (s : State) : State :=
  let role := match s.recov.team with
    | some t => if t.spare ∧ s.image.isNone then 4 else if s.isLead then 3 else if s.isDeputy then 2 else 1
    | none => if s.isLead then 3 else 0
  { s with recov := { s.recov with role := role }, sec := { s.sec with lead := s.isLead } }

/-- A message of the lead from a position: the positions below it are lost (R339). -/
def State.heardLead (s : State) (p : Option Nat) : State :=
  match p with
  | some q =>
    if q ∈ s.teamPositions then
      let below := s.teamPositions.filter fun x => decide (x < q) && decide (x ∉ s.recov.lost)
      ({ s with recov := { s.recov with lost := s.recov.lost ++ below } }).setRole
    else s
  | none => s

/-! ### Posting a halt (R344, R369) -/

/-- What the lead waits for before START: a position and the class of its open entry. -/
def State.waitOn (s : State) (p cls : Nat) : State :=
  if (p, cls) ∈ s.recov.waits then s else { s with recov := { s.recov with waits := s.recov.waits ++ [(p, cls)] } }
def State.waitOff (s : State) (p cls : Nat) : State :=
  { s with recov := { s.recov with waits := s.recov.waits.erase (p, cls) } }

/-- The switch instant that base camp chooses: at least 2 ms ahead and within the bound of R344. -/
def State.switchInstant (s : State) : Nat × State :=
  let (v, s1) := s.fresh
  (s1.now + 2000000 + v % 40000000, s1)

/-- HALT at K and the flush switch to ALT 255. The leads of the other teams of the run hear of it too; the lead of the lowest
team then waits for each of them. -/
def State.postHalt (s : State) (k : W64) (d : DevSt) (r : Reason) (others : Bool) : State :=
  let (instant, s1) := s.switchInstant
  let words := [BitVec.ofNat 64 s1.teamNo, k, BitVec.ofNat 64 instant]
  let s2 := (s1.teamDevices ++ (if others then s1.otherLeads else [])).foldl (fun s x => s.sendMgmt x 0x03 words) s1
  let s3 := if s2.mainLead.isNone then s2.otherLeads.foldl (fun s p => s.waitOn p 0) s2 else s2
  (s3.acceptHalt k d r).postSwitch 255 true instant

/-- The run stops: the team is halted and its devices go to FAULTED (R347, R360, R369). -/
def State.stopRun (s : State) (cls : Nat) : State :=
  let e := s.entry cls 5 (s.selfId.getD 0 % 65536) s.step 0
  let s1 := s.teamDevices.foldl (fun s x => s.sendMgmt x 0x02 e.words) (s.record e)
  let s2 := if s1.recov.haltPosted then s1 else s1.postHalt s1.step .faulted .none true
  let s3 := s2.enter .faulted .none s2.step
  { s3 with recov := { s3.recov with phase := 5 } }

/-! ### Posting a start (R345, R460) -/

/-- The ALT of the restart: the case of the position restored last, else the table in force. -/
def State.restartAlt (s : State) : Nat :=
  match s.recov.restoredFrom.getLast? with
  | some p =>
    match s.chipmap.cases.find? fun c =>
        decide (c.kind = 2) && decide (c.position = p) && decide ((p, c.sub) ∈ s.recov.spareUse) with
    | some c => c.alt
    | none => s.recov.runAlt
  | none => s.recov.runAlt

/-- The segment of the spare that takes over a position at K, and c(K − 1): the spare's identity is not known here (log 30). -/
def State.takeoverSegment (s : State) (p : Nat) : List Byte × State :=
  let k := s.recov.recStep
  let (c, s1) := match (s.sec.chains.get p []).find? fun x => decide (x.1 + 1 = k) with
    | some x => (x.2, s)
    | none => s.freshDigest
  let (dev, s2) := s1.freshDigest
  let (fw, s3) := s2.freshDigest
  let (bind, s4) := s3.freshDigest
  (c, { s4 with sec := s4.sec.addSegment ⟨p, dev, fw, bind, k, k - 1, c, true⟩ })

/-- CHAIN for K − 1 to a spare, and its segment (R460). -/
def State.sendChain (s : State) (p : Nat) : State :=
  let (c, s1) := s.takeoverSegment p
  s1.sendMgmt (s1.deviceOf p) 0x42 ([BitVec.ofNat 64 p, s1.recov.recStep - 1] ++ digestWords c)

/-- The position that the case of an ALT restores, where the restart takes that case. -/
def State.casePosition (s : State) (alt : Nat) : Option Nat :=
  if alt = s.recov.runAlt then none
  else (s.chipmap.cases.find? fun c => decide (c.kind = 2) && decide (c.alt = alt)).map FailCase.position

/-- A lost holder's stripes went with it: the owner's chunks there are streamed anew (R365). -/
def State.refillFor (s : State) (alt : Nat) : State :=
  match s.casePosition alt with
  | some p =>
    let s1 := if s.isDeputy then (s.takeoverSegment p).2 else s
    if p ∈ s1.holdersOf s1.position then
      let gone (q : Nat) : Bool := decide (s1.holderOf q = some p)
      { s1 with recov := { s1.recov with
          refill := (List.range s1.chunkCount).any gone, ackTag := s1.recov.ackTag.filter fun x => !gone x.1,
          freeAt := SMap.erase s1.recov.freeAt p } }
    else s1
  | none => s

/-- What a chip does before the start instant of a restart. -/
def State.acceptStart (s : State) (alt : Nat) (start : Nat) : State :=
  match s.image with
  | none => s
  | some m =>
    let k := s.recov.recStep
    let s1 := if s.dev = .halted then s.enter .recovering .none k else s
    let rerun := decide (alt = s1.recov.runAlt) && s1.recov.takeover.isNone && s1.recov.staging.isNone
    let s2 := (s1.refillFor alt).placeProgram m k
    let s3 := s2.resumeCairn
    let r := s3.recov
    let s4 : State := { s3 with
      startAt := BitVec.ofNat 64 start, rowsDue := List.range m.rows,
      recov := { r with
        startPosted := true, haltPosted := false, halted := false, phase := 4, staging := none, poisonUnits := [],
        detectedBefore := r.detected, detected := [], wdogBefore := r.wdogAt, wdogAt := [],
        reruns := r.reruns + (if rerun then 1 else 0) } }
    s4.recov.resumeReply.foldl (fun s x => s.respond x.1 x.2 0 0 (beBytes 8 k.toNat)) { s4 with recov := { s4.recov with resumeReply := [] } }

/-- START, with the switch to the table of the restart. -/
def State.postStart (s : State) (given : Option Nat) : State :=
  let (v, s1) := s.fresh
  let s2 := s1.recov.restoredFrom.foldl State.sendChain s1
  let alt := s2.restartAlt
  let sw := s2.now + 2000000 + v % 1000000
  let start := Nat.max (sw + 1000000) (given.getD (sw + 1000000 + v / 2 ^ 32 % 1000000))
  let words (team : Nat) : List W64 :=
    [BitVec.ofNat 64 (team + alt * 2 ^ 16), s2.recov.recStep, BitVec.ofNat 64 sw, BitVec.ofNat 64 start]
  let s3 := s2.teamDevices.foldl (fun s x => s.sendMgmt x 0x09 (words s.teamNo)) s2
  let s4 := if s3.mainLead.isNone ∧ s3.recov.team.isSome then s3.otherTeams.foldl (fun s t => match s.firstOf t with
    | some p => s.sendMgmt p 0x09 (words t)
    | none => s) s3 else s3
  (s4.postSwitch alt true sw).acceptStart alt start

/-- Whether nothing stands in the way of the restart. -/
def State.canStart (s : State) : Bool :=
  (s.isLead || s.solo) && s.recov.haltPosted && s.recov.halted && !s.recov.startPosted && !s.recov.hostHalt && decide (s.dev = .recovering)
    && decide (s.recov.waits = []) && decide (s.recov.phase ≠ 5)

/-- The lead restarts the team once it can; the lead of another team tells that of the lowest one, which chooses the start
instant of all (R369). A step started four times stops the run (R347). -/
def State.tryStart (s : State) : State :=
  if s.canStart then
    if 4 ≤ s.recov.starts then s.stopRun 15
    else match s.mainLead with
      | none => s.postStart none
      | some l =>
        if s.recov.phase = 4 then s
        else ({ s with recov := { s.recov with phase := 4 } }).sendMgmt l 0x08
          [BitVec.ofNat 64 s.position, s.recov.recStep]
  else s

/-! ### The records at each chip -/

/-- The state that a halt puts a chip in, where its record does not say why it was posted (log 32). -/
def State.haltState (s : State) : (DevSt × Reason) × State :=
  if s.recov.hostHalt then ((.halted, .host), s)
  else
    let (v, s1) := s.fresh
    (if v % 2 = 0 then (.recovering, .none) else (.halted, .host), s1)

/-- Answers to HALT commands that waited for the halt (R441). -/
def State.answerHalts (s : State) (k : W64) : State :=
  s.recov.haltReply.foldl (fun s x => s.respond x.1 x.2 0 0 (beBytes 8 k.toNat))
    { s with recov := { s.recov with haltReply := [] } }

/-- HALT of the host at the lead (R441): in RECOVERING it takes the place of the coming START record. -/
def State.leadHalt (s : State) : State :=
  if s.dev = .halted ∨ s.dev = .faulted then s
  else
    let s1 := { s with recov := { s.recov with hostHalt := true } }
    if s1.recov.haltPosted then
      let words := [BitVec.ofNat 64 s1.teamNo, s1.recov.recStep, s1.stamp]
      ((s1.teamDevices.foldl (fun s x => s.sendMgmt x 0x03 words) s1).enter .halted .host s1.recov.recStep).answerHalts
        s1.recov.recStep
    else (s1.postHalt s1.step .halted .host true).answerHalts s1.step

/-- RESUME at the lead (R346, R441): the units that the host was to write are looked at again. -/
def State.leadResume (s : State) : State :=
  if s.dev = .halted ∧ (s.reason = .host ∨ s.reason = .hbm) then
    let left := s.recov.waits.filter fun x => decide (x.2 ≠ 16)
    let s1 := ({ s with recov := { s.recov with hostHalt := false, waits := left } }).enter .recovering .none s.recov.recStep
    (if s1.recov.halted then s1.resolveUnits else s1).tryStart
  else s

/-- A HALT record: of the lead, which halts this chip; of a device, which passes its host's HALT to this lead; or of another
team's lead. -/
def State.takeHalt (s : State) (team : Nat) (k : W64) : State :=
  if s.image.isNone ∨ s.dev = .ready then s
  else if team = s.teamNo then
    if s.isLead then s.leadHalt
    else
      let (d, s1) := s.haltState
      (if s1.recov.haltPosted ∧ s1.recov.halted ∧ s1.recov.recStep = k then s1.enter d.1 d.2 k
        else s1.acceptHalt k d.1 d.2).answerHalts k
  else if s.isLead ∧ !s.recov.haltPosted then s.postHalt k .recovering .none false
  else s

def execHaltRecord (team : Nat) (k : W64) (instant : Nat) (s : State) : Res :=
  let words := [BitVec.ofNat 64 team, k, BitVec.ofNat 64 instant]
  let from_ := s.mgmtFrom 0x03 words
  .next ((((s.tookMgmt 0x03 words).heardLead (if team = s.teamNo then from_ else none))).takeHalt team k)

/-- A START record: of the lead, of a device that passes its host's RESUME to this lead, or of the lead that chooses the
start instant of all teams. -/
def State.takeStart (s : State) (alt start : Nat) (mine : Bool) : State :=
  if s.isLead then (if mine then s.leadResume else s.postStart (some start)) else s.acceptStart alt start

def execStartRecord (team alt : Nat) (k : W64) (swInstant startInstant : Nat) (s : State) : Res :=
  let words := [BitVec.ofNat 64 (team + alt * 2 ^ 16), k, BitVec.ofNat 64 swInstant, BitVec.ofNat 64 startInstant]
  let from_ := s.mgmtFrom 0x09 words
  let mine := match from_ with
    | some p => decide (p ∈ s.teamPositions)
    | none => true
  .next (if team ≠ s.teamNo ∨ s.image.isNone then s.tookMgmt 0x09 words
    else if s.recov.haltPosted ∧ s.recov.halted ∧ s.recov.recStep = k then
      (s.tookMgmt 0x09 words).takeStart alt startInstant mine
    else s)

/-! ### The switch leg (R281, R344) -/

def execSwitchLeg (s : State) : Res :=
  .next (match s.switchDue with
    | some r =>
      let s1 := s.applySwitch r
      if r.alt = 255 ∧ r.flush ∧ s1.recov.haltPosted ∧ !s1.recov.halted then s1.teamHalt.tryStart else s1
    | none => s)

/-! ### The start of a program (R192, R290, R342, R350) -/

/-- A tile that starts: bundle 0 of half 0. -/
def Tile.startRun (t : Tile) : Tile :=
  if t.st = .idle then { t with st := .run, pc := 0, half := false, ctl := .seq } else t

/-- The mapped tiles of a row. -/
def State.mappedInRow (s : State) (r : Nat) : List Nat := s.tileMap.filter fun n => decide (n / 25 = r)

/-- The program has started: the ports take their primary tables at the next leg boundary (R290). -/
def State.armPrimary (s : State) : State :=
  { s with cv := { s.cv with primary := if s.cv.primary = 1 then 2 else s.cv.primary } }

/-- A boundary queue at program start: empty, its counters and MAX_DEPTH restarted (R216, R242, R247). -/
def BQueue.start (q : BQueue) : BQueue := { stuck := q.stuck }

/-- The first row of a start: the counts of the step's starts, the device state, and the cairn of a first step. -/
def State.firstRow (s : State) : State :=
  let freshRun := decide (s.dev = .running)
  let spare := s.recov.takeover.isSome
  let every := (s.image.map Image.cairnEvery).getD 64
  let s0 := if freshRun then { s with rows := s.rows.map fun (x : Nat × Row) => (x.1, { x.2 with tokenOver := 0, tokenMax := 0 }) }
    else s
  let s1 := { s0.armPrimary with bqs := s0.bqs.map fun (x : Nat × BQueue) => (x.1, x.2.start) }
  let r := s1.recov
  let s2 := { s1 with recov := { r with starts := r.starts + 1 } }
  let s3 := if s2.recov.haltPosted then s2
    else ({ s2 with recov := { s2.recov with startPosted := false, phase := 0, takeover := none, restoredFrom := [] } }).enter .running .none s2.step
  if freshRun ∨ (spare ∧ s3.step.toNat % every = 0) then s3.beginCairn s3.step else s3

def State.startRow (s : State) (r : Nat) : State :=
  match s.image with
  | none => s
  | some m =>
    let first := decide (s.rowsDue.length = m.rows)
    let s1 := if first then s.firstRow else s
    let s2 := (s1.mappedInRow r).foldl (fun s n => s.modTile n Tile.startRun) s1
    { s2 with rowsDue := s2.rowsDue.erase r }

def execProgramStart (r : Nat) (s : State) : Res :=
  .next (if r ∈ s.rowsDue ∧ s.startAt.toNat ≤ s.now then s.startRow r else s)

end Sys2Proof.Machine
end

