-- ==== Sys2Proof/Machine/Report.lean ====
section
/-! DEFINITION. Heartbeats, reports at the lead, and the loss of a position (R336, R339, R342, R346 to R348, R359 to R361,
R367 to R371). -/

namespace Sys2Proof.Machine

open Sys2Proof

/-! ### Heartbeats (R339, R371, R372) -/

/-- 10 ms of GTC and the 50 ms of R359, in nanoseconds. -/
def beatPeriod : Nat := 10000000
def beatLimit : Nat := 50000000

/-- When the last heartbeat of a sender came; before any, when the run started. -/
def State.lastBeat (s : State) (sender : W64) : Nat :=
  match s.recov.beats.find? fun b => decide (b.1 = sender) with
  | some b => Nat.max b.2.2.toNat s.startAt.toNat
  | none => s.startAt.toNat

/-- The senders that the lead and the deputy expect: live positions and spares, without this chip. -/
def State.expectedBeats (s : State) : List W64 :=
  (((s.teamPositions.filter fun p => decide (p ∉ s.recov.lost)).map fun p => BitVec.ofNat 64 p) ++
    (s.teamSpares.filter fun n => decide (n ∉ s.recov.spareGone) && !(s.recov.spareUse.any fun x => decide (x.2 = n))).map
      fun n => BitVec.ofNat 64 (2 ^ 63 + n)).filter fun w => decide (w ≠ s.senderWord)

/-- Expected heartbeats that have not come within a period. -/
def State.missedBeats (s : State) : Nat :=
  if s.recov.team.isSome ∧ (s.isLead ∨ s.isDeputy) ∧ s.dev = .running then
    (s.expectedBeats.filter fun w => decide (s.lastBeat w + beatPeriod < s.now)).length
  else 0

def execHeartbeatSend (s : State) : Res :=
  let words := [s.senderWord, s.step, s.stamp]
  let s1 := { s with recov := { s.recov with hbMisses := s.recov.hbMisses + BitVec.ofNat 64 s.missedBeats } }
  .next (if s1.recov.team.isNone then s1
    else ((s1.leadPos.toList ++ s1.deputyPos.toList).filter fun p => !s1.isSelf p).foldl
      (fun s p => s.sendMgmt p 0x01 words) s1)

/-- A heartbeat is kept with its step counter and the time at which it came. -/
def execHeartbeat (sender step gtc : W64) (s : State) : Res :=
  let s1 := s.tookMgmt 0x01 [sender, step, gtc]
  .next (if s1.isLead ∨ s1.isDeputy then
    { s1 with recov := { s1.recov with
        beats := (sender, step, s1.stamp) :: s1.recov.beats.filter fun b => decide (b.1 ≠ sender) } }
  else s1)

def execMirror (e : LedgerEntry) (s : State) : Res :=
  let s1 := s.tookMgmt 0x0A e.words
  let kept := (s1.recov.mirror ++ [e]).drop (s1.recov.mirror.length + 1 - 1024)
  .next (if s1.isDeputy then { s1 with recov := { s1.recov with mirror := kept } } else s1)

/-! ### The loss of a position (R359 to R361, R369) -/

/-- The positions that the recovery under way restores. -/
def State.restoring (s : State) : List Nat :=
  ((s.recov.waits.filter fun x => decide (x.2 = 11)).map Prod.fst ++ s.recov.restoredFrom).eraseDups

/-- A spare that the lead can use: armed and healthy, which its heartbeats say, and not in use. -/
def State.spareFree (s : State) (n : Nat) : Bool :=
  decide (n ∉ s.recov.spareGone) && !(s.recov.spareUse.any fun x => decide (x.2 = n))
    && s.recov.beats.any fun b => decide (b.1 = BitVec.ofNat 64 (2 ^ 63 + n)) && decide (s.now < b.2.2.toNat + beatLimit)

/-- The first position case in chip-map order that names a position and a usable spare (R360). -/
def State.caseFor (s : State) (p : Nat) : Option FailCase :=
  s.chipmap.cases.find? fun c => decide (c.kind = 2) && decide (c.position = p) && s.spareFree c.sub

/-- TAKEOVER to a spare. -/
def State.sendTakeover (s : State) (p alt spare : Nat) : State :=
  s.sendMgmt (spareId spare) 0x04 [BitVec.ofNat 64 p, s.recov.recStep, BitVec.ofNat 64 spare, BitVec.ofNat 64 alt]

/-- The ALT of the case of a position that a spare restores. -/
def State.altOf (s : State) (p spare : Nat) : Nat :=
  ((s.chipmap.cases.find? fun c => decide (c.kind = 2) && decide (c.position = p) && decide (c.sub = spare)).map
    FailCase.alt).getD 0

/-- A position's spare is chosen and takes over. -/
def State.assignSpare (s : State) (p : Nat) (c : FailCase) : State :=
  let use := (s.recov.spareUse.filter fun x => decide (x.1 ≠ p)) ++ [(p, c.sub)]
  (({ s with recov := { s.recov with spareUse := use } }).waitOn p 11).sendTakeover p c.alt c.sub

/-- The spare that restores a position is lost or its load has failed: the next case starts stage 3 again. -/
def State.nextSpare (s : State) (p : Nat) : State :=
  let gone := (s.recov.spareUse.filter fun x => decide (x.1 = p)).map Prod.snd
  let s1 := { s with recov := { s.recov with
      spareGone := s.recov.spareGone ++ gone, spareUse := s.recov.spareUse.filter fun x => decide (x.1 ≠ p),
      restoredFrom := s.recov.restoredFrom.filter fun x => decide (x ≠ p) } }
  match s1.caseFor p with
  | some c => s1.assignSpare p c
  | none => s1.stopRun 16

/-- A second loss before the start instant: every lost position is restored again, each on its own spare. -/
def State.escalate (s : State) (again : List Nat) : State :=
  if again = [] then s
  else
    let s1 := { s with recov := { s.recov with escalations := s.recov.escalations + 1, restoredFrom := [] } }
    again.foldl (fun s p => match s.recov.spareUse.find? fun x => decide (x.1 = p) with
      | some x => (s.waitOn p 11).sendTakeover p (s.altOf p x.2) x.2
      | none => match s.caseFor p with
        | some c => s.assignSpare p c
        | none => s.stopRun 16) s1

/-- The lead's own chip is lost: the deputy hears of it and leads. -/
def State.loseSelf (s : State) (p : Nat) : State :=
  match s.deputyPos with
  | some d => s.sendMgmt d 0x02 (s.entry 11 1 p s.step 0).words
  | none => s.stopRun 16

/-- The lead declares a position lost. -/
def State.declareLost (s : State) (p : Nat) : State :=
  let again := s.restoring
  if !s.isLead ∨ p ∉ s.teamPositions ∨ s.recov.phase = 5 then s
  else if some p = s.image.map Image.position then s.loseSelf p
  else if p ∈ again then s.nextSpare p
  else
    let s0 := (({ s with recov := { s.recov with
        lost := if p ∈ s.recov.lost then s.recov.lost else s.recov.lost ++ [p],
        spareUse := s.recov.spareUse.filter fun x => decide (x.1 ≠ p) } }).setRole)
    let s1 := s0.record (s0.entry 11 1 p s0.step 0)
    if again.any fun q => decide (p ∈ s1.holdersOf q) || decide (q ∈ s1.holdersOf p) then s1.stopRun 16
    else match s1.caseFor p with
      | none => s1.stopRun 16
      | some c =>
        let s2 := s1.postHalt s1.step .recovering .none (!s1.recov.haltPosted)
        (s2.escalate again).assignSpare p c

/-- The positions that the deputy's copy of the ledger gives as lost, and those of them whose restore it does not show as
done. -/
def State.mirroredLost (s : State) : List Nat :=
  (((s.recov.mirror.filter fun e => decide (e.cls = 11)).map LedgerEntry.position).filter fun p =>
    decide (p ∈ s.teamPositions)).eraseDups
def State.mirroredOpen (s : State) : List Nat :=
  if s.dev = .running then []
  else s.mirroredLost.filter fun p =>
    match (s.recov.mirror.filter fun e => decide (e.cls = 11) && decide (e.position = p)).getLast? with
    | some e => decide (e.state ≠ 2)
    | none => false

/-- The spare of the case that the table in force belongs to. -/
def State.spareInForce (s : State) : List (Nat × Nat) :=
  (s.chipmap.cases.filter fun c => decide (c.kind = 2) && decide (c.alt = s.recov.runAlt)).map fun c => (c.position, c.sub)

/-- The deputy leads once the lead is lost, and carries on from its copy of the ledger (R339). -/
def State.promote (s : State) (p : Nat) : State :=
  if s.isDeputy ∧ s.leadPos = some p then
    let r := s.recov
    ({ s with recov := { r with
        lost := (r.lost ++ s.mirroredLost ++ [p]).eraseDups, spareUse := r.spareUse ++ s.spareInForce,
        waits := r.waits ++ s.mirroredOpen.map fun q => (q, 11) } }).setRole
  else s

def execHeartbeatTimeout (pos : Nat) (s : State) : Res :=
  .next (if s.lastBeat (BitVec.ofNat 64 pos) + beatLimit ≤ s.now ∧ s.recov.team.isSome ∧ (s.dev = .running ∨ s.dev = .recovering) then
    (s.promote pos).declareLost pos
  else s)

/-! ### Ports (R359, R367, R368) -/

/-- Whether the ledger, or the copy of it that a former deputy carries on from, holds a failure of a port of a position. -/
def State.portDown (s : State) (position port : Nat) : Bool :=
  (s.recov.ledger.map Prod.snd ++ s.recov.mirror).any fun e =>
    decide (e.cls = 10) && decide (e.position = position) && decide (e.place.toNat % 16 = port)

/-- The cable of a port by the chip map: the peer's chip id and port. -/
def State.cable (s : State) (position port : Nat) : Option (Nat × Nat) :=
  (s.chipmap.node? position).bind fun n => match n.cables[port]? with
    | some (1, pp, q) => some (q, pp)
    | some (2, pp, q) => some (spareId q, pp)
    | _ => none

/-- A port that has failed at either of its ends. -/
def State.linkDown (s : State) (position port : Nat) : Bool :=
  s.portDown position port || (match s.cable position port with
    | some (q, pp) => s.portDown q pp
    | none => false)

/-- The link case of a port or of its partner (R275). -/
def State.linkCase (s : State) (position port : Nat) : Option FailCase :=
  s.chipmap.cases.find? fun c => decide (c.kind = 1) && (decide (c.position = position ∧ c.sub = port) ||
    (match s.cable position port with
      | some (q, pp) => decide (c.position = q ∧ c.sub = pp)
      | none => false))

/-- Whether a port sends scheduled traffic under the table in force. -/
def State.scheduledFrom (s : State) (position port : Nat) : Bool :=
  match s.image with
  | none => false
  | some m =>
    let d := m.bytes 0xA port position 0xFFFF
    let ts := if d = [] then [] else ttablesOf d
    match ts.find? fun t => decide (t.alt = s.recov.runAlt) with
    | some t => t.tx.any fun e => decide (e.cls = 1)
    | none => match ts.find? fun t => decide (t.alt = 0) with
      | some t => t.tx.any fun e => decide (e.cls = 1)
      | none => false

/-- Whether a link carries scheduled traffic, either way. -/
def State.scheduledOn (s : State) (position port : Nat) : Bool :=
  s.scheduledFrom position port || (match s.cable position port with
    | some (q, pp) => decide (q < 2 ^ 19) && s.scheduledFrom q pp
    | none => false)

/-- Whether every port of the team that is cabled to a position has failed. -/
def State.cutOff (s : State) (p : Nat) : Bool :=
  let near := (s.teamPositions.filter fun q => decide (q ≠ p)).flatMap fun q =>
    (List.range 16).filter (fun k => decide ((s.cable q k).map Prod.fst = some p)) |>.map fun k => (q, k)
  decide (near ≠ []) && near.all fun x => s.portDown x.1 x.2

/-- A failed port that no keep switch can mend. -/
def State.linkLost (s : State) (position port : Nat) : State :=
  match s.cable position port with
  | some (q, _) =>
    if 2 ^ 19 ≤ q then { s with recov := { s.recov with spareGone := s.recov.spareGone ++ [q - 2 ^ 19] } }
    else if s.scheduledOn position port then s.declareLost (Nat.max position q)
    else s
  | none => s

def State.portFailed (s : State) (position port : Nat) : State :=
  let peer := (s.cable position port).map Prod.fst
  if position ∈ s.recov.lost ∨ peer.any fun q => decide (q ∈ s.recov.lost) then s
  else match peer.filter s.cutOff with
    | some q => s.declareLost q
    | none =>
      match s.linkCase position port with
      | some c =>
        if (twinOf port).any (s.linkDown position) then s.linkLost position port
        else if s.recov.runAlt = c.alt ∨ s.cv.pending.any (fun r => decide (r.alt = c.alt))
            ∨ s.cv.waiting.any (fun r => decide (r.alt = c.alt)) then s
        else
          let (v, s1) := s.fresh
          s1.postSwitch c.alt false (s1.now + 2000000 + v % 1000000)
      | none => s.linkLost position port

/-! ### Reports at the lead (R342, R346, R348, R369) -/

/-- A poison report or tile FAULT of a step: the team halts and reruns it, or the restart under way absorbs it. -/
def State.rerun (s : State) (e : LedgerEntry) : State :=
  if s.recov.haltPosted ∨ (s.recov.startPosted ∧ s.now < s.startAt.toNat) then s.record { e with stamp := s.stamp, state := 3 }
  else if s.recov.phase ≠ 5 ∧ (s.dev = .running ∨ s.dev = .recovering ∨ (s.dev = .halted ∧ s.reason = .done)) then
    s.postHalt e.step .recovering .none true
  else s

/-- A unit that the host must write: the team stays halted (R346). -/
def State.hostUnit (s : State) (p : Nat) : State :=
  let s1 := s.waitOn p 16
  if s1.dev = .recovering then s1.enter .halted .hbm s1.recov.recStep else s1

/-- What the lead does about an entry. -/
def State.act (s : State) (e : LedgerEntry) : State :=
  let p := e.position
  match e.cls with
  | 2 =>
    if e.state = 0 then s.waitOn p 2
    else if e.state = 2 then (s.waitOff p 2).tryStart
    else if e.state = 5 then s.hostUnit p
    else s.rerun e
  | 1 | 3 | 4 | 5 | 6 | 7 | 17 => s.rerun e
  | 10 => s.portFailed p (e.place.toNat % 16)
  | 11 | 12 | 13 => s.declareLost p
  | 14 => if e.state = 1 then s.waitOn p 14 else if e.state = 2 then (s.waitOff p 14).tryStart else s
  | 15 | 16 => if s.recov.phase ≠ 5 then s.stopRun e.cls else s
  | _ => s

/-- A chip that hears from its lead that the run has stopped. -/
def State.heardStop (s : State) (e : LedgerEntry) : State :=
  if (e.cls = 15 ∨ e.cls = 16) ∧ e.state = 5 ∧ s.image.isSome then
    let s1 := s.enter .faulted .none s.step
    { s1 with recov := { s1.recov with phase := 5 } }
  else s

/-- A spare's own report of a failed port: the spare is unavailable (R368). -/
def State.spareLink (s : State) (from_ : Option Nat) (e : LedgerEntry) : Option State :=
  match from_ with
  | some q =>
    if 2 ^ 19 ≤ q ∧ e.cls = 10 ∧ !(s.recov.spareUse.any fun x => decide (spareId x.2 = q)) then
      some { s with recov := { s.recov with spareGone := s.recov.spareGone ++ [q - 2 ^ 19] } }
    else none
  | none => none

/-- An entry at the lead is written down and acted on; at the deputy, the lead's own loss makes it the lead. -/
def State.heard (s : State) (from_ : Option Nat) (e : LedgerEntry) : State :=
  if s.isLead then
    match s.spareLink from_ e with
    | some s1 => s1.record e
    | none => (if some e.position = s.image.map Image.position then s else s.record e).act e
  else if e.cls = 11 ∧ e.state = 1 ∧ s.isDeputy ∧ s.leadPos = some e.position then
    (s.promote e.position).declareLost e.position
  else s.heardStop e

def execReport (e : LedgerEntry) (s : State) : Res :=
  .next ((s.tookMgmt 0x02 e.words).heard (s.mgmtFrom 0x02 e.words) e)

/-- RESTORED: the lead learns that a position is whole again, or that another team can start. -/
def execRestored (pos : Nat) (k : W64) (s : State) : Res :=
  let s1 := s.tookMgmt 0x08 [BitVec.ofNat 64 pos, k]
  .next (if !s1.isLead ∨ s1.recov.recStep ≠ k then s1
    else if (pos, 11) ∈ s1.recov.waits then
      let s2 := s1.waitOff pos 11
      (({ s2 with recov := { s2.recov with restoredFrom := s2.recov.restoredFrom ++ [pos] } }).record
        (s2.entry 11 2 pos k 0)).tryStart
    else (s1.waitOff pos 0).tryStart)

end Sys2Proof.Machine
end

