-- ==== Sys2Proof/Machine/Restore.lean ====
section
/-! DEFINITION. A spare's takeover, the fetch, the restore with replay and recast, and the repair reload (R330, R346, R348,
R361 to R365). -/

namespace Sys2Proof.Machine

open Sys2Proof

/-! ### Staging: where fetched chunks and log entries lie (log 28, log 33) -/

/-- Where a chunk is staged: its 64-byte head, then its bytes. -/
def State.stageAt (s : State) (chunkOff q : Nat) : Nat := chunkOff + q * s.slotSize

/-- The log bytes of all blocks of a step, and where a block of a step is staged. -/
def State.stagePage (s : State) : Nat := (s.logReds.map fun r => r.nblocks * r.logBytes).foldl (· + ·) 0
def State.stageLog (s : State) (logOff step rid block : Nat) : Nat :=
  logOff + step % s.logSteps * s.stagePage
    + ((s.logReds.filter fun r => decide (r.rid < rid)).map fun r => r.nblocks * r.logBytes).foldl (· + ·) 0
    + ((s.logReds.find? fun r => decide (r.rid = rid)).map fun r => block % r.nblocks * r.logBytes).getD 0

/-! ### TAKEOVER (R359, R361, R362, R433) -/

/-- The spare's recovery state as its rejoin load begins. -/
def Recovery.spareTakes (r : Recovery) (pos : Nat) (k : W64) (alt : Nat) : Recovery :=
  { r with
    takeover := some (pos, k, alt), recStep := k, haltPosted := true, halted := true, startPosted := false, phase := 2,
    prot := true, stream := none, streamInFlight := [], ackTag := [], freeAt := [], dirSlot := [], dirTag := [], ownerFree := [],
    log := [], logWaiting := [], refill := false, poisonUnits := [], detected := [], detectedBefore := [], wdogAt := [],
    wdogBefore := [], starts := 0 }

/-- A rejoin load that fails is written down and reported to the lead (R359, R362). -/
def State.takeoverFails (s : State) (lead : Option Nat) (pos : Nat) (k : W64) : State :=
  let e := s.entry 13 1 pos k 0
  let s1 := { (s.record e) with recov := { (s.record e).recov with takeover := none, phase := 5 } }
  match lead with
  | some l => s1.sendMgmt l 0x02 e.words
  | none => s1

/-- The load for the lost position, and FETCH to its holders. -/
def State.takeOver (s : State) (t : TeamBody) (pos : Nat) (k : W64) (alt : Nat) : State :=
  let bind := ((t.arms.find? fun a => decide (a.position = pos)).map ArmRow.bind).getD []
  let lead := s.leadPos
  let s0 := ({ s with recov := s.recov.spareTakes pos k alt }).enter .recovering .none k
  match s0.loadImage pos t.imageBase t.imageSize bind t.repair k with
  | (s1, some _) => s1.takeoverFails lead pos k
  | (s1, none) =>
    let (failed, s2) := s1.stepSeven
    if failed then s2.takeoverFails lead pos k else (s2.setRole).sendFetch (s2.nodeId.getD 0) s2.cairnBase s2.logBase

def execTakeover (pos : Nat) (k : W64) (spare alt : Nat) (s : State) : Res :=
  let words := [BitVec.ofNat 64 pos, k, BitVec.ofNat 64 spare, BitVec.ofNat 64 alt]
  let from_ := s.mgmtFrom 0x04 words
  let s1 := (s.tookMgmt 0x04 words).heardLead from_
  let again : Bool := match s1.recov.takeover with
    | some x => decide (x.1 = pos) && s1.recov.haltPosted
    | none => false
  .next (match s1.recov.team with
    | some t => if t.spare ∧ t.self = spare ∧ (s1.dev = .armed ∨ again) then s1.takeOver t pos k alt else s1
    | none => s1)

/-! ### FETCH at a holder (R361) -/

/-- The data of a held log entry: the k-th of its owner, step and RID. -/
def State.sendLogEntry (s : State) (owner chip logOff : Nat) (e : Nat × W64 × Nat × Nat × Bool) : State :=
  let v := s.asOwner owner
  let peers := s.recov.log.filter fun x => decide (x.1 = owner) && decide (x.2.1 = e.2.1) && decide (x.2.2.1 = e.2.2.1)
  let k := (peers.findIdx? fun x => decide (x = e)).getD 0
  let len := ((v.logReds.find? fun r => decide (r.rid = e.2.2.1)).map RedDesc.logBytes).getD 0
  let off := s.logOff owner e.2.1.toNat e.2.2.1 k
  (s.hbmTouch off len true).sendDyn chip
    (writeRec (hbmAddr chip (v.stageLog logOff e.2.1.toNat e.2.2.1 e.2.2.2.1)) (s.hbmBytes off len))

/-- Whether a held log entry is needed: it is final and its chunk here has a tag at or below its step. -/
def State.entryNeeded (s : State) (owner : Nat) (e : Nat × W64 × Nat × Nat × Bool) : Bool :=
  let v := s.asOwner owner
  decide (e.1 = owner) && e.2.2.2.2 && (match v.sumDesc e.2.2.1, v.updOf e.2.2.1 with
    | some r, some (i, _) =>
      match s.recov.dirTag.get? (dirKey owner (v.chunkAt i (e.2.2.2.1 % r.nblocks * r.elems))) with
      | some t => decide (t.toNat ≤ e.2.1.toNat)
      | none => false
    | _, _ => false)

/-- A held chunk with its head. -/
def State.sendStaged (s : State) (owner chip chunkOff q slot : Nat) : State :=
  let v := s.asOwner owner
  let off := s.slotOff s.position owner slot
  let len := 64 + v.chunkBytes q
  (s.hbmTouch off len true).sendDyn chip (writeRec (hbmAddr chip (v.stageAt chunkOff q)) (s.hbmBytes off len))

/-- A holder streams the final log entries that are needed, then its chunks; a chunk without a committed slot cannot be
restored (R363). -/
def State.serveFetch (s : State) (owner chip chunkOff logOff : Nat) : State :=
  let mine := (s.asOwner owner).heldBy s.position
  if mine.any fun q => (s.recov.dirSlot.get? (dirKey owner q)).isNone then s.tell 16 1 s.step 0
  else
    let s1 := (s.recov.log.filter (s.entryNeeded owner)).foldl (fun s e => s.sendLogEntry owner chip logOff e) s
    mine.foldl (fun s q => match s.recov.dirSlot.get? (dirKey owner q) with
      | some slot => s.sendStaged owner chip chunkOff q slot
      | none => s) s1

def execFetch (owner spareChip chunkOff logOff : Nat) (firstTag : W64) (s : State) : Res :=
  .next ((s.tookMgmt 0x05 [BitVec.ofNat 64 owner, BitVec.ofNat 64 spareChip, BitVec.ofNat 64 chunkOff,
    BitVec.ofNat 64 logOff, firstTag]).serveFetch owner spareChip chunkOff logOff)

/-! ### RESTORE (R330, R363, R364) -/

/-- The tag of a staged chunk, once its head is that of the chunk. -/
def State.stagedTag (s : State) (chunkOff q : Nat) : Option W64 :=
  let b := (s.hbmBytes (s.stageAt chunkOff q) 64).map Prod.fst
  if leAt b 0 8 / 2 ^ 48 = s.position ∧ leAt b 8 8 = q ∧ leAt b 24 4 = s.chunkBytes q then some (BitVec.ofNat 64 (leAt b 16 8))
  else none

/-- The chunks to restore: all of them at a spare, those of the poisoned units at a live chip. -/
def State.toRestore (s : State) : List Nat :=
  (List.range s.chunkCount).filter fun q => s.recov.takeover.isSome ||
    s.cairnUnits.any fun u => (s.chunkSpans q (s.chunkSet q s.step.toNat)).any fun x =>
      decide (x.1 < 64 * u + 64) && decide (64 * u < x.1 + x.2)

/-- A chunk is copied from staging into the arrays of its tag's set. -/
def State.copyChunk (s : State) (chunkOff : Nat) (x : Nat × W64) : State :=
  let data := s.hbmBytes (s.stageAt chunkOff x.1 + 64) (s.chunkBytes x.1)
  ((s.chunkSpans x.1 (s.chunkSet x.1 x.2.toNat)).foldl (fun (acc : State × List (Byte × Bool)) sp =>
    (acc.1.hbmWrite sp.1 (acc.2.take sp.2) false, acc.2.drop sp.2))
    (s.hbmTouch (s.stageAt chunkOff x.1) (64 + s.chunkBytes x.1) true, data)).1

/-- One block of a replayed step: none where a stored scale breaks R28. -/
def State.replayBlock (s : State) (logOff : Nat) (step : W64) (r : RedDesc) (i : Nat) (d : UpdDesc) (block : Nat) :
    Option State :=
  let st := s.updStack d block step.toNat
  let b : UBlock := { desc := i, rid := r.rid, block := block, step := step, data := [], replay := true, written := true }
  match s.blockGroup d b with
  | none =>
    some ((s.modDepot d.depot fun y => { y with updBadGroup := true, badGroupCount := y.badGroupCount + 1 }).modUpd d.depot st
      fun y => { y with blocks := y.blocks + 1, replayed := y.replayed + 1, last := step })
  | some g =>
    let raw := s.hbmBytes (s.stageLog logOff step.toNat r.rid block) r.logBytes
    let grads := wideLanes r.outFmt r.elems (byteUnits raw)
    match s.updCompute d g block step grads with
    | none => none
    | some x =>
      let j := block % r.nblocks * r.elems
      let s0 := (s.blockReads d j r.elems (d.readSet step.toNat)).foldl (fun s k => s.arrayTouch k.1 k.2.1 k.2.2)
        (s.hbmTouch (s.stageLog logOff step.toNat r.rid block) r.logBytes true)
      let s1 := x.writes.foldl (fun s w => s.hbmWrite w.1 w.2 true) (s0.depotFlags d.depot x.flags)
      some ((s1.modDepot d.depot fun y => { y with updTSat := y.updTSat || x.tSat }).modUpd d.depot st fun y =>
        { y with blocks := y.blocks + 1, replayed := y.replayed + 1, last := step,
                 params := y.params + BitVec.ofNat 64 r.elems })

/-- The blocks of a step that are replayed: those whose chunk has a tag at or below it. -/
def State.replayBlocks (s : State) (chunks : List (Nat × W64)) (step : Nat) : List (RedDesc × Nat × UpdDesc × Nat) :=
  s.logReds.flatMap fun r => match s.updOf r.rid with
    | some (i, d) => (List.range r.nblocks).filterMap fun b =>
        match chunks.find? fun x => decide (x.1 = s.chunkAt i (b * r.elems)) with
        | some x => if x.2.toNat ≤ step then some (r, i, d, (step * r.nblocks + b) % 2 ^ 32) else none
        | none => none
    | none => []

def State.replayStep (logOff : Nat) (chunks : List (Nat × W64)) (acc : Option State) (step : Nat) : Option State :=
  acc.bind fun s => (s.replayBlocks chunks step).foldl (fun a x => a.bind fun s =>
    s.replayBlock logOff (BitVec.ofNat 64 step) x.1 x.2.1 x.2.2.1 x.2.2.2) (some s)

/-- The working copy of a chunk with tag K, from its master (R363). -/
def State.recast (s : State) (k : W64) (x : Nat × W64) : State :=
  match s.chunkDesc x.1 with
  | some (d, c) =>
    if x.2 = k ∧ d.wcopy then
      let set := d.readSet k.toNat
      let j := c * chunkParams
      let n := Nat.min chunkParams (s.updParams d - j)
      let w := fp32Lanes n (s.arrayRead (setField d.master set) (4 * j) (4 * n))
      let (ws, f) := s.workingCopy d set j (k - 1) w
      ws.foldl (fun s y => s.hbmWrite y.1 y.2 true)
        ((s.arrayTouch (setField d.master set) (4 * j) (4 * n)).depotFlags d.depot f)
    else s
  | none => s

/-- The state after the restore: RESTORED at a spare, the end of R346's action at a live chip. -/
def State.afterRestore (s : State) : State :=
  let r := s.recov
  let s1 := { s with recov := { r with recoveries := r.recoveries + 1, phase := 4, poisonUnits := [] } }
  match s1.recov.takeover, s1.leadPos with
  | some (p, k, _), some l => s1.sendMgmt l 0x08 [BitVec.ofNat 64 p, k]
  | some _, none => s1
  | none, _ => s1.notifyAs 2 2 s1.step 0

def execRestore (s : State) : Res :=
  match s.recov.staging with
  | none => .next s
  | some (chunkOff, logOff) =>
    let tags := s.toRestore.map fun q => (s.stagedTag chunkOff q).map fun t => (q, t)
    if !s.recov.halted ∨ s.recov.phase = 4 ∨ tags.any Option.isNone then .next s
    else
      let chunks := tags.filterMap id
      let k := s.recov.recStep
      let s1 := chunks.foldl (fun s x => s.copyChunk chunkOff x) { s with recov := { s.recov with phase := 3 } }
      let low := (chunks.map fun x => x.2.toNat).foldl Nat.min k.toNat
      match ((List.range (k.toNat - low)).map fun i => low + i).foldl (State.replayStep logOff chunks) (some s1) with
      | none => .fault .negativeScale
      | some s2 => .next (chunks.foldl (fun s x => s.recast k x) s2).afterRestore

/-! ### REPAIR_RELOAD (R348) -/

/-- The installed image again, with the repair list extended: no HBM_INIT data, no measurement, and the Caravan ports stay
under the halt's switch (log 34). -/
def State.reinstall (s : State) (m : Image) (tileMap : List Nat) (k : W64) : State :=
  let s1 := s.loadResets
  let s2 := (({ s1 with image := some m, tileMap := tileMap }).installTables m).placeProgram m k
  { s2 with loadCode := 0, loadWhere := 0, rowsDue := [], faultsOut := [], reportsOut := [] }

/-- A reload that leaves the row without a tile, or that fails in step 7, loses the chip. -/
def State.repairReload (s : State) (m : Image) : State :=
  let repair := m.repair ++ [s.recov.cand]
  let (s1, raw) := s.readRegion m.base m.size
  match loadCheck s1.fuses raw m.position m.base m.size m.bind repair with
  | .error r => ({ s1 with loadCode := r.code, loadWhere := r.word }).notifyAs 11 1 s1.step 0
  | .ok (m', tiles) =>
    let (failed, s2) := (s1.reinstall m' tiles s1.recov.recStep).stepSeven
    if failed then s2.notifyAs 11 1 s2.recov.recStep 0
    else s2.notifyAs 14 2 s2.recov.recStep (BitVec.ofNat 64 (s2.recov.cand * 2 ^ 56))

def execRepairReload (s : State) : Res :=
  .next (match s.image with
    | some m =>
      if s.recov.candValid ∧ s.recov.halted ∧ s.recov.cand ∉ m.repair then s.repairReload m else s
    | none => s)

end Sys2Proof.Machine
end

