-- ==== Sys2Proof/Machine/Boot.lean ====
section
/-! DEFINITION. Chip resets, power and the thermal trip, and the boot ROM's firmware transfer (R376 to R384, R426, R467 to
R475, R496, R497, R501). -/

namespace Sys2Proof.Machine

open Sys2Proof

/-! ### Cold resets (R224, R470, R472, R475) -/

/-- The device held in a cold reset: the always-on domain's latches, the straps and the sensors stay. -/
def State.coldState (s : State) (cause : BitVec 8) : State :=
  { fuses := s.fuses, freeCtr := s.freeCtr, out := s.out, pending := s.pending,
    rst := { cause := cause },
    pkg := { s.pkg with gpioOe := 0, gpioOut := 0, alert := false, fault := false },
    clock := { aOk := s.clock.aOk, bOk := s.clock.bOk, active := !s.clock.aOk && s.clock.bOk },
    power := { rowTemp := s.power.rowTemp, depTemp := s.power.depTemp },
    dev := .off }

/-- With power good, RST_N high and no trip or test mode the key is rebuilt and the boot ROM starts (R433, R450, R475, R499). -/
def State.boot (s : State) : State :=
  if s.pkg.powerGood ∧ s.pkg.rstN ∧ !s.pkg.thermtrip ∧ !s.pkg.testmode then
    { s with dev := .rom,
             sec := { s.sec with keyOk := decide (sha384 s.fuses.publicKey = s.fuses.deviceId), certOk := s.fuses.certGood } }
  else s

def State.coldReset (s : State) (cause : BitVec 8) : State := (s.coldState cause).boot

/-- The clock-failure reset at the end of a holdover (R239). -/
def execClockFailure (s : State) : Res := .next (if s.clock.holdover then s.coldReset 0x04 else s)

/-- Every rail has reached its limits. After a trip the sensors are read first: a hot one repeats the trip (R501). -/
def execPowerOn (hot : Bool) (src : Nat) (s : State) : Res :=
  .next (if s.pkg.powerGood then s
  else
    let s1 := s.coldState 0x01
    let p : Package := { s1.pkg with powerGood := true }
    if p.tripLast ∧ hot then { s1 with pkg := { p with thermtrip := true, tripSrc := BitVec.ofNat 2 src } }
    else ({ s1 with pkg := p }).boot)

/-- A rail leaves its limits: a cold reset, unless the trip has the part already stopped. -/
def execBrownOut (_rail : Nat) (s : State) : Res :=
  .next (if s.pkg.powerGood then
    let s1 := if s.pkg.thermtrip then s else s.coldState 0x02
    { s1 with pkg := { s1.pkg with powerGood := false } }
  else s)

/-- Whether a low pulse on RST_N resets the part (R467, log 9). -/
def pulseTaken (lowNs occasion : Nat) : Bool :=
  if lowNs < 100 then false else if lowNs < 1000 then Config.shortPulseTaken lowNs occasion else true

def execRstNAssert (lowNs : Nat) (s : State) : Res :=
  let s1 := { s with freeCtr := s.freeCtr + 1 }
  .next (if !s.pkg.rstN then s
  else if pulseTaken lowNs s.freeCtr then
    let s2 := if s.pkg.powerGood ∧ !s.pkg.thermtrip then s1.coldState 0x03 else s1
    { s2 with pkg := { s2.pkg with rstN := false } }
  else s1)

/-- The rising edge of RST_N samples the straps and starts the part. -/
def execRstNRelease (smba : BitVec 3) (testmode : Bool) (s : State) : Res :=
  .next (if s.pkg.rstN then s
  else ({ s with pkg := { s.pkg with rstN := true, smba := smba, testmode := testmode } }).boot)

/-- The always-on rail powers up: its latches are clear and every other rail is still off (R497, R504). -/
def execVaonPowerUp (s : State) : Res :=
  let s1 := s.coldState s.rst.cause
  .next { s1 with pkg := { s1.pkg with powerGood := false, thermtrip := false, tripLast := false, tripSrc := 0 } }

/-- The trip stops every clock until the rails have gone: nothing of the state can be seen again (R501, log 36). -/
def execThermalTrip (src : Nat) (s : State) : Res :=
  .next (if s.pkg.powerGood ∧ !s.pkg.thermtrip then
    let s1 := s.coldState s.rst.cause
    { s1 with rst := s.rst, pkg := { s1.pkg with thermtrip := true, tripLast := true, tripSrc := BitVec.ofNat 2 src } }
  else s)

/-- 60 s with RST_N low and the rails off: the latch opens. -/
def execTripRelease (s : State) : Res :=
  .next (if s.pkg.thermtrip ∧ !s.pkg.rstN ∧ !s.pkg.powerGood then { s with pkg := { s.pkg with thermtrip := false } } else s)

/-! ### Warm resets (R284, R470 to R474) -/

/-- A Caravan port through a warm reset: the link and its counters stay, the program's tables and what waits in the port go,
but for BROKEN records that had time to leave (R471, log 26). -/
def CvPort.warm (x : CvPort) : CvPort :=
  let told (r : Routed) : Bool := match r.body with
    | .broken _ _ _ => true
    | _ => false
  { x with
    queues := [], offers := [], retry := x.retry.filter fun i => i.rec_.any told, idleAns := [], reorder := [], missing := [], groups := [], wraps := [],
    dynOut := [], qtab := [], tables := [], cur := none, prepared := none, previous := none, prevOpen := false, alt := 255, tbl := 0, open_ := true,
    dynq := x.dynq.filter told }

/-- What the recovery unit keeps: its counters. -/
def Recovery.warm (r : Recovery) : Recovery :=
  { halts := r.halts, reruns := r.reruns, recoveries := r.recoveries, escalations := r.escalations, chunksSent := r.chunksSent,
    logAppends := r.logAppends, logWait := r.logWait, hbMisses := r.hbMisses, ledgerCount := r.ledgerCount }

/-- What power and wear keep. -/
def Power.warm (p : Power) : Power :=
  { p with
    samples := [], powerSamples := [], lastLedger := [], ceilings := [], clear := 0, replanning := false,
    telemetry := List.replicate 256 0, telemetrySeq := 0 }

/-- Blocks through a warm reset, each as by a block reset of its owner (R477). -/
def State.warmBlocks (s : State) : State :=
  let s1 := (List.range 4).foldl (fun s d => (s.clearReductions d).modDepot d Depot.clearCounters) s
  { s1 with
    tiles := [], gs := [], eps := [], sigDiscards := 0,
    rows := s1.rows.map fun (x : Nat × Row) => (x.1, { x.2 with holds := [], holdCount := 0 }),
    bqs := s1.bqs.map fun (x : Nat × BQueue) => (x.1, { x.2 with slots := [] }),
    hbm := { s1.hbm with migQueue := [], held := [], heldReply := none },
    reds := [], redSeq := [], redBlocks := [], redHeld := [], outputs := [], upds := [], groups := [], scheds := [],
    updDone := [], updTag := [], formats := [], net := [], delivered := [] }

/-- The state as a warm reset leaves it, before the ROM has checked the firmware. -/
def State.warmState (s : State) (cause : BitVec 8) : State :=
  let s1 := s.warmBlocks
  { s1 with
    cv := { slotCount := s1.cv.slotCount, slotFrac := s1.cv.slotFrac, routePorts := s1.cv.routePorts, routeHops := s1.cv.routeHops },
    ports := s1.ports.map fun (x : Nat × CvPort) => (x.1, x.2.warm),
    chipmap := {}, power := s1.power.warm, recov := s1.recov.warm,
    sec := { keyOk := s1.sec.keyOk, certOk := s1.sec.certOk, quotes := s1.sec.quotes, waybills := s1.sec.waybills },
    image := none, tileMap := [], loadCode := 0, loadWhere := 0,
    base := { s1.base with dormas := false, wdogLimit := 27, wdogCount := 0, svn := 0, fwCode := 0 },
    tether := { s1.tether with sessions := [], halfOpen := [], feeder := none, received := [] },
    qps := [], senders := [],
    rst := { cause := cause, cold := false, resetAt := BitVec.ofNat 64 (s1.clock.gtc / 256),
             warmResets := s1.rst.warmResets + 1, blockResets := s1.rst.blockResets, warm := true },
    dev := .rom, reason := .none, step := 0, arrived := false, bcTag := 0, startAt := 0, rowsDue := [],
    reports := [], reportsNext := [], reportsOut := [], faultsOut := [], stepReleases := 0 }

/-- A warm source outside any chip reset resets the chip; within one it is discarded (R468). -/
def State.warmReset (s : State) (cause : BitVec 8) : State :=
  if s.rst.warm ∨ s.dev = .off then s else s.warmState cause

/-- BROKEN for each inbound channel with a sender on another chip (R471). -/
def State.tellAllSenders (s : State) : State := s.tileMap.foldl State.tellRemoteSenders s

def execTetherReset (s : State) : Res :=
  .next (if s.rst.warmPending then s.tellAllSenders.warmReset 0x05 else s)

def execSoftwareRequest (s : State) : Res :=
  .next (if s.base.dormas then s.tellAllSenders.warmReset 0x07 else s)

def execSramUncorrectable (s : State) : Res :=
  .next (if s.base.dormas then s.tellAllSenders.warmReset 0x07 else s)

/-- The exponent in force of the base-camp watchdog's period (R405). -/
def BaseCore.wdogExp (b : BaseCore) : Nat := if 20 ≤ b.wdogLimit.toNat then b.wdogLimit.toNat else 27

def execBcWdogKick (value : BitVec 8) (s : State) : Res :=
  .next (if value = 0x5A then { s with base := { s.base with wdogCount := 0 } } else s)

def execBcWatchdog (s : State) : Res :=
  .next (if 32 * 2 ^ s.base.wdogExp ≤ s.base.wdogCount then s.warmReset 0x06 else s)

def execLockup (core : BitVec 3) (s : State) : Res :=
  .next (if s.rst.warm ∨ s.dev = .off then s
  else
    let s1 := s.warmReset 0x09
    { s1 with base := { s1.base with lockup := true, lockupCore := core, lockups := s1.base.lockups + 1 } })

/-! ### The boot ROM (R378 to R382, R426) -/

/-- Dormas starts with the image in SRAM. -/
def State.startDormas (s : State) : State :=
  ({ s with base := { s.base with dormas := true, wdogCount := 0, fwCode := 0, svn := leAt s.base.sram 6 1 } }).writeRates.enter .loaded
    .none 0

/-- After a warm reset: the image still held is compared with FW_DIGEST. -/
def execFirmwareCheck (s : State) : Res :=
  .next (if !s.rst.warm then s
  else
    let s1 := { s with rst := { s.rst with warm := false } }
    if sha384 s1.base.sram = s1.base.fwDigest then s1.startDormas
    else { s1 with base := { s1.base with fwCode := 0x0B, sram := [] } })

/-- Whether the boot ROM waits for an image. -/
def State.romWaits (s : State) : Bool := decide (s.dev = .rom) && !s.rst.warm

/-- BODY_SIZE of what has been received. -/
def bodySize (b : List Byte) : Nat := leAt b 8 4

/-- An FW_ACK. -/
def State.fwAcked (s : State) (received status : Nat) : State := { s with out := .fwAck received status :: s.out }

/-- A transfer that ends with a code: the ROM waits for a new feeder. -/
def State.fwEnd (s : State) (code : Nat) : State :=
  { s with base := { s.base with fwCode := code }, tether := { s.tether with feeder := none, received := [] } }

/-- The bytes received after a packet of the feeder. -/
def fwTake (received : List Byte) (offset : Nat) (data : List Byte) : List Byte :=
  if offset = 0 then data else if offset = received.length then received ++ data else received

/-- A packet of the feeder: a restart, the next bytes, or nothing. -/
def State.fwAppend (s : State) (src offset : Nat) (data : List Byte) : State :=
  let got := fwTake s.tether.received offset data
  if 12 ≤ got.length ∧ 12582912 < bodySize got then (s.fwEnd 0x02).fwAcked got.length 0x02
  else ({ s with tether := { s.tether with feeder := some src, received := got } }).fwAcked got.length 0xFF

def execFw (src offset : Nat) (data : List Byte) (s : State) : Res :=
  .next (if !s.romWaits then s
  else match s.tether.feeder with
    | some f => if f = src then s.fwAppend src offset data else s.fwAcked s.tether.received.length 0xFF
    | none => if offset = 0 then s.fwAppend src offset data else s.fwAcked 0 0xFF)

/-- The verdict of R380 on an image, in the order of FW_STATUS.CODE. -/
def fwCodeOf (f : Fuses) (b : List Byte) : Nat :=
  let n := bodySize b
  let zero (o len : Nat) : Bool := (slice b o len).all fun x => decide (x = 0)
  let keysel := leAt b 7 1
  let pub := slice b 64 97
  if leAt b 0 4 ≠ 0x534D5244 ∨ leAt b 4 1 ≠ 1 ∨ leAt b 5 1 ≠ 1 ∨ !zero 16 48 ∨ !zero 161 255 ∨ leAt b 12 4 % 4 ≠ 0
      ∨ n ≤ leAt b 12 4 then 0x01
  else if n % 64 ≠ 0 ∨ 12582912 < n ∨ b.length ≠ 512 + n then 0x02
  else if (keysel = 0 ∧ f.revoked0) ∨ (keysel = 1 ∧ f.revoked1) then 0x03
  else if 2 ≤ keysel ∨ sha384 pub ≠ (if keysel = 0 then f.vendorHash0 else f.vendorHash1) then 0x04
  else if !Config.verifies pub (slice b 0 416 ++ b.drop 512) (slice b 416 96) then 0x05
  else if leAt b 6 1 < f.minSvn then 0x06
  else 0

/-- The whole image has arrived: it is verified, and Dormas starts or the ROM waits for another. -/
def execFwVerify (s : State) : Res :=
  let b := s.tether.received
  .next (if !s.romWaits ∨ b.length < 12 ∨ b.length < 512 + bodySize b then s
  else
    let code := fwCodeOf s.fuses b
    let s1 := (s.fwEnd code).fwAcked b.length code
    if code = 0 then ({ s1 with base := { s1.base with sram := b, fwDigest := sha384 b } }).startDormas else s1)

def execFeederTimeout (s : State) : Res :=
  .next { s with tether := { s.tether with feeder := none, received := [] } }

end Sys2Proof.Machine
end

