-- ==== Sys2Proof/Machine/Clock.lean ====
section
/-! DEFINITION. Global time and the reference clocks (R224 to R233, R237 to R239, R243). -/

namespace Sys2Proof.Machine

open Sys2Proof

/-- A beacon reaches a region: within 2 ns of the master's, where its local GTC is to come to stand is open, and from now
on its increment makes up the difference (R226; log 17). -/
def execTimeBeacon (region : Nat) (s : State) : Res :=
  let (v, s1) := s.fresh
  let target : Int := (v % 1025 : Nat) - 512
  .next { s1 with clock :=
    { s1.clock with regionAdj := s1.clock.regionAdj.set region (target - s1.clock.regionErr.get region 0) } }

def execGtcRead (s : State) : Res := .next s.latchGtc

/-- A port's waypoint of this millisecond waits for the next dynamic slot, which stamps it (R227, R277). -/
def execWaypointSend (p : Nat) (s : State) : Res :=
  .next (if (s.port p).st = .up then
    s.dynOn p ⟨true, 0, s.selfId.getD 0, 0, .waypoint ⟨0, 0, 0, s.clock.hops, s.clock.settled⟩⟩
  else s)

/-- The trim after a waypoint: the estimated drift plus theta over 4 ms, within 100 ppm, in ppb (R230). -/
def trimOf (drift theta : Int) : Int := max (-100000) (min 100000 (drift + Int.tdiv (theta * 125) 128))

/-- Whether a chip may step its GTC: it has no image and no position (R231). -/
def State.mayStep (s : State) : Bool :=
  s.image.isNone && !s.clock.joined && (match s.recov.team with
    | some t => t.spare
    | none => true)

/-- A set of stamps from the parent (R229 to R232), all in 1/256 ns. -/
def State.steer (s : State) (w : RecWaypoint) (t4 : Nat) : State :=
  let theta : Int := (((w.t2 : Int) - w.t1) - ((t4 : Int) - w.t3)) / 2
  let c := s.clock
  let thetas := theta :: c.thetas
  let calm := if theta.natAbs ≤ 256 then c.calm + 1 else 0
  let step := s.mayStep && decide (256000 < theta.natAbs)
  { s with clock :=
    { c with
      offset := theta, thetas := thetas, trim := trimOf (Config.driftEstimate thetas) theta,
      calm := calm, settled := c.settled || decide (16 ≤ calm), hops := w.hops + 1,
      gtc := if step then (((c.gtc : Int) + theta) % 2 ^ 72).toNat else c.gtc,
      stepped := c.stepped || step, joined := c.joined || step } }

/-- A waypoint arrives on a port: the port keeps its stamps for its own next one; the parent's steers the chip. One that
answers no waypoint of this chip yet brings no set of stamps (log 18). -/
def execWaypointRecord (p : Nat) (w : RecWaypoint) (s : State) : Res :=
  let s1 := s.took fun b => decide (b = .waypoint w)
  let t4 := s1.clock.localGtc (13 + p)
  let s2 := s1.modPort p fun x => { x with wpT3 := w.t3, wpArrival := t4 }
  .next (if s2.clock.hasParent ∧ !s2.clock.root ∧ s2.clock.parentPort.toNat = p ∧ ¬ (w.t1 = 0 ∧ w.t2 = 0) then
    s2.steer w t4
  else s2)

/-- No waypoint from the parent for 4 ms (R233). -/
def execParentLost (s : State) : Res :=
  .next (if s.clock.hasParent ∧ !s.clock.root then
    let alt := s.clock.alternates.find? fun p => decide ((s.port p).st = .up)
    ({ s with clock :=
      { s.clock with
        parentLost := true, calm := 0, hasParent := alt.isSome,
        parentPort := match alt with
          | some p => BitVec.ofNat 4 p
          | none => s.clock.parentPort,
        alternates := match alt with
          | some p => s.clock.alternates.filter fun q => decide (q ≠ p)
          | none => s.clock.alternates } }).clockEvent
  else s)

def execSettledTimeout (s : State) : Res :=
  .next (if s.clock.hasParent ∨ s.clock.root then s else { s with clock := { s.clock with settled := false } })

/-! ### Reference clocks (R237 to R239); input false is REFCLK_A -/

/-- Whether an input is good. -/
def Clock.refOk (c : Clock) (b : Bool) : Bool := if b then c.bOk else c.aOk

def Clock.setRef (c : Clock) (b ok : Bool) : Clock := if b then { c with bOk := ok } else { c with aOk := ok }

/-- A recorded switch to an input. -/
def State.refSwitch (s : State) (b : Bool) : State :=
  ({ s with clock := { s.clock with active := b, holdover := false, refSwitches := s.clock.refSwitches + 1 } }).clockEvent

def execReferenceLost (input : Bool) (s : State) : Res :=
  let c := s.clock.setRef input false
  let s1 := { s with clock := { c with aLost := c.aLost || !input, bLost := c.bLost || input } }
  .next (if s1.clock.active ≠ input ∨ s1.clock.holdover then s1
    else if s1.clock.refOk (!input) then s1.refSwitch (!input)
    else ({ s1 with clock := { s1.clock with holdover := true } }).clockEvent)

/-- An input is good: it ends a holdover, and it is followed where the cleaner follows nothing good since a cold reset. -/
def execReferenceGood (input : Bool) (s : State) : Res :=
  let s1 := { s with clock := s.clock.setRef input true }
  .next (if s1.clock.holdover then
      if s1.clock.active = input then ({ s1 with clock := { s1.clock with holdover := false } }).clockEvent
      else s1.refSwitch input
    else if s1.clock.refOk s1.clock.active then s1
    else { s1 with clock := { s1.clock with active := input } })

/-- A write of 1 to REF_CFG.SELECT. -/
def State.selectRef (s : State) : State :=
  if s.clock.refOk (!s.clock.active) then s.refSwitch (!s.clock.active) else s

def execRefSelect (s : State) : Res := .next s.selectRef

end Sys2Proof.Machine
end

