-- ==== Sys2Proof/Machine/ControlWrite.lean ====
section
/-! DEFINITION. Writes to control space under each field's access code (R12, R13, R480 to R484, R487, R488). -/

namespace Sys2Proof.Machine

open Sys2Proof

/-! ### Blocks of registers -/

/-- GS_STATE: the flags of counter mode (R177). -/
def GSem.ctlWrite (g : GSem) (p : Part) : GSem := { g with ovf := p.w1c 2 g.ovf, unf := p.w1c 1 g.unf }

def State.gsWrite (s : State) (first count o : Nat) (p : Part) : State :=
  if o % 16 = 12 ∧ o / 16 < count ∧ (p.clears 1 || p.clears 2) then
    { s with gs := s.gs.upd (first + o / 16) {} fun g => g.ctlWrite p }
  else s

/-- DEPOT_ERR (R312). -/
def DepotErr.write (e : DepotErr) (p : Part) : DepotErr :=
  { spareExhausted := p.w1c 7 e.spareExhausted, d2dPoison := p.w1c 6 e.d2dPoison, d2dModuleLost := p.w1c 5 e.d2dModuleLost,
    wpDiscard := p.w1c 4 e.wpDiscard, unmapped := p.w1c 3 e.unmapped, hbmUe := p.w1c 1 e.hbmUe, hbmCe := p.w1c 0 e.hbmCe }

/-- A depot's window (R306, R312, R335). -/
def State.depotWrite (s : State) (d o : Nat) (p : Part) : State :=
  if o = 0x008 then s.modDepot d fun x => { x with err := x.err.write p }
  else if o = 0x010 then s.modDepot d fun x => { x with arith := x.arith.write p }
  else if o = 0x2800 then s.modDepot d fun x => { x with updTSat := p.w1c 1 x.updTSat, updBadGroup := p.w1c 0 x.updBadGroup }
  else if 0x80_0000 ≤ o ∧ o < 0x80_3000 then s.gsWrite (768 * d) 768 (o - 0x80_0000) p
  else s

/-- CV_ERR (R288). -/
def CvPort.errWrite (x : CvPort) (p : Part) : CvPort :=
  { x with errBufEcc := p.w1c 6 x.errBufEcc, errLaneFail := p.w1c 5 x.errLaneFail, errRetryLimit := p.w1c 4 x.errRetryLimit,
           errWdog := p.w1c 3 x.errWdog, errCable := p.w1c 2 x.errCable, errCap := p.w1c 1 x.errCap,
           errImage := p.w1c 0 x.errImage }

/-- CV_CFG and CV_ERR (R253, R286, R288). -/
def State.cvPortWrite (s : State) (k o : Nat) (p : Part) : State :=
  if o = 0x00 then
    let s1 := s.modPort k fun x => { x with wdogLog2 := p.rw 0 6 x.wdogLog2 }
    if !p.m.getLsbD 8 then s1
    else if p.v.getLsbD 8 then s1.modPort k fun x => { x with enable := true }
    else s1.disablePort k
  else if o = 0x08 then s.modPort k fun x => x.errWrite p
  else s

/-- HP_ERR (R447). -/
def HPort.errWrite (x : HPort) (p : Part) : HPort :=
  { x with errQp := p.w1c 4 x.errQp, errMacsec := p.w1c 3 x.errMacsec, errAuth := p.w1c 2 x.errAuth, errFec := p.w1c 1 x.errFec,
           errDown := p.w1c 0 x.errDown }

/-- ENABLE and SPEED of a host port: a port that is disabled, or has another speed set, loses its link (R410, R446). -/
def State.setHostPort (s : State) (h : Nat) (enable : Bool) (speed : Nat) : State :=
  let old := s.hport h
  let s1 := s.modHport h fun x => { x with enable := enable, speed := speed }
  if !enable ∨ old.speed ≠ speed then s1.hostLinkDown h else s1

def execHpCfgWrite (port : Nat) (enable : Bool) (speed : Nat) (s : State) : Res := .next (s.setHostPort port enable speed)

/-- HP_CFG and HP_ERR (R446, R447). -/
def State.hportWrite (s : State) (h o : Nat) (p : Part) : State :=
  if o = 0x00 then
    let x := s.hport h
    let s1 := s.modHport h fun x =>
      { x with macsec := p.rwBit 27 x.macsec, rocePrio := p.rw 24 3 x.rocePrio, tetherPrio := p.rw 21 3 x.tetherPrio,
               pfc := p.rwBit 20 x.pfc }
    s1.setHostPort h (p.rwBit 31 x.enable) (p.rw 28 3 (BitVec.ofNat 3 x.speed)).toNat
  else if o = 0x08 then s.modHport h fun x => x.errWrite p
  else s

/-- POWER_CFG: a write to CAP_OP makes the chip's ceiling anew (R388, R406). -/
def State.powerCfgWrite (s : State) (p : Part) : State :=
  let s1 := { s with power := { s.power with
      hbmThrottleC := p.rw 24 8 s.power.hbmThrottleC, throttleC := p.rw 16 8 s.power.throttleC,
      capOp := p.rw 0 3 s.power.capOp } }
  if p.m &&& 7 ≠ 0 then s1.refreshCeiling else s1

/-- BLOCK_RESET: base cores only (R476, R479). -/
def State.blockResetWrite (s : State) (g : Agent) (p : Part) : State :=
  if g ≠ .baseCore then s
  else
    let kind := p.rw 28 3 s.rst.brKind
    let index := p.rw 20 8 s.rst.brIndex
    let s1 := { s with rst := { s.rst with brKind := kind, brIndex := index, timeoutUs := p.rw 0 16 s.rst.timeoutUs } }
    if p.clears 31 then s1.askBlock ⟨kind.toNat, index.toNat⟩ else s1

/-- The clock, reset and power window (R244 to R247, R406, R479, R504). -/
def State.clockWrite (s : State) (g : Agent) (o : Nat) (p : Part) : State :=
  if o = 0x10 then
    { s with clock := { s.clock with stepped := p.w1c 4 s.clock.stepped, parentLost := p.w1c 3 s.clock.parentLost } }
  else if o = 0x40 then
    let s1 := { s with clock := { s.clock with prefer := p.rwBit 0 s.clock.prefer } }
    if p.clears 1 then s1.selectRef else s1
  else if o = 0x44 then
    { s with clock := { s.clock with bLost := p.w1c 5 s.clock.bLost, aLost := p.w1c 4 s.clock.aLost } }
  else if o = 0x60 then { s with clock := { s.clock with freqLate := p.w1c 8 s.clock.freqLate } }
  else if 0x100 ≤ o ∧ o < 0x200 ∧ o % 0x20 = 0 then
    s.modRow ((o - 0x100) / 0x20) fun r => { r with denied := p.w1c 4 r.denied }
  else if 0x200 ≤ o ∧ o < 0x3C0 ∧ o % 0x20 = 0 then
    if p.clears 16 then { s with bqs := s.bqs.upd ((o - 0x200) / 0x20) {} fun q => { q with stuck := false } } else s
  else if o = 0x1000 then s.powerCfgWrite p
  else if o = 0x1008 then
    { s with power := { s.power with avsTimeout := p.w1c 2 s.power.avsTimeout, regFault := p.w1c 1 s.power.regFault,
                                     vlate := p.w1c 0 s.power.vlate } }
  else if o = 0x4020 then s.blockResetWrite g p
  else if o = 0x4024 then { s with rst := { s.rst with timedOut := p.w1c 1 s.rst.timedOut } }
  else if o = 0x5000 then
    { s with pkg := { s.pkg with gpioOe := p.rw 24 8 s.pkg.gpioOe, gpioOut := p.rw 16 8 s.pkg.gpioOut,
                                 alert := p.rwBit 1 s.pkg.alert, fault := p.rwBit 0 s.pkg.fault } }
  else if o = 0x5004 then { s with pkg := { s.pkg with tripLast := p.w1c 1 s.pkg.tripLast } }
  else s

/-- BC_WDOG: base cores only (R384, R405). -/
def State.bcWdogWrite (s : State) (g : Agent) (p : Part) : State :=
  if g ≠ .baseCore then s
  else
    let count := if p.m &&& 0xFF = 0xFF ∧ p.v &&& 0xFF = 0x5A then 0 else s.base.wdogCount
    { s with base := { s.base with wdogLimit := p.rw 8 5 s.base.wdogLimit, wdogCount := count } }

/-- The base camp window (R177, R375, R405). -/
def State.baseWrite (s : State) (g : Agent) (o : Nat) (p : Part) : State :=
  if o = 0x00 then { s with base := { s.base with lockup := p.w1c 7 s.base.lockup } }
  else if o = 0x08 then s.bcWdogWrite g p
  else if 0x80_0000 ≤ o ∧ o < 0x80_4000 then s.gsWrite 3072 1024 (o - 0x80_0000) p
  else if o = 0xA0_0014 then { s with recov := { s.recov with candValid := p.w1c 31 s.recov.candValid } }
  else s

/-! ### The whole of control space -/

/-- Whether an agent's writes reach an offset (R481). -/
def mayWrite (g : Agent) (o : Nat) : Bool :=
  match g with
  | .host => true
  | .baseCore => true
  | .storeEngine n => decide (0x1000_0000 + n * 0x10_0000 ≤ o) && decide (o < 0x1000_0000 + (n + 1) * 0x10_0000)
  | .loadEngine _ => false
  | .caravan => false

/-- A write to one 4-byte word at its offset. -/
def State.partWrite (s : State) (g : Agent) (o : Nat) (p : Part) : State :=
  if !mayWrite g o then s
  else if o < 0x1000_0000 then s.baseWrite g o p
  else if o < 0x1C80_0000 then
    let n := (o - 0x1000_0000) / 0x10_0000
    if s.absent n then s else s.modTile n fun t => t.ctlWrite (o % 0x10_0000) p
  else if o < 0x2000_0000 then s
  else if o < 0x3000_0000 then s.depotWrite ((o - 0x2000_0000) / 0x400_0000) (o % 0x400_0000) p
  else if o < 0x3100_0000 then s.cvPortWrite ((o - 0x3000_0000) / 0x10_0000) (o % 0x10_0000) p
  else if o = 0x3100_0008 then { s with cv := { s.cv with late := p.w1c 10 s.cv.late } }
  else if o < 0x3800_0000 then s
  else if o < 0x3880_0000 then s.hportWrite ((o - 0x3800_0000) / 0x10_0000) (o % 0x10_0000) p
  else if o < 0x3C00_0000 then s
  else if o < 0x3E00_0000 then s.clockWrite g (o - 0x3C00_0000) p
  else s

/-- A write of bytes: only the bits that it covers change. -/
def State.ctlWrite (s : State) (g : Agent) (off : Nat) (data : List Byte) : State :=
  (writeParts off data).foldl (fun s x => s.partWrite g x.1 x.2) s

def execRegisterWrite (g : Agent) (off : Nat) (data : List Byte) (s : State) : Res := .next (s.ctlWrite g off data)

end Sys2Proof.Machine
end

