-- ==== Sys2Proof/Machine/Tether.lean ====
section
/-! DEFINITION. Discovery, the handshake and the sessions of Tether (R421 to R431, R445). -/

namespace Sys2Proof.Machine

open Sys2Proof

/-! ### Discovery (R425) -/

/-- GRADE: the power class and the enabled tiles over 8. -/
def Fuses.grade (f : Fuses) : Byte :=
  BitVec.ofNat 8 ((if f.clsM then 128 else 0) + (f.present.filter fun x => decide (x = 1)).length / 8)

/-- SESS: an owner session, and the observer sessions. -/
def Tether.sess (t : Tether) : Byte :=
  BitVec.ofNat 8 ((if t.sessions.any Session.owner then 128 else 0) + (t.sessions.filter fun x => !x.owner).length)

/-- The payload of OFFER. -/
def State.offerPayload (s : State) (nonce : List Byte) : List Byte :=
  nonce ++ [BitVec.ofNat 8 s.dev.code, 1, 1, s.fuses.grade, s.fuses.stepping, s.tether.sess]
    ++ beBytes 2 Config.certChain.length ++ s.fuses.deviceId
    ++ (if s.dev = .rom then List.replicate 48 0 else s.base.fwDigest)
    ++ beBytes 2 s.tether.group ++ List.replicate 6 0 ++ Config.certChain

/-- Whether a host port serves Tether: the boot ROM only on ports 0 and 4 (R378), and not before
it has checked the firmware after a warm reset. -/
def State.serves (s : State) (port : Nat) : Bool :=
  if s.dev = .off then false else if s.dev = .rom then decide (port = 0 ∨ port = 4) && !s.rst.warm else true

/-- Frames received on a port (R445). -/
def State.gotFrames (s : State) (h n : Nat) : State := if n = 0 then s else s.modHport h fun p => p.count hpRxFrames n

/-- A host port discards every frame that it receives in a warm reset until Dormas has restarted (R470, R473). -/
def State.warmDrop (s : State) (port n : Nat) : State :=
  if s.rst.warm then (s.gotFrames port n).modHport port fun p => p.count hpOtherDrops n else s

/-- Packets without an open session: dropped with the others in a warm reset, else unauthenticated (R422). -/
def State.noSession (s : State) (port n : Nat) : State :=
  if s.rst.warm then s.warmDrop port n
  else (s.gotFrames port n).modHport port fun p => { p.count hpAuthDrops 1 with errAuth := true }

/-- A packet without a session put out on a port. -/
def State.putOut (s : State) (port : Nat) (o : Output) : State := (s.emit o).sentFrames port 1

def execDiscover (port : Nat) (nonce : List Byte) (s : State) : Res :=
  .next (if s.serves port then (s.gotFrames port 1).putOut port (.offer port (s.offerPayload nonce)) else s.warmDrop port 1)

/-! ### Handshake (R427 to R429) -/

def Hello1.bytes (h : Hello1) : List Byte :=
  [BitVec.ofNat 8 h.role, BitVec.ofNat 8 ((if h.takeover then 1 else 0) + (if h.events then 2 else 0))]
    ++ beBytes 2 h.group ++ h.hnonce ++ h.heph ++ h.hkey ++ [0, 0]

/-- Whether every field of HELLO1 is in range. -/
def Hello1.ok (h : Hello1) : Bool :=
  (decide (h.role = 1) || decide (h.role = 2)) && decide (1 ≤ h.group) && decide (h.group < 65536)
    && decide (h.hnonce.length = 32) && decide (h.heph.length = 97) && decide (h.hkey.length = 97)

def State.handshakeFail (s : State) : State :=
  { s with tether := { s.tether with handshakeFails := s.tether.handshakeFails + 1 } }

/-- HELLO2: the ephemeral key, the nonce and the signature over T1; the keys of the session follow at once, and the secret
is gone. -/
def State.openHalf (s : State) (port : Nat) (h : Hello1) : State :=
  let (nonce, s1) := s.fresh
  let (secret, s2) := s1.fresh
  let id := s2.tether.nextSession
  let head := beBytes 4 id ++ leBytes 32 nonce ++ Config.ephemeralKey secret ++ s2.fuses.deviceId
    ++ [BitVec.ofNat 8 s2.dev.code, 0, 0]
  let hello2 := head ++ Config.sign (Hello1.bytes h ++ head)
  let all := Hello1.bytes h ++ hello2
  let half : HalfOpen :=
    { id := id, port := port, hello := h, transcript := all,
      keys := Config.sessionKeys secret h.heph (h.hnonce ++ leBytes 32 nonce ++ sha384 all) }
  ({ s2 with tether := { s2.tether with
      halfOpen := s2.tether.halfOpen ++ [half], nextSession := (id % (2 ^ 32 - 1)) + 1 } }).putOut port (.hello2 port id hello2)

/-- A device without its key completes no handshake (R450). -/
def execHello1 (port : Nat) (h : Hello1) (s : State) : Res :=
  let s1 := s.gotFrames port 1
  .next (if !s.base.dormas then s.warmDrop port 1
    else if !Hello1.ok h ∨ 4 ≤ s.tether.halfOpen.length then s1.handshakeFail
    else if !s.sec.keyOk then s1
    else s1.openHalf port h)

/-- Whether a half-open session may become one (R429). -/
def Tether.admits (t : Tether) (h : Hello1) : Bool :=
  let k := sha384 h.hkey
  let none_ := decide (t.ownerKey = List.replicate 48 0)
  if h.role = 1 then (none_ || decide (t.ownerKey = k)) && (!(t.sessions.any Session.owner) || h.takeover)
  else ((!none_ && decide (t.ownerKey = k)) || decide (k ∈ t.observers))
    && decide ((t.sessions.filter fun x => !x.owner).length < 3)

/-- A half-open session is gone. -/
def State.dropHalf (s : State) (id : Nat) : State :=
  { s with tether := { s.tether with halfOpen := s.tether.halfOpen.filter fun x => decide (x.id ≠ id) } }

/-- The sessions that end are gone; the host hears nothing of them on a session of its own. -/
def State.endSessions (s : State) (f : Session → Bool) : State :=
  let gone := s.tether.sessions.filter f
  { s with tether := { s.tether with sessions := s.tether.sessions.filter fun x => !f x },
           out := gone.foldl (fun o x => .closed x.id :: o) s.out }

/-- The session of a handshake that has been admitted; an owner binds its key and its group. -/
def State.openSession (s : State) (x : HalfOpen) (port : Nat) : State :=
  let owner := decide (x.hello.role = 1)
  let s1 := if owner then s.endSessions Session.owner else s
  let t := s1.tether
  let k := sha384 x.hello.hkey
  let y : Session :=
    { id := x.id, owner := owner, events := x.hello.events, group := x.hello.group, key := k, keys := x.keys, port := port,
      seqIn := 2 }
  ({ s1 with tether := { t with
      ownerKey := if owner then k else t.ownerKey, group := if owner then x.hello.group else t.group,
      sessions := t.sessions ++ [y], opened := t.opened + 1 } }).respond x.id 1 0 0 []

/-- A host whose signature does not verify or that lacks authority is denied. -/
def execHello3 (hd : CmdHdr) (hsig : List Byte) (s : State) : Res :=
  let s1 := s.gotFrames hd.port 1
  .next (if !s.base.dormas then s.warmDrop hd.port 1
    else match s.tether.halfOpen.find? fun x => decide (x.id = hd.session) with
    | none => s.noSession hd.port 1
    | some x =>
      if Config.verifies x.hello.hkey x.transcript hsig ∧ s1.tether.admits x.hello then (s1.dropHalf x.id).openSession x hd.port
      else (s1.handshakeFail.dropHalf x.id).putOut hd.port (.response x.id 1 2 s.dev.code 0 []))

def execHalfOpenTimeout (session : Nat) (s : State) : Res :=
  .next (if s.tether.halfOpen.any fun x => decide (x.id = session) then s.handshakeFail.dropHalf session else s)

/-! ### Packets of a session (R423, R424, R430) -/

/-- A packet of a session that is open; any other counts in AUTH_DROPS (R422). -/
def State.withSession (s : State) (hd : CmdHdr) (f : Session → State → State) : State :=
  if s.dev = .off then s
  else
    match s.session? hd.session with
    | none => s.noSession hd.port 1
    | some x => f x ((s.gotFrames hd.port 1).onSession hd.session fun y => { y with port := hd.port })

/-- An ACK frees the numbered packets up to it, and what waited for the window leaves. -/
def execAck (hd : CmdHdr) (ackSeq : Nat) (s : State) : Res :=
  .next (s.withSession hd fun _ s => s.onSession hd.session fun y =>
    { y with unacked := y.unacked.filter fun u => decide (ackSeq < u.seq) })

/-- The session after one more packet that is not numbered. -/
def State.sendAck (s : State) (id : Nat) : State :=
  match s.session? id with
  | none => s
  | some x =>
    ((s.onSession id fun y => { y with pnOut := y.pnOut + 1 }).putOut x.port (.ackPacket id (x.seqIn - 1)))

/-- CLOSE takes its place in the order of the session, is acknowledged, and the session ends. -/
def execClose (hd : CmdHdr) (s : State) : Res :=
  .next (s.withSession hd fun _ s =>
    ((s.onSession hd.session fun y => { y with seqIn := y.seqIn + 1 }).sendAck hd.session).endSessions fun y =>
      decide (y.id = hd.session))

/-- A session that ends because its peer is gone. -/
def State.loseSession (s : State) (id : Nat) : State :=
  let s1 := s.endSessions fun y => decide (y.id = id)
  { s1 with tether := { s1.tether with lostCount := s1.tether.lostCount + 1 } }

/-- The oldest packet that waits for its acknowledgement is sent again, with twice the timeout up to 64 ms. -/
def execTetherResend (session : Nat) (s : State) : Res :=
  .next (match s.session? session with
    | none => s
    | some x =>
      match x.unacked with
      | [] => s
      | u :: l =>
        if 10 ≤ u.sends then s.loseSession session
        else (s.onSession session fun y =>
          { y with pnOut := y.pnOut + 1, unacked := ⟨u.seq, u.sends + 1, Nat.min 64 (2 * u.timeoutMs)⟩ :: l }).putOut x.port
            (.resend session u.seq))

def execTetherKeepalive (session : Nat) (s : State) : Res := .next (s.sendAck session)

def execSessionTimeout (session : Nat) (s : State) : Res :=
  .next (if (s.session? session).isSome then s.loseSession session else s)

/-! ### Commands (R424, R429, R434 to R436) -/

/-- Whether an earlier command of a session still waits for its response: the next one's turn has not come. -/
def State.waiting (s : State) (id : Nat) : Bool :=
  (s.recov.haltReply ++ s.recov.resumeReply).any (fun x => decide (x.1 = id))
    || (match s.hbm.heldReply with
      | some x => decide (x.1 = id)
      | none => false)
    || (match s.sec.build with
      | some b => decide (b.session = id)
      | none => false)

/-- A command in its turn: its session and the SEQ of its first packet are given to `act`. `len` is the length of its body,
`ok` says that it is well formed, `legal` that R434 marks it legal. -/
def State.command (s : State) (hd : CmdHdr) (len : Nat) (observer ok legal : Bool) (act : Nat → Nat → State → State) : Res :=
  if s.dev = .off then .next s
  else match s.session? hd.session with
    | none => .next (s.noSession hd.port 1)
    | some x =>
      if s.waiting x.id then .next s
      else
        let n := packetsOf (8 + len)
        let s1 := (s.gotFrames hd.port n).onSession x.id fun y => { y with port := hd.port, seqIn := y.seqIn + n }
        if !x.owner ∧ !observer then .next (s1.respond x.id x.seqIn 2 0 [])
        else if !ok then .next (s1.respond x.id x.seqIn 1 0 [])
        else if !legal then .fault .illegalState
        else .next (act x.id x.seqIn s1)

/-- The states in which a load is legal. -/
def DevSt.loads (d : DevSt) : Bool :=
  decide (d = .loaded) || decide (d = .ready) || decide (d = .halted) || decide (d = DevSt.faulted)

/-- The states of a run. -/
def DevSt.inRun (d : DevSt) : Bool :=
  decide (d = .running) || decide (d = .halted) || decide (d = DevSt.faulted) || decide (d = .recovering)

end Sys2Proof.Machine
end

