-- ==== Sys2Proof/Machine/Commands.lean ====
section
/-! DEFINITION. The commands of a session (R397, R402, R414, R437 to R442). -/

namespace Sys2Proof.Machine

open Sys2Proof

/-! ### Control space, telemetry and the fault ledger -/

/-- A span that READ and WRITE may name (R437, R481). -/
def spanOk (addr len : Nat) : Bool :=
  decide (4 ≤ len) && decide (len ≤ 8192) && decide (len % 4 = 0) && decide (addr % 4 = 0) && decide (addr + len ≤ 0x4000_0000)

def execRead (hd : CmdHdr) (addr : Nat) (len : Nat) (s : State) : Res :=
  s.command hd 12 false (spanOk addr len) true fun id req s =>
    (s.ctlTouch addr len).respond id req 0 0 (s.ctlBytes addr len)

def execWrite (hd : CmdHdr) (addr : Nat) (data : List Byte) (s : State) : Res :=
  s.command hd (12 + data.length) false (spanOk addr data.length) true fun id req s =>
    (s.ctlWrite .host addr data).respond id req 0 0 []

def execTelemetry (hd : CmdHdr) (s : State) : Res :=
  s.command hd 0 true true true fun id req s => s.respond id req 0 0 s.power.telemetry

/-- The n-th entry of the ledger, where it is still held (R373). -/
def State.ledgerEntry (s : State) (n : Nat) : Option LedgerEntry :=
  let count := s.recov.ledgerCount.toNat
  if n < count ∧ count ≤ n + 1024 then s.recov.ledger.get? (n % 1024) else none

def execFaultlog (hd : CmdHdr) (first : Nat) (count : Nat) (s : State) : Res :=
  s.command hd 10 true (decide (1 ≤ count) && decide (count ≤ 64)) true fun id req s =>
    s.respond id req 0 0 (beBytes 8 s.recov.ledgerCount.toNat ++
      ((List.range count).filterMap fun k => s.ledgerEntry (first + k)).flatMap entryBytes)

/-! ### Wear (R397 to R402) -/

/-- The key of a retired row that a ledger lists, and whether its reserved bits are zero. -/
def ledgerRow (w : Nat) : Nat := rowKey (w / 2 ^ 21 % 4) ⟨w / 2 ^ 18 % 8, w / 2 ^ 13 % 32, w % 8192⟩

/-- The checks on a wear ledger. -/
def State.ledgerGood (s : State) (b : List Byte) : Bool :=
  let n := leAt b 744 4
  let zero (o len : Nat) : Bool := (slice b o len).all fun x => decide (x = 0)
  decide (752 ≤ b.length) && decide (leAt b 0 4 = 0x4C575841) && decide (leAt b 4 1 = 1) && decide (leAt b 5 1 = 1)
    && zero 6 2 && zero 161 3 && zero 748 4 && decide (n ≤ 55040) && decide (b.length = 848 + 4 * n)
    && ((List.range n).all fun k => decide (leAt b (752 + 4 * k) 4 < 2 ^ 23))
    && decide (slice b 32 48 = s.fuses.deviceId)
    && Config.verifies s.fuses.publicKey (b.take (752 + 4 * n)) (b.drop (752 + 4 * n))

/-- A signed number from its field of 32 bits. -/
def signed32 (n : Nat) : Int := if n < 2 ^ 31 then n else (n : Int) - 2 ^ 32

/-- The voltages follow a plan that raised them at the current point. -/
def State.followPlan (s : State) : State :=
  let p := s.voltPoint
  if s.power.setCore ≠ s.setCore p ∨ s.power.setDep ≠ s.setDep p then s.writeVolts p else s

/-- A ledger that is accepted. -/
def State.takeLedger (s : State) (b : List Byte) : State :=
  let w := s.power
  let volts (o : Nat) (m : SMap Nat) : SMap Nat :=
    (List.range 8).foldl (fun m p => m.upd p 0 fun x => Nat.max x (leAt b (o + 2 * p) 2)) m
  let hours := leAt b 16 8
  let s1 := { s with
    power := { w with
      ledgerSeq := BitVec.ofNat 64 (leAt b 8 8), hours := BitVec.ofNat 64 hours, opCycles := 0, hoursPlanned := hours / 3600000,
      retired := w.retired ||| BitVec.ofNat 8 (leAt b 160 1), wearCore := volts 128 w.wearCore, wearDep := volts 144 w.wearDep,
      marginLife := Nat.max w.marginLife (leAt b 164 4),
      mon := (List.range 144).foldl (fun m k => m.set k (signed32 (leAt b (168 + 4 * k) 4))) w.mon,
      ledgerOk := true, fresh := false, replanning := false },
    hbm := { s.hbm with retired := (List.range (leAt b 744 4)).foldl (fun m k =>
      m.set (ledgerRow (leAt b (752 + 4 * k) 4)) true) s.hbm.retired } }
  s1.replan.followPlan

/-- The device starts fresh: its re-plan waits for 64 samples. -/
def State.startFresh (s : State) : State :=
  ({ s with power := { s.power with hours := 0, opCycles := 0, hoursPlanned := 0, ledgerOk := true, fresh := true, replanning := true } }).retirePoints.followPlan

/-- WEAR_PUT and WEAR_NONE are legal until one of them has been taken (R434). -/
def State.mayWear (s : State) : Bool := decide (s.dev = .loaded) && !s.power.ledgerOk

def execWearPut (hd : CmdHdr) (ledger : List Byte) (s : State) : Res :=
  s.command hd ledger.length false true s.mayWear fun id req s =>
    if s.ledgerGood ledger then (s.takeLedger ledger).respond id req 0 0 [1] else s.startFresh.respond id req 0 0 [0]

def execWearNone (hd : CmdHdr) (s : State) : Res :=
  s.command hd 0 false true s.mayWear fun id req s => s.startFresh.respond id req 0 0 []

/-- A device without its identity key signs nothing, and no session of it is open (R450). -/
def execWearEmit (hd : CmdHdr) (s : State) : Res :=
  s.command hd 0 false true true fun id req s =>
    let s1 := s.emitLedger
    s1.respond id req 0 0 (beBytes 8 s1.power.ledgerSeq.toNat ++ beBytes 4 s1.power.ledgerSize)

def execWearGet (hd : CmdHdr) (offset : Nat) (len : Nat) (s : State) : Res :=
  s.command hd 8 false
    (decide (1 ≤ len) && decide (len ≤ 8192) && decide (offset + len ≤ s.power.lastLedger.length)) true fun id req s =>
      s.respond id req 0 0 (slice s.power.lastLedger offset len)

/-- The 32 WEAR bytes of a ledger. -/
def State.wearBytes (s : State) : List Byte :=
  ((List.range 8).flatMap fun p => leBytes 2 (s.power.wearCore.get p 0)) ++
    (List.range 8).flatMap fun p => leBytes 2 (s.power.wearDep.get p 0)

def execReplan (hd : CmdHdr) (s : State) : Res :=
  s.command hd 0 false true true fun id req s =>
    let s1 := s.replan
    s1.respond id req 0 0 s1.wearBytes

/-! ### Segment map, time tree, routes, keys -/

def execMap (hd : CmdHdr) (entries : List MapEntry) (s : State) : Res :=
  if !s.hbm.held.isEmpty then .next s
  else s.command hd (8 + 16 * entries.length) false
    (decide (1 ≤ entries.length) && decide (entries.length ≤ 1000) && entries.all fun e => decide (e.seg < 2 ^ 22)) true
    fun id req s => if s.power.ledgerOk then s.mapRun id req entries 0 else s.respond id req 4 0 []

/-- A Caravan port, or 0xFF for none. -/
def parentOk (p : Nat) : Bool := decide (p < 16) || decide (p = 0xFF)

/-- The time tree of R228. -/
def Clock.setTree (c : Clock) (root : Bool) (parent alt1 alt2 : Nat) : Clock :=
  let has := !root && decide (parent < 16)
  { c with
    root := root, hasParent := has, parentPort := if has then BitVec.ofNat 4 parent else 0,
    alternates := if root then [] else [alt1, alt2].filter fun p => decide (p < 16),
    hops := 0, calm := 0, thetas := [], settled := root }

def execTime (hd : CmdHdr) (root : Bool) (parent alt1 alt2 : Nat) (s : State) : Res :=
  s.command hd 4 false (parentOk parent && parentOk alt1 && parentOk alt2) s.dev.loads fun id req s =>
    ({ s with clock := s.clock.setTree root parent alt1 alt2 }).respond id req 0 0 []

def execRoute (hd : CmdHdr) (ports : BitVec 16) (hops : Nat) (s : State) : Res :=
  s.command hd 3 false (decide (1 ≤ hops) && decide (hops ≤ 64)) s.dev.loads fun id req s =>
    ({ s with cv := { s.cv with routePorts := ports, routeHops := hops } }).respond id req 0 0 []

def execObservers (hd : CmdHdr) (keys : List (List Byte)) (s : State) : Res :=
  s.command hd (1 + 48 * keys.length) false (decide (keys.length ≤ 8) && keys.all fun k => decide (k.length = 48)) true
    fun id req s => ({ s with tether := { s.tether with observers := keys } }).respond id req 0 0 []

/-- RELEASE answers, then ends every session (R429, R430). -/
def execRelease (hd : CmdHdr) (s : State) : Res :=
  s.command hd 0 false true true fun id req s =>
    ({ s with tether := { s.tether with ownerKey := List.replicate 48 0, observers := [], group := 0 } }.respond id req 0 0 []).endSessions
      fun _ => true

/-- An association in its direction: two at once on the receive side, one on the transmit side. -/
def HPort.install (p : HPort) (m : MacsecBody) : HPort :=
  let other := p.assocs.filter fun a => decide (a.body.transmit ≠ m.transmit)
  let same := p.assocs.filter fun a => decide (a.body.transmit = m.transmit) && decide (a.body.an ≠ m.an)
  let all := if m.enable then same ++ [⟨m⟩] else same
  { p with assocs := other ++ all.drop (all.length - (if m.transmit then 1 else 2)) }

def execMacsec (hd : CmdHdr) (m : MacsecBody) (s : State) : Res :=
  s.command hd 56 false (decide (m.port < 8) && decide (m.an < 4)) true fun id req s =>
    (s.modHport m.port fun p => p.install m).respond id req 0 0 []

/-- FW_MIN_SVN is a thermometer of 64 fuses (R380). -/
def execSvn (hd : CmdHdr) (new : Nat) (s : State) : Res :=
  s.command hd 1 false (decide (new < 256)) (decide (s.dev = .loaded)) fun id req s =>
    if s.base.svn < new then s.respond id req 3 1 []
    else
      let v := Nat.max s.fuses.minSvn (Nat.min new 64)
      ({ s with fuses := { s.fuses with minSvn := v } }).respond id req 0 0 [BitVec.ofNat 8 v]

/-! ### Queue pairs (R416, R417, R420, R442) -/

/-- Whether the fields of QP_OPEN are in range. -/
def QpBody.ok (q : QpBody) : Bool :=
  decide (q.port < 8) && decide (3 ≤ q.mtu) && decide (q.mtu ≤ 5) && decide (q.qpn < 2 ^ 32) && decide (q.tile < 256)
    && (!q.chan || (decide (q.ch < 16) && decide (q.tollGs < 4096))) && decide (q.rqpn < 2 ^ 32) && decide (q.rpsn < 2 ^ 24)
    && decide (q.base < 2 ^ 64) && decide (q.len < 2 ^ 64)

/-- The inbound channel that a queue pair asks for. -/
def State.chanOf (s : State) (tile ch : Nat) : Option Chan :=
  match s.physicalOf tile with
  | some n => (s.tile n).ch.get? ch
  | none => none

/-- Whether a binding meets R420. -/
def State.bindOk (s : State) (q : QpBody) : Bool :=
  match s.chanOf q.tile q.ch with
  | some c =>
    let full (g : Nat) : Bool := decide ((s.gsem g).mode = .counter) && decide ((s.gsem g).value = c.size)
    s.image.isSome && c.valid && decide (c.src = 1) && decide (c.sender.toNat % 2 ^ 24 = q.qpn) && full q.tollGs
      && (match (s.senders.get (16 * q.tile + q.ch) {}).tollGs with
        | some g => decide ((s.gsem g).value = c.size)
        | none => true)
  | none => false

/-- The entry of an open queue pair, by its number. -/
def State.qp? (s : State) (qpn : Nat) : Option (Nat × Qp) := s.qps.find? fun (x : Nat × Qp) => decide (x.2.body.qpn = qpn)

/-- Why QP_OPEN is refused. -/
def State.qpRefusal (s : State) (q : QpBody) : Option Nat :=
  if q.qpn < 2 ∨ 2 ^ 24 ≤ q.qpn ∨ (s.qp? q.qpn).isSome then some 1
  else if 1024 ≤ s.qps.length then some 2
  else if q.base % 2 ^ 19 ≠ 0 ∨ q.len % 2 ^ 19 ≠ 0 ∨ hbmSpace < q.base + q.len ∨ !(s.unmappedIn q.base q.len).isEmpty then some 3
  else if q.chan ∧ !s.bindOk q then some 4
  else none

/-- The lowest free entry (R449). -/
def State.freeEntry (s : State) : Nat := ((List.range 1024).find? fun i => (s.qps.get? i).isNone).getD 0

/-- A queue pair that opens; RKEY and PSN are open (R417, R437). -/
def State.openQp (s : State) (q : QpBody) : Nat × Nat × State :=
  let (v, s1) := s.fresh
  let rkey := v % 2 ^ 32
  let psn := v / 2 ^ 32 % 2 ^ 24
  let key := 16 * q.tile + q.ch
  (rkey, psn, { s1 with
    qps := s1.qps.set s1.freeEntry { body := q, rkey := rkey, psn := psn },
    senders := if q.chan then s1.senders.upd key {} fun x => { x with tollGs := some q.tollGs } else s1.senders })

def execQpOpen (hd : CmdHdr) (q : QpBody) (s : State) : Res :=
  s.command hd 56 false (QpBody.ok q) true fun id req s =>
    match s.qpRefusal q with
    | some c => s.respond id req 3 c []
    | none =>
      let (rkey, psn, s1) := s.openQp q
      s1.respond id req 0 0 (beBytes 4 rkey ++ beBytes 4 psn)

def execQpClose (hd : CmdHdr) (qpn : Nat) (s : State) : Res :=
  s.command hd 4 false (decide (qpn < 2 ^ 32)) true fun id req s =>
    match s.qp? qpn with
    | some x => ({ s with qps := s.qps.erase x.1 }).respond id req 0 0 []
    | none => s.respond id req 3 1 []

/-! ### LOAD (R189, R398, R402, R439, R508) -/

def LoadBody.ok (b : LoadBody) : Bool :=
  decide (b.position < 65536) && decide (b.bind.length ≤ 1024) && decide (b.repair.length ≤ 200)
    && (b.repair.all fun n => decide (n < 200)) && decide (b.imageBase % 2 ^ 19 = 0) && decide (b.imageBase < 2 ^ 64)
    && decide (b.imageSize < 2 ^ 64)

/-- What an accepted load leaves of the recovery unit: its counters, its ledger, REC_STEP and the repair candidate. -/
def Recovery.loaded (r : Recovery) : Recovery :=
  { r.warm with ledger := r.ledger, mirror := r.mirror, recStep := r.recStep, candValid := r.candValid, cand := r.cand }

/-- An accepted load, beyond the image itself: bound queue pairs are closed and there is no team. -/
def State.afterLoad (s : State) : State :=
  ({ s with
    qps := s.qps.filter fun (x : Nat × Qp) => !x.2.body.chan, senders := [], startAt := 0,
    recov := s.recov.loaded }.setRole).enter .ready .none 0

def State.load (s : State) (b : LoadBody) (id req : Nat) : State :=
  if !s.power.ledgerOk then s.respond id req 4 0 []
  else if s.power.worn then
    let (v, s1) := s.fresh
    ({ s1 with loadCode := v % 256 }).respond id req 3 (v % 256) (beBytes 8 s1.loadWhere.toNat)
  else
    match s.loadImage b.position b.imageBase b.imageSize b.bind b.repair 0 with
    | (s1, some r) => s1.respond id req 3 r.code (beBytes 8 s1.loadWhere.toNat)
    | (s1, none) =>
      let (failed, s2) := s1.stepSeven
      (if failed then (({ s2 with recov := s2.recov.loaded }).enter .faulted .none 0).notify 13 0 else s2.afterLoad).respond
        id req 0 0 []

def execLoad (hd : CmdHdr) (b : LoadBody) (s : State) : Res :=
  s.command hd (24 + 8 * b.bind.length + b.repair.length) false (LoadBody.ok b) s.dev.loads fun id req s => s.load b id req

/-! ### TEAM and START (R192, R193, R337, R338, R440) -/

/-- The length of a TEAM body. -/
def TeamBody.bytes (b : TeamBody) : Nat :=
  64 + 16 * b.holders.length + (b.arms.map fun a => 8 + 8 * a.bind.length).foldl (· + ·) 0 + b.repair.length

def TeamBody.rangeOk (b : TeamBody) : Bool :=
  let seg (x : Nat) : Bool := decide (x % 2 ^ 19 = 0) && decide (x < 2 ^ 64)
  decide (b.team < 65536) && decide (b.self < 65536) && decide (b.logsteps < 256) && decide (1 ≤ b.npos) && decide (b.npos ≤ 64)
    && seg b.cairnBase && seg b.cairnSize && seg b.logBase && seg b.logSize && decide (b.repair.length ≤ 200)
    && (b.repair.all fun n => decide (n < 200))
    && (b.holders.all fun h => decide (h.position < 65536) && decide (h.holders.length ≤ 4)
      && (decide (b.nspare = 0) || decide (1 ≤ h.holders.length)))
    && (b.arms.all fun a => decide (a.bind.length ≤ 1024))
    && (b.spare || (b.arms.isEmpty && decide (b.imageBase = 0) && decide (b.imageSize = 0)))

/-- Why TEAM is refused. -/
def State.teamRefusal (s : State) (b : TeamBody) : Option Nat :=
  if 64 < b.npos + b.nspare then some 1
  else if !TeamBody.rangeOk b then some 2
  else if b.spare ≠ decide (s.dev = .loaded) ∨ (!b.spare ∧ b.self ≠ s.position) then some 3
  else if b.spare ∧ (b.imageBase % 2 ^ 19 ≠ 0 ∨ hbmSpace < b.imageBase + b.imageSize
      ∨ !(s.unmappedIn b.imageBase b.imageSize).isEmpty) then some 4
  else none

def State.joinTeam (s : State) (b : TeamBody) : State :=
  let s1 := ({ s with recov := { s.recov with team := some b } }).setRole
  if b.spare then s1.enter .armed .none 0 else s1

def execTeam (hd : CmdHdr) (b : TeamBody) (s : State) : Res :=
  s.command hd (TeamBody.bytes b) false (decide (b.holders.length = b.npos))
    (decide (s.dev = .loaded) || decide (s.dev = .ready)) fun id req s =>
      match s.teamRefusal b with
      | some c => s.respond id req 3 c []
      | none => (s.joinTeam b).respond id req 0 0 []

/-- The bytes of the cairn and of the log that this position must hold (R351, R357). -/
def State.cairnNeed (s : State) : Nat :=
  ((s.ownersOf s.position).map fun p => (s.asOwner p).slotCount s.position * (s.asOwner p).slotSize).foldl (· + ·) 0
def State.logNeed (s : State) : Nat :=
  ((s.ownersOf s.position).map fun p => s.logSteps * (s.asOwner p).pageSize s.position).foldl (· + ·) 0

/-- Whether an array of `len` bytes from field `f` has a byte in a region (R319). -/
def arrayMeets (f len base size : Nat) : Bool :=
  (List.range ((len + 2 ^ 19 - 1) / 2 ^ 19)).any fun i =>
    let a := f + i * 2 ^ 21
    decide (a < base + size) && decide (base < a + Nat.min (2 ^ 19) (len - i * 2 ^ 19)) && decide (0 < size)

def State.regionMeets (s : State) (base size : Nat) : Bool :=
  s.upds.any fun d => (s.arraysOf d 0 ++ s.arraysOf d 1).any fun a => arrayMeets a.1 a.2 base size

/-- Why a team with spares may not start (R338). -/
def State.teamFails (s : State) : Bool :=
  match s.recov.team with
  | none => false
  | some t =>
    let positions := t.holders.map HolderRow.position
    decide (0 < t.nspare) && (
      (t.holders.any fun h => h.holders.any fun x => decide (x = h.position) || decide (x ∉ positions))
      || (s.upds.any fun d => !d.pingpong) || (s.reds.any fun r => r.log && decide (r.dispose ≠ 1))
      || decide (t.logsteps < (s.image.map Image.cairnEvery).getD 64)
      || decide (t.cairnSize < s.cairnNeed) || decide (t.logSize < s.logNeed)
      || s.regionMeets t.cairnBase t.cairnSize || s.regionMeets t.logBase t.logSize
      || decide (hbmSpace < t.cairnBase + t.cairnSize) || !(s.unmappedIn t.cairnBase t.cairnSize).isEmpty
      || decide (hbmSpace < t.logBase + t.logSize) || !(s.unmappedIn t.logBase t.logSize).isEmpty)

/-- The run begins at a counter: the rows wait for the instant. -/
def State.beginRun (s : State) (at_ : Nat) (step : W64) : State :=
  let rows := (s.image.map Image.rows).getD 0
  let s1 := { s with
    step := step, startAt := BitVec.ofNat 64 at_, rowsDue := List.range rows,
    redSeq := seqStart s.reds step.toNat,
    recov := { s.recov with
      prot := match s.recov.team with
        | some t => decide (0 < t.nspare)
        | none => false } }
  ((s1.setRole).openRun step).enter .running .none step

def execStart (hd : CmdHdr) (at_ : Nat) (step : W64) (s : State) : Res :=
  s.command hd 16 false (decide (at_ < 2 ^ 64)) (decide (s.dev = .ready)) fun id req s =>
    if at_ < s.now + 1000000 then s.respond id req 3 1 []
    else if s.teamFails then s.respond id req 3 2 []
    else (s.beginRun at_ step).respond id req 0 0 []

/-! ### HALT, RESUME and RESET (R441) -/

/-- A device that is its own lead, or has none, acts at once; another passes the command on and waits. -/
def State.ownLead (s : State) : Bool := s.isLead || s.recov.team.isNone

def execHalt (hd : CmdHdr) (s : State) : Res :=
  s.command hd 0 false true s.dev.inRun fun id req s =>
    if s.dev = .halted ∨ s.dev = .faulted then s.respond id req 0 0 (beBytes 8 s.recov.recStep.toNat)
    else
      let s1 := { s with recov := { s.recov with haltReply := s.recov.haltReply ++ [(id, req)] } }
      if s1.ownLead then s1.leadHalt
      else match s1.leadPos with
        | some l => s1.sendMgmt l 0x03 [BitVec.ofNat 64 s1.teamNo, s1.step, 0]
        | none => s1.leadHalt

def execResume (hd : CmdHdr) (s : State) : Res :=
  s.command hd 0 false true (decide (s.dev = .halted) || decide (s.dev = DevSt.faulted)) fun id req s =>
    if s.dev = .halted ∧ (s.reason = .host ∨ s.reason = .hbm) then
      let s1 := { s with recov := { s.recov with resumeReply := s.recov.resumeReply ++ [(id, req)] } }
      if s1.ownLead then s1.leadResume
      else match s1.leadPos with
        | some l => (if s1.recov.halted then s1.resolveUnits else s1).sendMgmt l 0x09 [BitVec.ofNat 64 (s1.teamNo + s1.recov.runAlt * 2 ^ 16), s1.recov.recStep, 0, 0]
        | none => s1.leadResume
    else s.respond id req 3 1 []

/-- INDEX within its KIND. -/
def resetOk (kind index : Nat) : Bool :=
  match kind with
  | 0 => true
  | 1 => decide (index < 200)
  | 2 => decide (index < 8)
  | 3 => decide (index < 4)
  | 4 => decide (index < 16)
  | 5 => decide (index < 8)
  | _ => false

def execReset (hd : CmdHdr) (kind : Nat) (index : Nat) (s : State) : Res :=
  s.command hd 2 false (resetOk kind index) true fun id req s =>
    let s1 := s.respond id req 0 0 []
    if kind = 0 then { s1 with rst := { s1.rst with warmPending := true } } else s1.askBlock ⟨kind, index⟩

end Sys2Proof.Machine
end

