-- ==== Sys2Proof/Machine/Roce.lean ====
section
/-! DEFINITION. The RoCEv2 responder, and the frames and links of the host ports (R409 to R420). -/

namespace Sys2Proof.Machine

open Sys2Proof

/-! ### Queue pairs (R415 to R420) -/

def State.modQp (s : State) (e : Nat) (f : Qp → Qp) : State :=
  match s.qps.get? e with
  | some q => { s with qps := s.qps.set e (f q) }
  | none => s

/-- The QP event: QPN, SYNDROME, OFFSET. -/
def State.qpEvent (s : State) (qpn syndrome offset : Nat) : State :=
  s.raise 8 (beBytes 4 qpn ++ [BitVec.ofNat 8 syndrome, 0, 0, 0] ++ beBytes 8 offset)

/-- The same for a syndrome that names no offset: OFFSET is open (log 37). -/
def State.qpEventAnon (s : State) (qpn syndrome : Nat) : State :=
  let (v, s1) := s.fresh
  s1.qpEvent qpn syndrome (v % 2 ^ 64)

/-- A packet put out by a queue pair. -/
def State.qpOut (s : State) (q : Qp) (o : Output) : State := s.putOut q.body.port o

/-- A NAK with the syndromes of the InfiniBand transport: 0x61 invalid request, 0x62 remote access, 0x63 remote operational;
the queue pair enters the error state. -/
def State.qpNak (s : State) (e : Nat) (q : Qp) (syndrome : Nat) : State :=
  ((s.modQp e fun x => { x with st := .error }).modHport q.body.port fun p => { p.count hpRoceNaks 1 with errQp := true }).qpOut q
    (.roceNak q.body.qpn syndrome)

/-- A packet is discarded and counted on a port; of a queue pair that is not open, the port is not known here (log 38). -/
def State.roceDrop (s : State) (port : Nat) : State := s.modHport port fun p => p.count hpRoceDrops 1
def State.roceDropAny (s : State) : State :=
  let (v, s1) := s.fresh
  if s.rst.warm then s1.warmDrop (v % 8) 1 else (s1.gotFrames (v % 8) 1).roceDrop (v % 8)

/-- A packet on a queue pair: dropped where it is not open or in the error state, else handled. -/
def State.onQp (s : State) (qpn frames : Nat) (f : Nat → Qp → State → State) : State :=
  if s.dev = .off then s
  else match s.qp? qpn with
    | none => s.roceDropAny
    | some (e, q) =>
      let s1 := s.gotFrames q.body.port frames
      if q.st = .error then s1.roceDrop q.body.port else f e q s1

/-- An RNR NAK with timer code 1. -/
def State.rnr (s : State) (q : Qp) : State :=
  (s.modHport q.body.port fun p => p.count hpRnrNaks 1).qpOut q (.roceNak q.body.qpn 0x21)

/-- An invalid request (R415). -/
def State.qpInvalid (s : State) (e : Nat) (q : Qp) : State := (s.qpNak e q 0x61).qpEventAnon q.body.qpn 2

/-- A SEND on a channel that is BROKEN: acknowledged, discarded; the first one raises an event (R420). -/
def State.sendBroken (s : State) (e : Nat) (q : Qp) : State :=
  let s1 := (s.modQp e fun x => { x with discarded := x.discarded + 1 }).qpOut q (.roceAck q.body.qpn)
  if q.discarded = 0 then s1.qpEventAnon q.body.qpn 4 else s1

/-- A message on its way to its channel: the effect of R163 with TOLL_GS as the toll semaphore. -/
def State.sendHost (s : State) (e : Nat) (q : Qp) (size : Nat) (data : List Byte) : State :=
  let b := q.body
  let key := 16 * b.tile + b.ch
  let h := s.senders.get key {}
  let len := data.length / 64
  let o : OPort := { size := size, wrPos := h.w }
  let (need, at_, pad) := o.plan len
  let g := s.gsem b.tollGs
  if g.value < need then s.rnr q
  else
    let m : InMsg := ⟨some (200 + key), b.tile, b.ch, h.seq.toNat, pad, h.w, at_, bytesGrans (16 * len) (clean data)⟩
    let s1 := s.setGsem b.tollGs (g.sub need)
    let s2 := { s1 with
      net := s1.net ++ [NetPkt.msg m],
      senders := s1.senders.set key { h with w := if size = 0 then 0 else (at_ + len) % size, seq := h.seq + 1 } }
    (s2.modQp e fun x => { x with delivered := x.delivered + 1 }).qpOut q (.roceAck b.qpn)

def State.roceSend (s : State) (e : Nat) (q : Qp) (data : List Byte) : State :=
  if !q.body.chan ∨ data.length % 64 ≠ 0 ∨ data.length = 0 ∨ 256 < data.length then s.qpInvalid e q
  else if s.dev = .recovering ∨ s.dev = .halted then s.rnr q
  else if q.st = .broken then s.sendBroken e q
  else match s.chanOf q.body.tile q.body.ch with
    | some c => s.sendHost e q c.size data
    | none => s.roceDrop q.body.port

def execRoceSend (qpn : Nat) (data : List Byte) (s : State) : Res :=
  .next (s.onQp qpn 1 fun e q s => s.roceSend e q data)

/-- Whether an access stays within the queue pair's window under its key (R417). -/
def Qp.inWindow (q : Qp) (rkey va len : Nat) : Bool :=
  decide (rkey = q.rkey) && decide (q.body.base ≤ va) && decide (va + len ≤ q.body.base + q.body.len)

/-- The packets of a message of this length at the path MTU. -/
def Qp.packets (q : Qp) (len : Nat) : Nat :=
  let mtu := if q.body.mtu = 3 then 1024 else if q.body.mtu = 4 then 2048 else 4096
  Nat.max 1 ((len + mtu - 1) / mtu)

def State.qpDenied (s : State) (e : Nat) (q : Qp) (va : Nat) : State := (s.qpNak e q 0x62).qpEvent q.body.qpn 1 va

def execRdmaWrite (qpn : Nat) (rkey : Nat) (va : Nat) (data : List Byte) (s : State) : Res :=
  let frames := match s.qp? qpn with
    | some (_, q) => q.packets data.length
    | none => 1
  .next (s.onQp qpn frames fun e q s =>
    if q.inWindow rkey va data.length then (s.hbmWrite va (clean data) true).qpOut q (.roceAck qpn)
    else s.qpDenied e q va)

/-- A read answers with its bytes, unless a unit of them is poisoned (R420). -/
def State.rdmaRead (s : State) (e : Nat) (q : Qp) (va len : Nat) : State :=
  let s1 := s.hbmTouch va len true
  let b := s1.hbmBytes va len
  match b.findIdx? fun x => x.2 with
  | some i => (s1.qpNak e q 0x63).qpEvent q.body.qpn 3 ((va + i) / 64 * 64)
  | none =>
    ((s1.emit (.readResponse q.body.qpn (b.map Prod.fst))).sentFrames q.body.port (q.packets len))

def execRdmaReadRequest (qpn : Nat) (rkey : Nat) (va : Nat) (len : Nat) (s : State) : Res :=
  .next (s.onQp qpn 1 fun e q s => if q.inWindow rkey va len then s.rdmaRead e q va len else s.qpDenied e q va)

def execInvalidRequest (qpn : Nat) (s : State) : Res := .next (s.onQp qpn 1 fun e q s => s.qpInvalid e q)

/-- A congestion notification: what it slows is time (R411). -/
def execCnp (qpn : Nat) (s : State) : Res :=
  .next (s.onQp qpn 1 fun e _ s => s.modQp e fun x => { x with cnps := x.cnps + 1 })

/-! ### Priority flow control (R411) -/

/-- A pause of the RoCEv2 priority in quanta; how many depot cycles it lasts is open (log 39). -/
def execPfcFrame (port : Nat) (pause : Nat) (s : State) : Res :=
  let s1 := s.gotFrames port 1
  .next (if s.dev = .off ∨ s.rst.warm then s.warmDrop port 1
    else if (s.hport port).pfc then
      let (v, s2) := s1.fresh
      s2.modHport port fun p => { p.count hpPfcPaused (if pause = 0 then 0 else v % 2 ^ 32) with paused := pause }
    else s1)

/-! ### IPv6 (R412) -/

/-- The interface identifier by modified EUI-64, and the link-local address. -/
def State.eui64 (s : State) (h : Nat) : Nat :=
  let m := (s.fuses.macBase.toNat + h) % 2 ^ 48
  let top := m / 2 ^ 24
  let flipped := if top / 2 ^ 17 % 2 = 0 then top + 2 ^ 17 else top - 2 ^ 17
  flipped * 2 ^ 40 + 0xFFFE * 2 ^ 24 + m % 2 ^ 24

def State.linkLocal (s : State) (h : Nat) : BitVec 128 := BitVec.ofNat 128 (0xFE80 * 2 ^ 112 + s.eui64 h)
def State.globalAddr (s : State) (h : Nat) (pfx : BitVec 64) : BitVec 128 := BitVec.ofNat 128 (pfx.toNat * 2 ^ 64 + s.eui64 h)

/-- The addresses that a port holds. -/
def State.addresses (s : State) (h : Nat) : List (BitVec 128) := s.linkLocal h :: (s.hport h).gaddrs.map (s.globalAddr h)

/-- The solicited-node group of an address, and the group of all nodes. -/
def solicitedNode (a : BitVec 128) : BitVec 128 := BitVec.ofNat 128 (0xFF02 * 2 ^ 112 + 0x1FF * 2 ^ 24 + a.toNat % 2 ^ 24)
def allNodes : BitVec 128 := BitVec.ofNat 128 (0xFF02 * 2 ^ 112 + 1)

/-- A discard that counts in OTHER_DROPS. -/
def State.otherDrop (s : State) (h : Nat) : State := s.modHport h fun p => p.count hpOtherDrops 1

/-- A new address is checked for duplicates and its solicited-node group reported. -/
def State.announce (s : State) (h : Nat) (a : BitVec 128) : State :=
  (s.putOut h (.mld h (solicitedNode a))).putOut h (.solicit h a)

/-- A router's prefix gives one more global address, up to 4. -/
def execRouterAdvertisement (port : Nat) (pfx : BitVec 64) (s : State) : Res :=
  let s1 := s.gotFrames port 1
  .next (if s.dev = .off ∨ s.rst.warm then s.warmDrop port 1
    else if (s.hport port).gaddrs.length < 4 ∧ pfx ∉ (s.hport port).gaddrs then
      (s1.modHport port fun p => { p with gaddrs := p.gaddrs ++ [pfx] }).announce port (s.globalAddr port pfx)
    else s1)

/-- A solicitation for an address of the port is answered; one that only shares its group is not, any other is dropped. -/
def execNeighbourDiscovery (port : Nat) (target : BitVec 128) (_dad : Bool) (s : State) : Res :=
  let s1 := s.gotFrames port 1
  let mine := s.addresses port
  .next (if s.dev = .off ∨ s.rst.warm then s.warmDrop port 1
    else if target ∈ mine then s1.putOut port (.neighbour port target)
    else if mine.any fun a => decide (solicitedNode a = solicitedNode target) then s1
    else s1.otherDrop port)

def execIcmpv6Echo (port : Nat) (dst : BitVec 128) (payload : List Byte) (s : State) : Res :=
  let s1 := s.gotFrames port 1
  .next (if s.dev = .off ∨ s.rst.warm then s.warmDrop port 1
    else if dst ∈ allNodes :: s.addresses port then s1.putOut port (.echo port payload)
    else s1.otherDrop port)

/-! ### Links and discards (R410, R412 to R416, R421, R422) -/

/-- The speed at which a port comes up: the forced one, else what both partners offer. -/
def HPort.upSpeed (p : HPort) (offered : Nat) : Nat :=
  if 1 ≤ p.speed ∧ p.speed ≤ 3 then p.speed else if 1 ≤ offered ∧ offered ≤ 3 then offered else 0

/-- A link comes up where the port is enabled and, in the boot ROM, is port 0 or 4 (R378). -/
def execHostLinkChange (port : Nat) (up : Bool) (speed : Nat) (s : State) : Res :=
  .next (if s.dev = .off then s
    else if !up then s.hostLinkDown port
    else
      let p := s.hport port
      let v := p.upSpeed speed
      if p.up ∨ !p.enable ∨ v = 0 ∨ (s.dev = .rom ∧ !s.rst.warm ∧ s.rst.cold ∧ port ≠ 0 ∧ port ≠ 4) then s
      else ((s.modHport port fun p => { p with up := true, speedNow := v, gaddrs := [] }).announce port (s.linkLocal port)).linkEvent
        1 port 1)

/-- The counter of a discard. -/
def dropCounter (k : DropKind) : Nat :=
  match k with
  | .other => hpOtherDrops
  | .macsec => hpMacsecDrops
  | .roce => hpRoceDrops
  | .tetherVer => hpVerDrops
  | .tetherBad => hpTetherBad
  | .auth => hpAuthDrops

/-- A port discards what it received; an unverified frame or packet also sets its error flag. -/
def execFrameDiscard (port : Nat) (kind : DropKind) (s : State) : Res :=
  .next (if s.dev = .off ∨ s.rst.warm then s.warmDrop port 1
    else if kind = .macsec ∧ !(s.hport port).macsec then s
    else (s.gotFrames port 1).modHport port fun p =>
      { p.count (dropCounter kind) 1 with
        errMacsec := p.errMacsec || decide (kind = .macsec), errAuth := p.errAuth || decide (kind = .auth) })

end Sys2Proof.Machine
end

