-- ==== Sys2Proof/Machine/Waybill.lean ====
section
/-! DEFINITION. Quotes and waybills (R454, R459 to R463). -/

namespace Sys2Proof.Machine

open Sys2Proof

/-! ### QUOTE (R454) -/

/-- Bytes 0 to 399 of a quote. -/
def State.quoteBody (s : State) (nonce : List Byte) : List Byte :=
  let m := s.image
  let dig (f : Image → List Byte) : List Byte := (m.map f).getD (List.replicate 48 0)
  let flags := bitAt m.isSome 0 + bitAt ((m.map Image.relax).getD false) 1 + bitAt ((m.map Image.clsM).getD false) 2
  leBytes 4 0x54515841 ++ [1, 1, BitVec.ofNat 8 s.dev.code, BitVec.ofNat 8 flags] ++ nonce ++ leBytes 8 s.stamp.toNat
    ++ leBytes 8 s.sec.quotes.toNat ++ leBytes 2 s.position
    ++ [s.fuses.grade, s.fuses.stepping, BitVec.ofNat 8 s.base.svn, BitVec.ofNat 8 s.fuses.minSvn, 0, 0]
    ++ s.fuses.deviceId ++ s.fuses.romDigest ++ s.base.fwDigest ++ dig Image.imageDigest ++ dig Image.bindingDigest
    ++ s.sec.tablesDigest ++ s.sec.timetableDigest

def execQuote (hd : CmdHdr) (nonce : List Byte) (s : State) : Res :=
  s.command hd 32 false (decide (nonce.length = 32)) true fun id req s =>
    if s.sec.keyOk then
      let s1 := { s with sec := { s.sec with quotes := s.sec.quotes + 1 } }
      let b := s1.quoteBody nonce
      s1.respond id req 0 0 (b ++ Config.sign b)
    else s

/-! ### Segment records (R462) -/

/-- Bytes 0 to 271 of a segment record. -/
def segmentHead (g : Segment) (signed : Bool) (last : W64) (chainOut : List Byte) (grade stepping : Byte) : List Byte :=
  leBytes 2 g.position ++ leBytes 2 (bitAt signed 0 + bitAt g.takeover 1) ++ leBytes 4 0 ++ leBytes 8 g.first.toNat
    ++ leBytes 8 last.toNat ++ g.device ++ g.fw ++ g.binding ++ g.chainIn ++ chainOut ++ [grade, stepping, 0, 0, 0, 0, 0, 0]

/-- This device's current play of its position. -/
def State.ownSegment (s : State) : Segment :=
  let m := s.image.getD {}
  let x := s.sec
  { position := s.position, device := s.fuses.deviceId, fw := s.base.fwDigest, binding := m.bindingDigest,
    first := x.runFirst, last := x.runLast,
    chainIn := match x.spareChain with
      | some c => c.2
      | none => chainStart m.imageDigest m.bindingDigest s.position x.runFirst,
    takeover := x.spareChain.isSome }

/-- The last step of a segment that a waybill covers, counted from FIRST − 1. -/
def boundLast (first last bound : W64) : W64 := if (last + 1 - first).toNat ≤ (bound + 1 - first).toNat then last else bound

/-- c(s) of this position from the ring. -/
def State.chainAt (s : State) (g : Segment) (step : W64) : List Byte :=
  if step + 1 = g.first then g.chainIn
  else match s.sec.ring.get? (step.toNat % 1024) with
    | some x => if x.1 = step then x.2.2 else s.sec.runChain
    | none => s.sec.runChain

/-- The signed record of this device, its LAST bounded. -/
def State.signedSegment (s : State) (bound : W64) (input : List Byte) : List Byte :=
  let g := s.ownSegment
  let last := boundLast g.first g.last bound
  let head := segmentHead g true last (s.chainAt g last) s.fuses.grade s.fuses.stepping
  head ++ Config.sign ((s.image.getD {}).imageDigest ++ input ++ head)

/-! ### Waybills (R461, R463) -/

/-- A waybill over segment records, with its signature; SERIAL is WAYBILLS after its increment. -/
def State.waybillBytes (s : State) (kind : Nat) (incomplete : Bool) (first last : W64) (input : List Byte) (segs : List (List Byte)) :
    List Byte :=
  let m := s.image.getD {}
  let flags := bitAt m.relax 0 + bitAt s.sec.runOpen 1 + bitAt incomplete 2 + bitAt (decide (kind = 2) && s.sec.truncated) 3
  let body := leBytes 4 0x42575841 ++ [1, 1, BitVec.ofNat 8 kind, BitVec.ofNat 8 flags] ++ leBytes 8 s.sec.waybills.toNat
    ++ leBytes 8 s.stamp.toNat ++ leBytes 2 ((s.recov.team.map TeamBody.team).getD 0) ++ leBytes 2 s.tether.group
    ++ leBytes 4 m.positions ++ leBytes 8 m.seed.toNat ++ leBytes 8 first.toNat ++ leBytes 8 last.toNat
    ++ leBytes 2 segs.length ++ List.replicate 6 0 ++ m.imageDigest ++ input ++ s.fuses.deviceId ++ s.base.fwDigest
    ++ segs.flatMap id
  body ++ Config.sign body

/-- WAYBILLS goes up before a waybill is signed. -/
def State.countWaybill (s : State) : State := { s with sec := { s.sec with waybills := s.sec.waybills + 1 } }

/-- The highest step that the chains of every position reach. -/
def State.commonLast (s : State) : W64 :=
  let heads := s.teamPositions.map fun p => match s.sec.chains.get p [] with
    | x :: _ => x.1
    | [] => s.sec.runFirst - 1
  heads.foldl (fun a b => boundLast s.sec.runFirst a b) s.sec.runLast

/-- The lead asks every other device of the team for its segment; its own it signs at once. The request number is open
(log 40). -/
def State.gather (s : State) (id req : Nat) (input : List Byte) : State :=
  let (v, s1) := s.fresh
  let last := s1.commonLast
  let num : W64 := BitVec.ofNat 64 v
  let s2 := s1.teamDevices.foldl (fun s d => s.sendMgmt d 0x43 ([num, last] ++ digestWords input)) s1
  { s2 with sec := { s2.sec with
      build := some { session := id, req := num, reqSeq := req, last := last, input := input,
                      parts := [s2.signedSegment last input] } } }

/-- WAYBILL (R434, R463). -/
def execWaybill (hd : CmdHdr) (scope : Nat) (inputDigest : List Byte) (s : State) : Res :=
  s.command hd 56 false (decide (scope < 2) && decide (inputDigest.length = 48)) s.dev.inRun fun id req s =>
    if !s.sec.keyOk then s
    else if scope = 0 then
      let s1 := s.countWaybill
      s1.respond id req 0 0
        (s1.waybillBytes 1 false s1.sec.runFirst s1.sec.runLast inputDigest [s1.signedSegment s1.sec.runLast inputDigest])
    else if s.isLead then s.gather id req inputDigest
    else s.respond id req 3 1 []

/-- The words of a segment record in a WB_PART. -/
def partWords (seg : List Byte) : List W64 := (List.range 47).map fun k => BitVec.ofNat 64 (leAt seg (8 * k) 8)

def execWbReq (req : W64) (last : W64) (inputDigest : List Byte) (s : State) : Res :=
  let s1 := s.tookMgmt 0x43 ([req, last] ++ digestWords inputDigest)
  .next (if s1.image.isNone ∨ !s1.sec.keyOk then s1
    else match s1.leadPos with
      | some l => s1.sendMgmt l 0x44 (req :: partWords (s1.signedSegment last inputDigest))
      | none => s1)

def execWbPart (req : W64) (seg : List Byte) (s : State) : Res :=
  let s1 := s.tookMgmt 0x44 (req :: partWords seg)
  .next (match s1.sec.build with
    | some b =>
      if b.req = req ∧ seg.length = 368 then { s1 with sec := { s1.sec with build := some { b with parts := b.parts ++ [seg] } } }
      else s1
    | none => s1)

/-- Segments in ascending position and, within one, in ascending FIRST; the list is kept in ascending FIRST already. -/
def insertSegment (g : Segment) : List Segment → List Segment
  | [] => [g]
  | x :: l => if g.position ≤ x.position then g :: x :: l else x :: insertSegment g l
def sortSegments : List Segment → List Segment
  | [] => []
  | g :: l => insertSegment g (sortSegments l)

/-- c(s) as the lead holds it. -/
def State.leadChainAt (s : State) (g : Segment) (step : W64) : List Byte :=
  if step + 1 = g.first then g.chainIn
  else match (s.sec.chains.get g.position []).find? fun (x : W64 × List Byte) => decide (x.1 = step) with
    | some x => x.2
    | none => g.chainIn

/-- The record of a segment in a team waybill: the device's own where it came, else the lead's, unsigned; the grade and
stepping of another device are not known here (log 30). Answers the record and whether it is signed. -/
def State.segmentRecord (s : State) (b : WbBuild) (g : Segment) (v : Nat) : List Byte × Bool :=
  match b.parts.find? fun p => decide (leAt p 0 2 = g.position) && decide (leAt p 8 8 = g.first.toNat) with
  | some p => (p, true)
  | none =>
    let last := boundLast g.first g.last b.last
    (segmentHead g false last (s.leadChainAt g last) (BitVec.ofNat 8 v) (BitVec.ofNat 8 (v / 256)) ++ List.replicate 96 0, false)

/-- Whether a segment begins within what the waybill covers. -/
def WbBuild.covers (b : WbBuild) (runFirst : W64) (g : Segment) : Bool :=
  decide (g.first = runFirst) || decide ((g.first - runFirst).toNat ≤ (b.last - runFirst).toNat ∧ b.last + 1 ≠ runFirst)

def execWbPartTimeout (s : State) : Res :=
  .next (match s.sec.build with
    | none => s
    | some b =>
      let (v, s1) := s.fresh
      let s2 := s1.countWaybill
      let recs := ((sortSegments s2.sec.segments).filter (b.covers s2.sec.runFirst)).map fun g => s2.segmentRecord b g v
      let bytes := s2.waybillBytes 2 (recs.any fun r => !r.2) s2.sec.runFirst b.last b.input (recs.map Prod.fst)
      ({ s2 with sec := { s2.sec with build := none } }).respond b.session b.reqSeq 0 0 bytes)

end Sys2Proof.Machine
end

