-- ==== Sys2Proof/Machine/Package.lean ====
section
/-! DEFINITION. The package's own interfaces: the SMBus target and JTAG (R500). -/

namespace Sys2Proof.Machine

open Sys2Proof

/-! ### SMBus -/

/-- A word of `w` bits that the target returns. -/
def State.smb (s : State) (w v : Nat) : State := s.emit (.word (BitVec.ofNat 64 (v % 2 ^ w)))

/-- Served whenever power is good. -/
def State.smbAlways (s : State) (w v : Nat) : State := if s.pkg.powerGood then s.smb w v else s

/-- Served by Dormas: all ones while it does not run. -/
def State.smbDormas (s : State) (w v : Nat) : State :=
  if s.pkg.powerGood then s.smb w (if s.base.dormas then v else 2 ^ w - 1) else s

def execSmbChipInfo (s : State) : Res := .next (s.smbAlways 32 s.chipInfo)

/-- The hottest compute-die sensor, signed. -/
def execSmbTemperature (s : State) : Res := .next (s.smbAlways 16 (twos 16 (max s.hottestRow s.power.baseTemp)))

def execSmbPkgStatus (s : State) : Res := .next (s.smbAlways 32 s.pkg.statusWord)

def execSmbDevState (s : State) : Res := .next (s.smbDormas 32 s.devStateWord)

def execSmbResetCause (s : State) : Res := .next (s.smbDormas 32 s.rst.causeWord)

def execSmbPackagePower (s : State) : Res := .next (s.smbDormas 32 s.power.packagePower)

/-! ### JTAG -/

/-- JTAG answers while the rails hold. -/
def State.jtag (s : State) (ir : JtagIr) (out : List Output) : State :=
  if s.pkg.powerGood then { s with pkg := { s.pkg with ir := ir }, out := out ++ s.out } else s

/-- An instruction that takes over pins is unpredictable outside ROM. -/
def State.jtagPins (s : State) (ir : JtagIr) : Res :=
  if !s.pkg.powerGood then .next s else if s.dev = .rom then .next (s.jtag ir []) else .fault .jtagPins

/-- The bypass register is one bit, which starts at 0. -/
def execBypass (s : State) : Res := .next (s.jtag .bypass [.bits [false]])

/-- IDCODE: the stepping's letter above 0xA701C4B. -/
def execIdcode (s : State) : Res :=
  .next (s.jtag .idcode [.word (BitVec.ofNat 64 (s.fuses.stepping.toNat / 16 * 2 ^ 28 + 0xA701C4B))])

/-- The pins are sampled, which this model does not show bit by bit (log 10), and the boundary register is preloaded. -/
def execSamplePreload (shift : List Bool) (s : State) : Res :=
  let (v, s1) := s.fresh
  .next (if s.pkg.powerGood then
    let s2 := s1.jtag .sample [.bits ((List.range shift.length).map fun k => decide (v / 2 ^ k % 2 = 1))]
    { s2 with pkg := { s2.pkg with boundary := shift } }
  else s)

def execExtest (s : State) : Res := s.jtagPins .extest
def execClamp (s : State) : Res := s.jtagPins .clamp
def execHighz (s : State) : Res := s.jtagPins .highz

/-- The pulse and the train of IEEE 1149.6 on the SerDes lanes. -/
def State.jtagPulse (s : State) (ir : JtagIr) : Res :=
  match s.jtagPins ir with
  | .next s1 => .next (if s1.pkg.powerGood then { s1 with pkg := { s1.pkg with pulses := s1.pkg.pulses + 1 } } else s1)
  | r => r

def execExtestPulse (s : State) : Res := s.jtagPulse .extestPulse
def execExtestTrain (s : State) : Res := s.jtagPulse .extestTrain

def execDbgReset (s : State) : Res := .next ((s.jtag .dbgReset []).warmReset 0x08)

end Sys2Proof.Machine
end

