-- ==== Sys2Proof/Machine/Dispatch.lean ====
section
/-! DEFINITION. The effect of each command: one arm per constructor, each one direct call of its meaning. -/

namespace Sys2Proof.Machine

open Sys2Proof

/-- The command's effect on everything but the queue. -/
def exec (i : Instr) (s : State) : Host.Outcome State Fault Refusal :=
  match i with
  | .nop n => Sys2Proof.Machine.execNop n s
  | .add n f => Sys2Proof.Machine.execAdd n f s
  | .sub n f => Sys2Proof.Machine.execSub n f s
  | .and n f => Sys2Proof.Machine.execAnd n f s
  | .or n f => Sys2Proof.Machine.execOr n f s
  | .xor n f => Sys2Proof.Machine.execXor n f s
  | .shl n f => Sys2Proof.Machine.execShl n f s
  | .shr n f => Sys2Proof.Machine.execShr n f s
  | .sar n f => Sys2Proof.Machine.execSar n f s
  | .mul n f => Sys2Proof.Machine.execMul n f s
  | .mulhu n f => Sys2Proof.Machine.execMulhu n f s
  | .divu n f => Sys2Proof.Machine.execDivu n f s
  | .remu n f => Sys2Proof.Machine.execRemu n f s
  | .slt n f => Sys2Proof.Machine.execSlt n f s
  | .sltu n f => Sys2Proof.Machine.execSltu n f s
  | .seq n f => Sys2Proof.Machine.execSeq n f s
  | .min n f => Sys2Proof.Machine.execMin n f s
  | .minu n f => Sys2Proof.Machine.execMinu n f s
  | .max n f => Sys2Proof.Machine.execMax n f s
  | .maxu n f => Sys2Proof.Machine.execMaxu n f s
  | .sel n f => Sys2Proof.Machine.execSel n f s
  | .clz n f => Sys2Proof.Machine.execClz n f s
  | .popc n f => Sys2Proof.Machine.execPopc n f s
  | .addi n f => Sys2Proof.Machine.execAddi n f s
  | .andi n f => Sys2Proof.Machine.execAndi n f s
  | .ori n f => Sys2Proof.Machine.execOri n f s
  | .xori n f => Sys2Proof.Machine.execXori n f s
  | .shli n f => Sys2Proof.Machine.execShli n f s
  | .shri n f => Sys2Proof.Machine.execShri n f s
  | .sari n f => Sys2Proof.Machine.execSari n f s
  | .muli n f => Sys2Proof.Machine.execMuli n f s
  | .slti n f => Sys2Proof.Machine.execSlti n f s
  | .sltiu n f => Sys2Proof.Machine.execSltiu n f s
  | .movi n f => Sys2Proof.Machine.execMovi n f s
  | .movhi n f => Sys2Proof.Machine.execMovhi n f s
  | .fadd n f => Sys2Proof.Machine.execFadd n f s
  | .fsub n f => Sys2Proof.Machine.execFsub n f s
  | .fmul n f => Sys2Proof.Machine.execFmul n f s
  | .ffma n f => Sys2Proof.Machine.execFfma n f s
  | .fmin n f => Sys2Proof.Machine.execFmin n f s
  | .fmax n f => Sys2Proof.Machine.execFmax n f s
  | .fcmp n f => Sys2Proof.Machine.execFcmp n f s
  | .fcvtFi n f => Sys2Proof.Machine.execFcvtFi n f s
  | .fcvtIf n f => Sys2Proof.Machine.execFcvtIf n f s
  | .lds n f => Sys2Proof.Machine.execLds n f s
  | .sts n f => Sys2Proof.Machine.execSts n f s
  | .br n f => Sys2Proof.Machine.execBr n f s
  | .brc n f => Sys2Proof.Machine.execBrc n f s
  | .jal n f => Sys2Proof.Machine.execJal n f s
  | .ret n f => Sys2Proof.Machine.execRet n f s
  | .loop n f => Sys2Proof.Machine.execLoop n f s
  | .iswap n f => Sys2Proof.Machine.execIswap n f s
  | .lcset n f => Sys2Proof.Machine.execLcset n f s
  | .lcseti n f => Sys2Proof.Machine.execLcseti n f s
  | .lcget n f => Sys2Proof.Machine.execLcget n f s
  | .lcidx n f => Sys2Proof.Machine.execLcidx n f s
  | .fset n f => Sys2Proof.Machine.execFset n f s
  | .fseti n f => Sys2Proof.Machine.execFseti n f s
  | .fget n f => Sys2Proof.Machine.execFget n f s
  | .tid n f => Sys2Proof.Machine.execTid n f s
  | .lpos n f => Sys2Proof.Machine.execLpos n f s
  | .rdstep n f => Sys2Proof.Machine.execRdstep n f s
  | .mxNop n => Sys2Proof.Machine.execMxNop n s
  | .mxFill n f => Sys2Proof.Machine.execMxFill n f s
  | .mxStream n f => Sys2Proof.Machine.execMxStream n f s
  | .mxRowmul n f => Sys2Proof.Machine.execMxRowmul n f s
  | .mxDrainv n f => Sys2Proof.Machine.execMxDrainv n f s
  | .mxDrains n f => Sys2Proof.Machine.execMxDrains n f s
  | .vnop n => Sys2Proof.Machine.execVnop n s
  | .vadd n f => Sys2Proof.Machine.execVadd n f s
  | .vsub n f => Sys2Proof.Machine.execVsub n f s
  | .vmul n f => Sys2Proof.Machine.execVmul n f s
  | .vfma n f => Sys2Proof.Machine.execVfma n f s
  | .vmax n f => Sys2Proof.Machine.execVmax n f s
  | .vmin n f => Sys2Proof.Machine.execVmin n f s
  | .vabs n f => Sys2Proof.Machine.execVabs n f s
  | .vneg n f => Sys2Proof.Machine.execVneg n f s
  | .vldexp n f => Sys2Proof.Machine.execVldexp n f s
  | .vcmp n f => Sys2Proof.Machine.execVcmp n f s
  | .vand n f => Sys2Proof.Machine.execVand n f s
  | .vor n f => Sys2Proof.Machine.execVor n f s
  | .vxor n f => Sys2Proof.Machine.execVxor n f s
  | .vshl n f => Sys2Proof.Machine.execVshl n f s
  | .vshr n f => Sys2Proof.Machine.execVshr n f s
  | .vsar n f => Sys2Proof.Machine.execVsar n f s
  | .vmov n f => Sys2Proof.Machine.execVmov n f s
  | .vbcast n f => Sys2Proof.Machine.execVbcast n f s
  | .vsplat n f => Sys2Proof.Machine.execVsplat n f s
  | .viota n f => Sys2Proof.Machine.execViota n f s
  | .vextr n f => Sys2Proof.Machine.execVextr n f s
  | .vinsl n f => Sys2Proof.Machine.execVinsl n f s
  | .vnarrow n f => Sys2Proof.Machine.execVnarrow n f s
  | .vwiden n f => Sys2Proof.Machine.execVwiden n f s
  | .vcvtFi n f => Sys2Proof.Machine.execVcvtFi n f s
  | .vcvtIf n f => Sys2Proof.Machine.execVcvtIf n f s
  | .vpack n f => Sys2Proof.Machine.execVpack n f s
  | .vunpack n f => Sys2Proof.Machine.execVunpack n f s
  | .vcurve n f => Sys2Proof.Machine.execVcurve n f s
  | .vrsum n f => Sys2Proof.Machine.execVrsum n f s
  | .vrmax n f => Sys2Proof.Machine.execVrmax n f s
  | .vrmin n f => Sys2Proof.Machine.execVrmin n f s
  | .vrisum n f => Sys2Proof.Machine.execVrisum n f s
  | .vcompress n f => Sys2Proof.Machine.execVcompress n f s
  | .vexpand n f => Sys2Proof.Machine.execVexpand n f s
  | .vperm n f => Sys2Proof.Machine.execVperm n f s
  | .vrot n f => Sys2Proof.Machine.execVrot n f s
  | .kand n f => Sys2Proof.Machine.execKand n f s
  | .kor n f => Sys2Proof.Machine.execKor n f s
  | .kxor n f => Sys2Proof.Machine.execKxor n f s
  | .kandn n f => Sys2Proof.Machine.execKandn n f s
  | .kfirst n f => Sys2Proof.Machine.execKfirst n f s
  | .kpopc n f => Sys2Proof.Machine.execKpopc n f s
  | .vld n f => Sys2Proof.Machine.execVld n f s
  | .vst n f => Sys2Proof.Machine.execVst n f s
  | .vchain n f => Sys2Proof.Machine.execVchain n f s
  | .ldNop n => Sys2Proof.Machine.execLdNop n s
  | .ld n f => Sys2Proof.Machine.execLd n f s
  | .ldStrm n f => Sys2Proof.Machine.execLdStrm n f s
  | .ldOvl n f => Sys2Proof.Machine.execLdOvl n f s
  | .stNop n => Sys2Proof.Machine.execStNop n s
  | .st n f => Sys2Proof.Machine.execSt n f s
  | .stStrm n f => Sys2Proof.Machine.execStStrm n f s
  | .stPost n f => Sys2Proof.Machine.execStPost n f s
  | .syNop n => Sys2Proof.Machine.execSyNop n s
  | .wait n f => Sys2Proof.Machine.execWait n f s
  | .waitK n f => Sys2Proof.Machine.execWaitK n f s
  | .sig n f => Sys2Proof.Machine.execSig n f s
  | .sdec n f => Sys2Proof.Machine.execSdec n f s
  | .rsig n f => Sys2Proof.Machine.execRsig n f s
  | .arrive n f => Sys2Proof.Machine.execArrive n f s
  | .bwait n f => Sys2Proof.Machine.execBwait n f s
  | .belay n f => Sys2Proof.Machine.execBelay n f s
  | .send n f => Sys2Proof.Machine.execSend n f s
  | .recv n f => Sys2Proof.Machine.execRecv n f s
  | .recvR n f => Sys2Proof.Machine.execRecvR n f s
  | .loopEnd n lend => Sys2Proof.Machine.execLoopEnd n lend s
  | .stop n => Sys2Proof.Machine.execStop n s
  | .pipelineWriteback n => Sys2Proof.Machine.execPipelineWriteback n s
  | .bankStallEnd n => Sys2Proof.Machine.execBankStallEnd n s
  | .tileDone n => Sys2Proof.Machine.execTileDone n s
  | .imemParity n => Sys2Proof.Machine.execImemParity n s
  | .ldExecute n => Sys2Proof.Machine.execLdExecute n s
  | .ldStrmExecute n => Sys2Proof.Machine.execLdStrmExecute n s
  | .ldOvlExecute n => Sys2Proof.Machine.execLdOvlExecute n s
  | .stExecute n => Sys2Proof.Machine.execStExecute n s
  | .stStrmExecute n => Sys2Proof.Machine.execStStrmExecute n s
  | .stPostExecute n => Sys2Proof.Machine.execStPostExecute n s
  | .sendExecute n => Sys2Proof.Machine.execSendExecute n s
  | .tollTake n => Sys2Proof.Machine.execTollTake n s
  | .engineCompletion n store => Sys2Proof.Machine.execEngineCompletion n store s
  | .inboundWrite w => Sys2Proof.Machine.execInboundWrite w s
  | .remoteSignal r => Sys2Proof.Machine.execRemoteSignal r s
  | .belayArrival ref tag => Sys2Proof.Machine.execBelayArrival ref tag s
  | .messageDelivery m => Sys2Proof.Machine.execMessageDelivery m s
  | .stageMessage n c => Sys2Proof.Machine.execStageMessage n c s
  | .padSkip n c => Sys2Proof.Machine.execPadSkip n c s
  | .duplicateSkip n c => Sys2Proof.Machine.execDuplicateSkip n c s
  | .waitWatchdog n toll => Sys2Proof.Machine.execWaitWatchdog n toll s
  | .boundaryWatchdog r => Sys2Proof.Machine.execBoundaryWatchdog r s
  | .stretch r cycle => Sys2Proof.Machine.execStretch r cycle s
  | .partnerRst e => Sys2Proof.Machine.execPartnerRst e s
  | .ownResetEnd e => Sys2Proof.Machine.execOwnResetEnd e s
  | .partnerAckFall e => Sys2Proof.Machine.execPartnerAckFall e s
  | .partnerReady e => Sys2Proof.Machine.execPartnerReady e s
  | .timeBeacon region => Sys2Proof.Machine.execTimeBeacon region s
  | .gtcRead => Sys2Proof.Machine.execGtcRead s
  | .waypointSend p => Sys2Proof.Machine.execWaypointSend p s
  | .waypointRecord p w => Sys2Proof.Machine.execWaypointRecord p w s
  | .parentLost => Sys2Proof.Machine.execParentLost s
  | .settledTimeout => Sys2Proof.Machine.execSettledTimeout s
  | .freqRecord op instant => Sys2Proof.Machine.execFreqRecord op instant s
  | .frequencySwitch => Sys2Proof.Machine.execFrequencySwitch s
  | .referenceLost input => Sys2Proof.Machine.execReferenceLost input s
  | .referenceGood input => Sys2Proof.Machine.execReferenceGood input s
  | .refSelect => Sys2Proof.Machine.execRefSelect s
  | .clockFailure => Sys2Proof.Machine.execClockFailure s
  | .portEnable p => Sys2Proof.Machine.execPortEnable p s
  | .portDisable p => Sys2Proof.Machine.execPortDisable p s
  | .signalPresent p => Sys2Proof.Machine.execSignalPresent p s
  | .trainComplete p => Sys2Proof.Machine.execTrainComplete p s
  | .trainTimeout p neverLocked => Sys2Proof.Machine.execTrainTimeout p neverLocked s
  | .linkRetryTimer p => Sys2Proof.Machine.execLinkRetryTimer p s
  | .capabilityFlit p c => Sys2Proof.Machine.execCapabilityFlit p c s
  | .alignComplete p rtt => Sys2Proof.Machine.execAlignComplete p rtt s
  | .slotTransmit p => Sys2Proof.Machine.execSlotTransmit p s
  | .slotReceive p sl bad ecc corrected => Sys2Proof.Machine.execSlotReceive p sl bad ecc corrected s
  | .retryTimeout p => Sys2Proof.Machine.execRetryTimeout p s
  | .portWatchdog p => Sys2Proof.Machine.execPortWatchdog p s
  | .retryLimit p => Sys2Proof.Machine.execRetryLimit p s
  | .laneFail p => Sys2Proof.Machine.execLaneFail p s
  | .queueRoom p q => Sys2Proof.Machine.execQueueRoom p q s
  | .writeRecord r => Sys2Proof.Machine.execWriteRecord r s
  | .postRecord r => Sys2Proof.Machine.execPostRecord r s
  | .signalRecord r => Sys2Proof.Machine.execSignalRecord r s
  | .arriveRecord r => Sys2Proof.Machine.execArriveRecord r s
  | .releaseRecord r => Sys2Proof.Machine.execReleaseRecord r s
  | .msgRecord r => Sys2Proof.Machine.execMsgRecord r s
  | .reduceRecord p r => Sys2Proof.Machine.execReduceRecord p r s
  | .logRecord r => Sys2Proof.Machine.execLogRecord r s
  | .logEntryResume => Sys2Proof.Machine.execLogEntryResume s
  | .switchRecord p r => Sys2Proof.Machine.execSwitchRecord p r s
  | .switchLeg => Sys2Proof.Machine.execSwitchLeg s
  | .previousTablesExpire => Sys2Proof.Machine.execPreviousTablesExpire s
  | .detourRecord p r sl => Sys2Proof.Machine.execDetourRecord p r sl s
  | .brokenRecord chip tile ch => Sys2Proof.Machine.execBrokenRecord chip tile ch s
  | .scrub d seg => Sys2Proof.Machine.execScrub d seg s
  | .migrationStart seg => Sys2Proof.Machine.execMigrationStart seg s
  | .migrationCopy d stack => Sys2Proof.Machine.execMigrationCopy d stack s
  | .migrationComplete d stack => Sys2Proof.Machine.execMigrationComplete d stack s
  | .rowRetire d stack => Sys2Proof.Machine.execRowRetire d stack s
  | .reduceBlockSend rid => Sys2Proof.Machine.execReduceBlockSend rid s
  | .reduceSlotRelease rid block => Sys2Proof.Machine.execReduceSlotRelease rid block s
  | .d2dRetry d ecc => Sys2Proof.Machine.execD2dRetry d ecc s
  | .d2dModuleLost d => Sys2Proof.Machine.execD2dModuleLost d s
  | .updateHandoff rid block => Sys2Proof.Machine.execUpdateHandoff rid block s
  | .updateBlock d u => Sys2Proof.Machine.execUpdateBlock d u s
  | .blockWrittenBack d u => Sys2Proof.Machine.execBlockWrittenBack d u s
  | .poisonReport r => Sys2Proof.Machine.execPoisonReport r s
  | .tileFault n => Sys2Proof.Machine.execTileFault n s
  | .baseCampArrival => Sys2Proof.Machine.execBaseCampArrival s
  | .stepEnd => Sys2Proof.Machine.execStepEnd s
  | .cairnChunk => Sys2Proof.Machine.execCairnChunk s
  | .cairnCommit owner slot q tag bytes => Sys2Proof.Machine.execCairnCommit owner slot q tag bytes s
  | .cairnAck owner slot q tag => Sys2Proof.Machine.execCairnAck owner slot q tag s
  | .logAck owner rid block => Sys2Proof.Machine.execLogAck owner rid block s
  | .heartbeatSend => Sys2Proof.Machine.execHeartbeatSend s
  | .heartbeat sender step gtc => Sys2Proof.Machine.execHeartbeat sender step gtc s
  | .heartbeatTimeout pos => Sys2Proof.Machine.execHeartbeatTimeout pos s
  | .report e => Sys2Proof.Machine.execReport e s
  | .mirror e => Sys2Proof.Machine.execMirror e s
  | .haltRecord team k instant => Sys2Proof.Machine.execHaltRecord team k instant s
  | .takeover pos k spare alt => Sys2Proof.Machine.execTakeover pos k spare alt s
  | .fetch owner spareChip chunkOff logOff firstTag => Sys2Proof.Machine.execFetch owner spareChip chunkOff logOff firstTag s
  | .restore => Sys2Proof.Machine.execRestore s
  | .restored pos k => Sys2Proof.Machine.execRestored pos k s
  | .startRecord team alt k swInstant startInstant => Sys2Proof.Machine.execStartRecord team alt k swInstant startInstant s
  | .repairReload => Sys2Proof.Machine.execRepairReload s
  | .programStart r => Sys2Proof.Machine.execProgramStart r s
  | .ceiling sender c => Sys2Proof.Machine.execCeiling sender c s
  | .ceilingRefresh => Sys2Proof.Machine.execCeilingRefresh s
  | .ceilingExpire sender => Sys2Proof.Machine.execCeilingExpire sender s
  | .powerSample avs0 avs1 => Sys2Proof.Machine.execPowerSample avs0 avs1 s
  | .temperatureSample rows depots base hbm => Sys2Proof.Machine.execTemperatureSample rows depots base hbm s
  | .throttleEvaluation => Sys2Proof.Machine.execThrottleEvaluation s
  | .tokenWindow r => Sys2Proof.Machine.execTokenWindow r s
  | .regulatorFault rail => Sys2Proof.Machine.execRegulatorFault rail s
  | .avsTimeout rail => Sys2Proof.Machine.execAvsTimeout rail s
  | .wearMonitorSample deltas => Sys2Proof.Machine.execWearMonitorSample deltas s
  | .replanHours => Sys2Proof.Machine.execReplanHours s
  | .wearLedgerEmit => Sys2Proof.Machine.execWearLedgerEmit s
  | .telemetryRewrite => Sys2Proof.Machine.execTelemetryRewrite s
  | .sidebandEvaluation => Sys2Proof.Machine.execSidebandEvaluation s
  | .bcWdogKick value => Sys2Proof.Machine.execBcWdogKick value s
  | .bcWatchdog => Sys2Proof.Machine.execBcWatchdog s
  | .lockup core => Sys2Proof.Machine.execLockup core s
  | .sramUncorrectable => Sys2Proof.Machine.execSramUncorrectable s
  | .softwareRequest => Sys2Proof.Machine.execSoftwareRequest s
  | .powerOn hot src => Sys2Proof.Machine.execPowerOn hot src s
  | .brownOut rail => Sys2Proof.Machine.execBrownOut rail s
  | .rstNAssert lowNs => Sys2Proof.Machine.execRstNAssert lowNs s
  | .rstNRelease smba testmode => Sys2Proof.Machine.execRstNRelease smba testmode s
  | .tetherReset => Sys2Proof.Machine.execTetherReset s
  | .firmwareCheck => Sys2Proof.Machine.execFirmwareCheck s
  | .thermalTrip src => Sys2Proof.Machine.execThermalTrip src s
  | .tripRelease => Sys2Proof.Machine.execTripRelease s
  | .blockResetTile i_ => Sys2Proof.Machine.execBlockResetTile i_ s
  | .blockResetRow i_ => Sys2Proof.Machine.execBlockResetRow i_ s
  | .blockResetDepot i_ => Sys2Proof.Machine.execBlockResetDepot i_ s
  | .blockResetCaravanPort i_ => Sys2Proof.Machine.execBlockResetCaravanPort i_ s
  | .blockResetHostPort i_ => Sys2Proof.Machine.execBlockResetHostPort i_ s
  | .blockIdle => Sys2Proof.Machine.execBlockIdle s
  | .blockResetTimeout => Sys2Proof.Machine.execBlockResetTimeout s
  | .registerWrite g off data => Sys2Proof.Machine.execRegisterWrite g off data s
  | .discover port nonce => Sys2Proof.Machine.execDiscover port nonce s
  | .fw src offset data => Sys2Proof.Machine.execFw src offset data s
  | .fwVerify => Sys2Proof.Machine.execFwVerify s
  | .feederTimeout => Sys2Proof.Machine.execFeederTimeout s
  | .hello1 port h => Sys2Proof.Machine.execHello1 port h s
  | .hello3 hd hsig => Sys2Proof.Machine.execHello3 hd hsig s
  | .halfOpenTimeout session => Sys2Proof.Machine.execHalfOpenTimeout session s
  | .ack hd ackSeq => Sys2Proof.Machine.execAck hd ackSeq s
  | .close hd => Sys2Proof.Machine.execClose hd s
  | .tetherResend session => Sys2Proof.Machine.execTetherResend session s
  | .tetherKeepalive session => Sys2Proof.Machine.execTetherKeepalive session s
  | .sessionTimeout session => Sys2Proof.Machine.execSessionTimeout session s
  | .read hd addr len => Sys2Proof.Machine.execRead hd addr len s
  | .write hd addr data => Sys2Proof.Machine.execWrite hd addr data s
  | .telemetry hd => Sys2Proof.Machine.execTelemetry hd s
  | .faultlog hd first count => Sys2Proof.Machine.execFaultlog hd first count s
  | .wearPut hd ledger => Sys2Proof.Machine.execWearPut hd ledger s
  | .wearNone hd => Sys2Proof.Machine.execWearNone hd s
  | .wearEmit hd => Sys2Proof.Machine.execWearEmit hd s
  | .wearGet hd offset len => Sys2Proof.Machine.execWearGet hd offset len s
  | .replan hd => Sys2Proof.Machine.execReplan hd s
  | .map hd entries => Sys2Proof.Machine.execMap hd entries s
  | .time hd root parent alt1 alt2 => Sys2Proof.Machine.execTime hd root parent alt1 alt2 s
  | .route hd ports hops => Sys2Proof.Machine.execRoute hd ports hops s
  | .observers hd keys => Sys2Proof.Machine.execObservers hd keys s
  | .release hd => Sys2Proof.Machine.execRelease hd s
  | .macsec hd m => Sys2Proof.Machine.execMacsec hd m s
  | .svn hd new => Sys2Proof.Machine.execSvn hd new s
  | .qpOpen hd q => Sys2Proof.Machine.execQpOpen hd q s
  | .qpClose hd qpn => Sys2Proof.Machine.execQpClose hd qpn s
  | .load hd b => Sys2Proof.Machine.execLoad hd b s
  | .team hd b => Sys2Proof.Machine.execTeam hd b s
  | .start hd at_ step => Sys2Proof.Machine.execStart hd at_ step s
  | .halt hd => Sys2Proof.Machine.execHalt hd s
  | .resume hd => Sys2Proof.Machine.execResume hd s
  | .reset hd kind index => Sys2Proof.Machine.execReset hd kind index s
  | .quote hd nonce => Sys2Proof.Machine.execQuote hd nonce s
  | .waybill hd scope inputDigest => Sys2Proof.Machine.execWaybill hd scope inputDigest s
  | .roceSend qpn data => Sys2Proof.Machine.execRoceSend qpn data s
  | .rdmaWrite qpn rkey va data => Sys2Proof.Machine.execRdmaWrite qpn rkey va data s
  | .rdmaReadRequest qpn rkey va len => Sys2Proof.Machine.execRdmaReadRequest qpn rkey va len s
  | .cnp qpn => Sys2Proof.Machine.execCnp qpn s
  | .pfcFrame port pause => Sys2Proof.Machine.execPfcFrame port pause s
  | .routerAdvertisement port pfx => Sys2Proof.Machine.execRouterAdvertisement port pfx s
  | .neighbourDiscovery port target dad => Sys2Proof.Machine.execNeighbourDiscovery port target dad s
  | .icmpv6Echo port dst payload => Sys2Proof.Machine.execIcmpv6Echo port dst payload s
  | .hostLinkChange port up speed => Sys2Proof.Machine.execHostLinkChange port up speed s
  | .stepDigest pos poison s_ sd => Sys2Proof.Machine.execStepDigest pos poison s_ sd s
  | .chain pos km1 c => Sys2Proof.Machine.execChain pos km1 c s
  | .wbReq req last inputDigest => Sys2Proof.Machine.execWbReq req last inputDigest s
  | .wbPart req seg => Sys2Proof.Machine.execWbPart req seg s
  | .wbPartTimeout => Sys2Proof.Machine.execWbPartTimeout s
  | .smbChipInfo => Sys2Proof.Machine.execSmbChipInfo s
  | .smbTemperature => Sys2Proof.Machine.execSmbTemperature s
  | .smbPkgStatus => Sys2Proof.Machine.execSmbPkgStatus s
  | .smbDevState => Sys2Proof.Machine.execSmbDevState s
  | .smbResetCause => Sys2Proof.Machine.execSmbResetCause s
  | .smbPackagePower => Sys2Proof.Machine.execSmbPackagePower s
  | .bypass => Sys2Proof.Machine.execBypass s
  | .idcode => Sys2Proof.Machine.execIdcode s
  | .samplePreload shift => Sys2Proof.Machine.execSamplePreload shift s
  | .extest => Sys2Proof.Machine.execExtest s
  | .clamp => Sys2Proof.Machine.execClamp s
  | .highz => Sys2Proof.Machine.execHighz s
  | .extestPulse => Sys2Proof.Machine.execExtestPulse s
  | .extestTrain => Sys2Proof.Machine.execExtestTrain s
  | .dbgReset => Sys2Proof.Machine.execDbgReset s
  | .stackTrained d stack => Sys2Proof.Machine.execStackTrained d stack s
  | .frameDiscard port kind => Sys2Proof.Machine.execFrameDiscard port kind s
  | .invalidRequest qpn => Sys2Proof.Machine.execInvalidRequest qpn s
  | .capOpWrite op => Sys2Proof.Machine.execCapOpWrite op s
  | .hpCfgWrite port enable speed => Sys2Proof.Machine.execHpCfgWrite port enable speed s
  | .vaonPowerUp => Sys2Proof.Machine.execVaonPowerUp s

end Sys2Proof.Machine
end

