-- ==== Sys2Proof/Machine/Time.lean ====
section
/-! DEFINITION. What passing time does while no command waits (log 4): one cycle of the time PLL. -/

namespace Sys2Proof.Machine

open Sys2Proof

/-- What one time-PLL cycle adds to GTC, in 1/256 ns (R225). -/
def tickUnits : Nat := 100

/-- The local GTC of each region after one cycle: where a beacon left a difference, the increment makes up 1/256 ns of it,
so that the count never steps back (R226). -/
def Clock.tickRegions (c : Clock) : Clock :=
  c.regionAdj.foldl (fun c x =>
    let d := Int.sign x.2
    if d = 0 then c
    else { c with regionErr := c.regionErr.upd x.1 0 (· + d), regionAdj := c.regionAdj.set x.1 (x.2 - d) }) c

/-- GTC after one cycle, scaled by the trim in ppb; what falls below 1/256 ns is kept (R224, R225, R230). -/
def Clock.tick (c : Clock) : Clock :=
  let num : Int := (tickUnits : Int) * (1000000000 + c.trim) + c.gtcRes
  { c.tickRegions with gtc := (c.gtc + (num / 1000000000).toNat) % 2 ^ 72, gtcRes := (num % 1000000000).toNat }

/-- What a slot lasts in the units of `CvChip.tick`: 104 × 5,440 / (257 × 1,792) ns (R251). -/
def slotUnits : Nat := 256 * 565760 * 1000000000

/-- The slot counter after one cycle, at the rate that the trim scales (R225, R230, R251, R252). -/
def CvChip.tick (c : CvChip) (trim : Int) : CvChip :=
  let f := c.slotFrac + ((tickUnits * 460544 : Nat) * (1000000000 + trim)).toNat
  if slotUnits ≤ f then { c with slotFrac := f - slotUnits, slotCount := (c.slotCount + 1) % 2 ^ 64 }
  else { c with slotFrac := f }

/-- The watchdog's count after one cycle, in 1/32 of a base-camp cycle: 15/32 of a 1.2 GHz cycle pass (R384). -/
def BaseCore.tick (b : BaseCore) : BaseCore := { b with wdogCount := b.wdogCount + 15 }

/-- The base-camp cycles that end in one time-PLL cycle, and LOG_WAIT, which counts them while a log entry waits (R357). -/
def BaseCore.cycles (b : BaseCore) : Nat := (b.wdogCount + 15) / 32 - b.wdogCount / 32
def Recovery.tick (r : Recovery) (cycles : Nat) : Recovery :=
  if r.logWaiting.isEmpty then r else { r with logWait := r.logWait + BitVec.ofNat 64 cycles }

/-- Operating seconds count while Dormas runs (R401). -/
def Power.tick (p : Power) (dormas : Bool) : Power :=
  if !dormas then p
  else if 2560000000 ≤ p.opCycles + 1 then { p with opCycles := 0, hours := p.hours + 1 }
  else { p with opCycles := p.opCycles + 1 }

/-- The clocks stand still without power, in a cold reset's hold and after a thermal trip (R467, R501). -/
def State.clocksRun (s : State) : Bool := s.pkg.powerGood && s.pkg.rstN && !s.pkg.thermtrip

/-- A port takes its primary table where no switch has given it one (R290). -/
def CvPort.takePrimary (x : CvPort) : CvPort :=
  match x.cur, x.tables.findIdx? fun t => decide (t.alt = 0) with
  | none, some i => { x with cur := some i, alt := if x.open_ then 255 else 0 }
  | _, _ => x

/-- The first leg boundary after the start instant (R290). -/
def State.primaryLeg (s : State) : State :=
  if s.cv.primary = 2 ∧ s.cv.slotCount % 1024 = 0 then
    { s with cv := { s.cv with primary := 0 }, ports := s.ports.map fun x => (x.1, x.2.takePrimary) }
  else s

/-- The clocks of the device after one cycle of the time PLL. -/
def State.tick (s : State) : State :=
  { s with clock := s.clock.tick, cv := s.cv.tick s.clock.trim, base := s.base.tick, power := s.power.tick s.base.dormas,
           recov := s.recov.tick s.base.cycles }

/-- The device while no command waits. -/
def State.idle (s : State) : State :=
  if s.clocksRun then
    if s.tick.cv.slotCount = s.cv.slotCount then s.tick else s.tick.primaryLeg
  else s

end Sys2Proof.Machine
end

