-- ==== Sys2Proof/Safety.lean ====
section
/-! DEFINITION. What counts as a safe outcome, and the terms in which the statements speak. -/

namespace Sys2Proof.Machine

open Sys2Proof

/-- The step goes on. -/
def Completes (r : Host.Outcome State Fault Refusal) : Prop := ∃ t, r = .next t

/-- The merge of R94: a selected lane holds its result; an unselected lane is kept, or zero with poison clear under MZ. -/
def Tile.Merged (t : Tile) (f : VeF) (sel : BitVec 128) (L : Lanes) (res : Nat → Gran) : Prop :=
  L.length = 128 ∧ ∀ i, i < 128 →
    L.at_ i = if sel.getLsbD i then res i else if f.mz = 1 then ⟨0, false⟩ else (t.vr f.vd).at_ i

/-- A lane-wise instruction of R96 where its slot can issue: vD takes the merged lanes after `lat` issue cycles, and the flags are
those of the selected lanes; nothing else changes. -/
def LaneWise (c : Instr) (s0 : State) (n : Nat) (f : VeF) (lat : Nat) (op : Nat → W32 × ArithFlags) (p : Nat → Bool) : Prop :=
  let s := s0.take n .ve
  ∃ L, (s.tile n).Merged f ((s.tile n).lanesOf f) L (fun i => ⟨(op i).1, p i⟩)
    ∧ exec c s0 = .next (s.setTile n (((s.tile n).fly lat (.v f.vd.toNat L)).flags
        (selFlags ((s.tile n).lanesOf f) fun i => (op i).2)))

/-- The state in which a command acts: its frames counted, its session on the port it came by, its packets taken in turn. -/
def State.inTurn (s : State) (hd : CmdHdr) (len : Nat) : State :=
  (s.gotFrames hd.port (packetsOf (8 + len))).onSession hd.session fun y =>
    { y with port := hd.port, seqIn := y.seqIn + packetsOf (8 + len) }

/-- A command of an open session whose turn has come: DENIED from an observer that may not send it, MALFORMED where a length
or range is wrong, stopped where R434 does not mark it legal (R435), else done, as `P` says from the number of the
session's next packet and the state in its turn. -/
def Commanded (c : Instr) (hd : CmdHdr) (len : Nat) (observer ok legal : Bool) (s : State)
    (P : Nat → State → State → Prop) : Prop :=
  ∀ x, s.dev ≠ .off → s.session? hd.session = some x → s.waiting hd.session = false →
    let u := s.inTurn hd len
    (x.owner = false → observer = false → exec c s = .next (u.respond hd.session x.seqIn 2 0 []))
    ∧ (x.owner = true ∨ observer = true → ok = false → exec c s = .next (u.respond hd.session x.seqIn 1 0 []))
    ∧ (x.owner = true ∨ observer = true → ok = true → legal = false → exec c s = .fault .illegalState)
    ∧ (x.owner = true ∨ observer = true → ok = true → legal = true → ∃ t, exec c s = .next t ∧ P x.seqIn u t)

/-- A packet on a queue pair that is open and not in the error state, and the state in which it acts. -/
def State.QpReady (s : State) (qpn e : Nat) (q : Qp) : Prop := s.dev ≠ .off ∧ s.qp? qpn = some (e, q) ∧ q.st ≠ .error

/-- A record of base camp taken from the delivered ones. -/
def State.tookBody (s : State) (b : Rec) : State := { s with delivered := s.delivered.eraseP fun r => decide (r.body = b) }

/-- What a remote signal, post or grant does at its target (R146, R152, R153): a local semaphore of this chip's logical
tile or a counter semaphore goes up; one that can act on nothing is counted. -/
def SignalDone (u : State) (ref : W64) (inc : Nat) (v : State) : Prop :=
  (∀ n, refClean ref = true → refKind ref = 0 → u.physicalOf (refTile ref) = some n →
    v = u.setTile n ((u.tile n).semAdd (refIndex ref) inc))
  ∧ (refClean ref = true → refKind ref = 1 → (u.gsem (refIndex ref)).mode = .counter →
    let g := u.gsem (refIndex ref)
    v = u.setGsem (refIndex ref) { g with value := Nat.min 0xFFFF (g.value + inc), ovf := g.ovf || decide (0xFFFF < g.value + inc) })
  ∧ ((refClean ref = false ∨ 2 ≤ refKind ref ∨ (refKind ref = 0 ∧ u.physicalOf (refTile ref) = none)
      ∨ (refKind ref = 1 ∧ (u.gsem (refIndex ref)).mode ≠ .counter)) → v = { u with sigDiscards := u.sigDiscards + 1 })

/-- What an arrival does at its belay (R153 to R155): it counts in its generation or the next, overruns the belay in any
other, is dropped by one in OVERRUN, and is counted where it reaches no belay. -/
def ArrivalDone (u : State) (ref : W64) (tag : Nat) (v : State) : Prop :=
  let i := refIndex ref
  let g := u.gsem i
  let d := BitVec.ofNat 2 tag
  ((refClean ref = false ∨ refKind ref ≠ 1 ∨ g.mode ≠ .belay) → v = { u with sigDiscards := u.sigDiscards + 1 })
  ∧ (refClean ref = true → refKind ref = 1 → g.mode = .belay → (g.overrun = true → v = u)
    ∧ (g.overrun = false →
      (d = g.gen → (g.value + 1 ≠ g.count ∨ g.fwd = true) → v = u.setGsem i { g with value := g.value + 1 })
      ∧ (d = g.gen → g.value + 1 = g.count → g.fwd = false →
        v = belayGo belayFuel (u.setGsem i { g with value := g.value + 1 }) (.check i))
      ∧ (d = g.gen + 1 → v = u.setGsem i { g with nxt := g.nxt + 1 })
      ∧ (d ≠ g.gen → d ≠ g.gen + 1 → v = u.setGsem i { g with overrun := true })))

/-- What a message does at its channel (R162 to R164): its data lands at its position of the ring and its record behind the
ring, a pad's record at the pad's position, and the channel lists them, a message as a duplicate where its sequence number
is behind the expected one; without a valid channel it is counted. -/
def MessageDone (u : State) (m : InMsg) (v : State) : Prop :=
  (u.physicalOf m.ltile = none → v = { u with sigDiscards := u.sigDiscards + 1 })
  ∧ (∀ n, u.physicalOf m.ltile = some n → ((u.tile n).ch.get m.ch {}).valid = false →
    v = { u with sigDiscards := u.sigDiscards + 1 })
  ∧ (∀ n, u.physicalOf m.ltile = some n → ((u.tile n).ch.get m.ch {}).valid = true →
    let x := (u.tile n).ch.get m.ch {}
    let y := (v.tile n).ch.get m.ch {}
    let len := m.data.length / 16
    let late := 32768 ≤ (m.seq + 65536 - x.expSeq.toNat) % 65536
    let clean (w : Nat) : List (Byte × Bool) := (leBytes 8 w).map fun b => (b, false)
    let sp := (u.tile n).spad
    let padded := if m.pad = true then sp.write (x.base + 64 * x.size + 8 * m.w) (clean (2 ^ 31 + (x.size - m.w - 1) % 4 * 2 ^ 32))
      else sp
    (v.tile n).spad = (padded.write (x.base + 64 * m.pos) (gransBytes m.data)).write (x.base + 64 * x.size + 8 * m.pos)
      (clean (m.seq * 2 ^ 48 + (len - 1) * 2 ^ 32))
    ∧ y.items = x.items ++ (if m.pad = true then [.pad m.w] else []) ++ [if late then .duplicate m.pos len else .message m.pos len m.seq]
    ∧ (late → y.expSeq = x.expSeq ∧ y.duplicates = x.duplicates + 1)
    ∧ (¬ late → y.expSeq = BitVec.ofNat 16 (m.seq + 1) ∧ y.delivered = x.delivered + 1)
    ∧ v = { u with tiles := v.tiles, reportsOut := v.reportsOut } ∧ ∀ k, k ≠ n → v.tile k = u.tile k)

/-- The tile of which a command is a slot's instruction (R60). -/
def slotTile (c : Instr) : Option Nat :=
  match c with
  | .nop n | .add n _ | .sub n _ | .and n _ | .or n _ | .xor n _ | .shl n _ | .shr n _ | .sar n _ | .mul n _ => some n
  | .mulhu n _ | .divu n _ | .remu n _ | .slt n _ | .sltu n _ | .seq n _ | .min n _ | .minu n _ | .max n _ | .maxu n _ => some n
  | .sel n _ | .clz n _ | .popc n _ | .addi n _ | .andi n _ | .ori n _ | .xori n _ | .shli n _ | .shri n _ | .sari n _ => some n
  | .muli n _ | .slti n _ | .sltiu n _ | .movi n _ | .movhi n _ | .fadd n _ | .fsub n _ | .fmul n _ | .ffma n _ => some n
  | .fmin n _ | .fmax n _ | .fcmp n _ | .fcvtFi n _ | .fcvtIf n _ | .lds n _ | .sts n _ | .br n _ | .brc n _ => some n
  | .jal n _ | .ret n _ | .loop n _ | .iswap n _ | .lcset n _ | .lcseti n _ | .lcget n _ | .lcidx n _ | .fset n _ => some n
  | .fseti n _ | .fget n _ | .tid n _ | .lpos n _ | .rdstep n _ | .mxNop n | .mxFill n _ | .mxStream n _ => some n
  | .mxRowmul n _ | .mxDrainv n _ | .mxDrains n _ | .vnop n | .vadd n _ | .vsub n _ | .vmul n _ | .vfma n _ => some n
  | .vmax n _ | .vmin n _ | .vabs n _ | .vneg n _ | .vldexp n _ | .vcmp n _ | .vand n _ | .vor n _ | .vxor n _ => some n
  | .vshl n _ | .vshr n _ | .vsar n _ | .vmov n _ | .vbcast n _ | .vsplat n _ | .viota n _ | .vextr n _ | .vinsl n _ => some n
  | .vnarrow n _ | .vwiden n _ | .vcvtFi n _ | .vcvtIf n _ | .vpack n _ | .vunpack n _ | .vcurve n _ | .vrsum n _ => some n
  | .vrmax n _ | .vrmin n _ | .vrisum n _ | .vcompress n _ | .vexpand n _ | .vperm n _ | .vrot n _ | .kand n _ => some n
  | .kor n _ | .kxor n _ | .kandn n _ | .kfirst n _ | .kpopc n _ | .vld n _ | .vst n _ | .vchain n _ | .ldNop n => some n
  | .ld n _ | .ldStrm n _ | .ldOvl n _ | .stNop n | .st n _ | .stStrm n _ | .stPost n _ | .syNop n | .wait n _ => some n
  | .waitK n _ | .sig n _ | .sdec n _ | .rsig n _ | .arrive n _ | .bwait n _ | .belay n _ | .send n _ | .recv n _ => some n
  | .recvR n _ => some n
  | _ => none

end Sys2Proof.Machine
end

