-- ==== Sys2Proof/Certificates/Slice0/Obligations.lean ====
section
/-! DEFINITION. The statements for the provers. -/

open Sys2Proof Sys2Proof.Machine

/-! ### Steps, reset and the canonical forms -/

/-- A step of a state whose queue begins with a command is `exec` of that command on the state with the queue's rest. -/
def Obligations.StepRunsFront : Prop :=
  ∀ (c : Instr) (rest : List Instr) (s : State),
    step { s with pending := c :: rest } = exec c { s with pending := rest }

/-- With no command waiting a time-PLL cycle passes (the model's choice, log 4): GTC gains 100/256 ns as the trim scales
them (R225, R230), the base-camp watchdog counts, at the first leg boundary after a start instant the ports take their
primary tables (R290), and nothing passes while the clocks stand. -/
def Obligations.IdleTick : Prop :=
  ∀ (s : State), s.pending = [] → step s = .next s.idle
    ∧ (s.clocksRun = false → s.idle = s)
    ∧ (s.clocksRun = true →
        s.idle.clock.gtc = (s.clock.gtc + ((100 * (1000000000 + s.clock.trim) + s.clock.gtcRes) / 1000000000).toNat) % 2 ^ 72
        ∧ (s.clock.trim = 0 → s.clock.gtcRes = 0 → s.idle.clock.gtc = (s.clock.gtc + 100) % 2 ^ 72)
        ∧ s.idle.base.wdogCount = s.base.wdogCount + 15
        ∧ s.idle.tiles = s.tiles ∧ s.idle.hbm = s.hbm ∧ (s.cv.primary ≠ 2 → s.idle.ports = s.ports) ∧ s.idle.dev = s.dev ∧ s.idle.out = s.out)

/-- What a cold reset leaves (R173, R224, R253, R286, R287, R405 to R407, R429, R433, R475, R494): the boot ROM waits,
no image is installed, every port is down, in open mode and disabled, the counters are zero. -/
def Obligations.ResetValues : Prop :=
  let s := State.reset
  s.dev = .rom ∧ s.rst.cold = true ∧ s.rst.timeoutUs = 1000 ∧ s.image = none ∧ s.tiles = [] ∧ s.hbm.map = []
  ∧ s.base.dormas = false ∧ s.tether.sessions = [] ∧ s.tether.ownerKey = List.replicate 48 0 ∧ s.sec.keyOk = true
  ∧ s.clock.gtc = 0 ∧ s.power.throttleC = 100 ∧ s.power.hbmThrottleC = 95 ∧ s.power.capOp = 0
  ∧ (∀ n, (s.tile n).wdogLimit = 28 ∧ (s.tile n).st = .idle)
  ∧ (∀ p, (s.port p).st = .down ∧ (s.port p).enable = false ∧ (s.port p).wdogLog2 = 13 ∧ (s.port p).alt = 255
      ∧ (s.port p).open_ = true)
  ∧ (∀ i, (s.gsem i).value = 0) ∧ s.pending = [] ∧ s.out = []

/-- A byte written is the byte read, every other byte stays, and the memory keeps its one form: addresses rising, no
zero listed. -/
def Obligations.MemoryReadAfterWrite : Prop :=
  ∀ (m : Memory) (a : Nat) (b : Byte), Memory.wf m = true →
    Memory.wf (Memory.put m a b) = true ∧ ∀ x, Memory.get (Memory.put m a b) x = if x = a then b else Memory.get m x

/-- HBM's bytes keep their one form through every step. -/
def Obligations.StepKeepsMemoryForm : Prop := ∀ (s t : State), Memory.wf s.hbm.bytes = true → step s = .next t → Memory.wf t.hbm.bytes = true

/-- HBM's bytes have that form after reset. -/
def Obligations.ResetMemoryForm : Prop := Memory.wf State.reset.hbm.bytes = true

/-- A command of a slot leaves HBM and its map, the host ports, clocks, power, sessions, fuses, resets, recovery and the
device state as they are, and of every other tile the registers, the accumulator, the scratchpad, instruction memory and
both queues (R15, R16, R218). -/
def Obligations.SlotFrame : Prop :=
  ∀ (c : Instr) (n : Nat) (s t : State), slotTile c = some n → exec c s = .next t →
    t.hbm = s.hbm ∧ t.hports = s.hports ∧ t.clock = s.clock ∧ t.power = s.power ∧ t.tether = s.tether
    ∧ t.fuses = s.fuses ∧ t.rst = s.rst ∧ t.recov = s.recov ∧ t.dev = s.dev ∧ t.step = s.step ∧ t.pending = s.pending
    ∧ ∀ m, m ≠ n → (t.tile m).g = (s.tile m).g ∧ (t.tile m).v = (s.tile m).v ∧ (t.tile m).k = (s.tile m).k
        ∧ (t.tile m).acc = (s.tile m).acc ∧ (t.tile m).spad = (s.tile m).spad ∧ (t.tile m).imem = (s.tile m).imem
        ∧ (t.tile m).ldq = (s.tile m).ldq ∧ (t.tile m).stq = (s.tile m).stq ∧ (t.tile m).sems = (s.tile m).sems

/-- Register g0 always reads as zero with its poison bit clear, and a write to g0 is discarded (R53). -/
def Obligations.ZeroRegister : Prop :=
  ∀ (t : Tile) (v : W64) (p : Bool), t.gv 0 = 0 ∧ t.gp 0 = false ∧ t.apply (.g 0 v p) = (t, [])
    ∧ ∀ r : BitVec 5, r ≠ 0 → ((t.apply (.g r.toNat v p)).1.gv r = v ∧ (t.apply (.g r.toNat v p)).1.gp r = p
        ∧ ∀ q : BitVec 5, q ≠ r → (t.apply (.g r.toNat v p)).1.gr q = t.gr q)

/-- A commit is 64 bytes long: OWNER, SLOT, Q, TAG and BYTES in their places, little-endian, and zeros elsewhere (R353).
-/
def Obligations.CommitLayout : Prop :=
  ∀ (owner slot q bytes : Nat) (tag : W64), owner < 2 ^ 16 → slot < 2 ^ 32 → q < 2 ^ 64 → bytes < 2 ^ 32 →
    let b := commitBytes owner slot q tag bytes
    b.length = 64 ∧ leAt b 6 2 = owner ∧ leAt b 0 4 = slot ∧ leAt b 4 2 = 0 ∧ leAt b 8 8 = q ∧ leAt b 16 8 = tag.toNat
    ∧ leAt b 24 4 = bytes ∧ leAt b 28 4 = 0 ∧ ∀ i, 32 ≤ i → i < 64 → b.getD i 0 = 0

/-! ### The scalar slot (03_tile_bundles.md) -/

/-- The integer instructions of R62 and R63 in an issue cycle: the value and poison that gD takes, and the latency of
its class (R78); everything else stays. The instructions of R62 with one source register and an immediate or none.
Division by zero gives all ones, its remainder gives the dividend, and neither sets a flag (R63). -/
def Obligations.ScalarIntegerResults : Prop :=
  (∀ (n : Nat) (f : ScF) (s0 : State), s0.mayIssue n .sc = true →
    let s := s0.take n .sc
    let t := s.tile n
    let a := t.gv f.a
    let b := t.gv f.b
    let p := t.gp f.a || t.gp f.b
    let put (lat : Nat) (v : W64) : Res := .next (s.setTile n (t.fly lat (.g f.d.toNat v p)))
    let bit (c : Bool) : W64 := if c then 1 else 0
    exec (.add n f) s0 = put 1 (a + b) ∧ exec (.sub n f) s0 = put 1 (a - b)
    ∧ exec (.and n f) s0 = put 1 (a &&& b) ∧ exec (.or n f) s0 = put 1 (a ||| b) ∧ exec (.xor n f) s0 = put 1 (a ^^^ b)
    ∧ exec (.shl n f) s0 = put 1 (a <<< (b.toNat % 64)) ∧ exec (.shr n f) s0 = put 1 (a >>> (b.toNat % 64))
    ∧ exec (.sar n f) s0 = put 1 (a.sshiftRight (b.toNat % 64))
    ∧ exec (.mul n f) s0 = put 3 (a * b)
    ∧ exec (.mulhu n f) s0 = put 3 (BitVec.ofNat 64 (a.toNat * b.toNat / 2 ^ 64))
    ∧ exec (.slt n f) s0 = put 1 (bit (a.slt b)) ∧ exec (.sltu n f) s0 = put 1 (bit (a.ult b))
    ∧ exec (.seq n f) s0 = put 1 (bit (a == b))
    ∧ exec (.min n f) s0 = put 1 (if b.slt a then b else a) ∧ exec (.minu n f) s0 = put 1 (if b.ult a then b else a)
    ∧ exec (.max n f) s0 = put 1 (if a.slt b then b else a) ∧ exec (.maxu n f) s0 = put 1 (if a.ult b then b else a))
  ∧ (∀ (n : Nat) (f : ScF) (s0 : State), s0.mayIssue n .sc = true →
    let s := s0.take n .sc
    let t := s.tile n
    let a := t.gv f.a
    let i := f.imm.signExtend 64
    let put (lat : Nat) (v : W64) : Res := .next (s.setTile n (t.fly lat (.g f.d.toNat v (t.gp f.a))))
    let bit (c : Bool) : W64 := if c then 1 else 0
    exec (.addi n f) s0 = put 1 (a + i) ∧ exec (.andi n f) s0 = put 1 (a &&& i) ∧ exec (.ori n f) s0 = put 1 (a ||| i)
    ∧ exec (.xori n f) s0 = put 1 (a ^^^ i) ∧ exec (.shli n f) s0 = put 1 (a <<< (f.imm.toNat % 64))
    ∧ exec (.shri n f) s0 = put 1 (a >>> (f.imm.toNat % 64))
    ∧ exec (.sari n f) s0 = put 1 (a.sshiftRight (f.imm.toNat % 64)) ∧ exec (.muli n f) s0 = put 3 (a * i)
    ∧ exec (.slti n f) s0 = put 1 (bit (a.slt i)) ∧ exec (.sltiu n f) s0 = put 1 (bit (a.ult i))
    ∧ exec (.movhi n f) s0 = put 1 ((f.imm.setWidth 64 <<< 32) ||| (a.setWidth 32).setWidth 64)
    ∧ exec (.clz n f) s0 = put 1 (clz64 a)
    ∧ exec (.popc n f) s0 = put 1 (BitVec.ofNat 64 ((List.range 64).filter fun k => a.getLsbD k).length)
    ∧ exec (.movi n f) s0 = .next (s.setTile n (t.fly 1 (.g f.d.toNat i false)))
    ∧ exec (.sel n f) s0 = .next (s.setTile n (t.fly 1 (.g f.d.toNat (if t.gv f.c ≠ 0 then a else t.gv f.b)
        (t.gp f.c || (if t.gv f.c ≠ 0 then t.gp f.a else t.gp f.b))))))
  ∧ (∀ (n : Nat) (f : ScF) (s0 : State), s0.mayIssue n .sc = true →
    let s := s0.take n .sc
    let t := s.tile n
    let a := t.gv f.a
    let b := t.gv f.b
    let put (v : W64) : Res := .next (s.setTile n (t.fly 24 (.g f.d.toNat v (t.gp f.a || t.gp f.b))))
    (b ≠ 0 → exec (.divu n f) s0 = put (BitVec.ofNat 64 (a.toNat / b.toNat))
      ∧ exec (.remu n f) s0 = put (BitVec.ofNat 64 (a.toNat % b.toNat)))
    ∧ (b = 0 → exec (.divu n f) s0 = put (BitVec.allOnes 64) ∧ exec (.remu n f) s0 = put a))

/-- The leading zeros that `clz` counts: 64 for zero, else the number of zeros above the highest one bit (R62). -/
def Obligations.LeadingZeros : Prop :=
  clz64 0 = 64 ∧ ∀ (x : W64) (k : Nat), k < 64 → x.getLsbD k = true → (∀ j, k < j → x.getLsbD j = false) →
    clz64 x = BitVec.ofNat 64 (63 - k)

/-- The FP32 instructions of the scalar slot: gD[31:0] is the result of the FP32 operation on bits 31:0 of the sources,
bits 63:32 are zero, after latency 4, and the flags of the operation are set at issue (R50, R64). -/
def Obligations.ScalarFloatResults : Prop :=
  ∀ (n : Nat) (f : ScF) (s0 : State), s0.mayIssue n .sc = true →
    let s := s0.take n .sc
    let t := s.tile n
    let a : W32 := (t.gv f.a).setWidth 32
    let b : W32 := (t.gv f.b).setWidth 32
    let p := t.gp f.a || t.gp f.b
    let put (v : W64) (fl : ArithFlags) (p : Bool) : Res := .next (s.setTile n ((t.fly 4 (.g f.d.toNat v p)).flags fl))
    exec (.fadd n f) s0 = put ((f32Add a b).1.setWidth 64) (f32Add a b).2 p
    ∧ exec (.fsub n f) s0 = put ((f32Sub a b).1.setWidth 64) (f32Sub a b).2 p
    ∧ exec (.fmul n f) s0 = put ((f32Mul a b).1.setWidth 64) (f32Mul a b).2 p
    ∧ exec (.ffma n f) s0 = put ((f32Fma a b ((t.gv f.c).setWidth 32)).1.setWidth 64)
        (f32Fma a b ((t.gv f.c).setWidth 32)).2 (p || t.gp f.c)
    ∧ exec (.fmin n f) s0 = put ((f32Min a b).setWidth 64) {} p
    ∧ exec (.fmax n f) s0 = put ((f32Max a b).setWidth 64) {} p
    ∧ exec (.fcmp n f) s0 = put (if fcmpHolds (f.x.toNat % 4) a b then 1 else 0) {} p
    ∧ exec (.fcvtFi n f) s0 = put (BitVec.ofInt 64 (fpToInt 64 (fp32 a) 0)) (ArithFlags.inv (outOfInt 64 (fp32 a))) (t.gp f.a)
    ∧ exec (.fcvtIf n f) s0 = put ((intToFp32 (t.gv f.a).toInt).1.setWidth 64) (intToFp32 (t.gv f.a).toInt).2 (t.gp f.a)

/-- `lds` reads its bytes at issue, little-endian, extended as SX says, for gD after 7 cycles, and a granule that fails
its parity is detected; `sts` writes the low bytes of gD with its poison so that reads from 3 cycles on see them (R65,
R66, R117). -/
def Obligations.ScalarScratchpadResults : Prop :=
  ∀ (n : Nat) (f : ScF) (s0 : State), s0.mayIssue n .sc = true →
    let s := s0.take n .sc
    let t := s.tile n
    let idx (l : Nat) : Nat := if l = 0 then 0 else (t.lcr (l - 1)).index.toNat
    let addr := (t.gv f.a + t.gv f.b * BitVec.ofNat 64 (idx (f.x.toNat / 8 % 8)) + f.imm.signExtend 64).toNat % 2 ^ 21
    let w := 8 / 2 ^ (f.x.toNat / 128 % 4)
    let bs := t.spad.read addr w
    let v := leNat (bs.map Prod.fst)
    let value : W64 := if f.x.toNat / 64 % 2 = 1 ∧ 2 ^ (8 * w - 1) ≤ v then BitVec.ofInt 64 ((v : Int) - (2 ^ (8 * w) : Nat))
      else BitVec.ofNat 64 v
    exec (.lds n f) s0 = .next ((s.setTile n
        { t.fly 7 (.g f.d.toNat value (bs.any Prod.snd)) with reqR := t.reqR ++ wordsOf addr w }).detect n (t.spad.detects addr w))
    ∧ exec (.sts n f) s0 = .next (s.setTile n
        { t.fly 3 (.spad addr ((leBytes w (t.gv f.d).toNat).map fun b => (b, t.gp f.d))) with reqW := t.reqW ++ wordsOf addr w })

/-- Branches: a taken one leaves a bubble, then the bundle at pc + simm of the active half issues, and loops whose body
does not hold the target end; `jal` writes the link, and `ret` goes to gA[11:0] where gA is a link of this half, else
its result is unpredictable and the model stops (R67, R68, R69, R72). The conditions of `br` and `brc` (R67). -/
def Obligations.BranchResults : Prop :=
  (∀ (n : Nat) (f : ScF) (s0 : State), s0.mayIssue n .sc = true →
    let s := s0.take n .sc
    let t := s.tile n
    let goTo (t : Tile) (target : BitVec 12) : Tile := { t with
      ctl := .jump t.half target,
      loops := t.loops.filter fun l => decide (l.start ≤ target.toNat) && decide (target.toNat < l.start + l.len) }
    let rel := t.pc + f.imm.setWidth 12
    let c := f.x.toNat % 8
    exec (.br n f) s0 = .next ((if brTaken c (t.gv f.a) then s.setTile n (goTo t rel) else s).ctrlPoisonIf n
        (decide (c ≠ 0) && t.gp f.a))
    ∧ exec (.brc n f) s0 = .next ((if brcTaken c (t.gv f.a) (t.gv f.b) then s.setTile n (goTo t rel) else s).ctrlPoisonIf n
        (t.gp f.a || t.gp f.b))
    ∧ exec (.jal n f) s0 = .next (s.setTile n (goTo (t.fly 1 (.g f.d.toNat
        (BitVec.ofNat 64 ((t.half.toNat * 4096) ||| (t.pc.toNat + 1))) false)) rel))
    ∧ ((t.gv f.a).toNat / 4096 = t.half.toNat →
        exec (.ret n f) s0 = .next ((s.setTile n (goTo t ((t.gv f.a).setWidth 12))).ctrlPoisonIf n (t.gp f.a)))
    ∧ ((t.gv f.a).toNat / 4096 ≠ t.half.toNat → exec (.ret n f) s0 = .fault .badLink))
  ∧ (∀ (a b : W64),
    brTaken 0 a = true ∧ (brTaken 1 a = true ↔ a = 0) ∧ (brTaken 2 a = true ↔ a ≠ 0) ∧ (brTaken 3 a = true ↔ a.toInt < 0)
    ∧ (brTaken 4 a = true ↔ 0 ≤ a.toInt) ∧ (brTaken 5 a = true ↔ 0 < a.toInt) ∧ (brTaken 6 a = true ↔ a.toInt ≤ 0)
    ∧ (brcTaken 0 a b = true ↔ a = b) ∧ (brcTaken 1 a b = true ↔ a ≠ b) ∧ (brcTaken 2 a b = true ↔ a.toInt < b.toInt)
    ∧ (brcTaken 3 a b = true ↔ b.toInt ≤ a.toInt) ∧ (brcTaken 4 a b = true ↔ a.toNat < b.toNat)
    ∧ (brcTaken 5 a b = true ↔ b.toNat ≤ a.toNat))

/-- `loop` latches the trip count and clears the index; a non-zero count makes the body's first bundle issue after one
bubble, and a zero count skips the body, with the marks of its last bundle acted on for the enclosing loops (R70).
`iswap` makes the other half active, after one bubble (R75). -/
def Obligations.LoopAndSwapResults : Prop :=
  ∀ (n : Nat) (f : ScF) (s0 : State), s0.mayIssue n .sc = true →
    let s := s0.take n .sc
    let t := s.tile n
    let lc := f.x.toNat % 4
    let len := f.imm.toNat % 4096
    let trip := (t.lcr lc).count.toNat
    let t1 := t.fly 1 (.lcIndex lc 0)
    let marks := t.marksAt (t.pc.toNat + len)
    (trip ≠ 0 → exec (.loop n f) s0 = .next (s.setTile n { t1 with
        ctl := .jump t.half (t.pc + 1), loops := ⟨lc, t.pc.toNat + 1, len, trip⟩ :: t.loops }))
    ∧ (∀ ls, trip = 0 → lendGo t marks t.loops = (ls, none) → exec (.loop n f) s0 = .next (s.setTile n { t1 with
        ctl := .jump t.half (t.pc + 1 + BitVec.ofNat 12 len), loops := ls }))
    ∧ (∀ ls l i start, trip = 0 → lendGo t marks t.loops = (ls, some (l, i, start)) →
        exec (.loop n f) s0 = .next (s.setTile n { t1.fly 1 (.lcIndex l i) with
          ctl := .jump t.half (BitVec.ofNat 12 start), loops := ls }))
    ∧ exec (.iswap n f) s0 = .next (s.setTile n { t with ctl := .jump (!t.half) (f.imm.setWidth 12) })

/-- The loop counts, the format registers and the tile's identity (R62): poison of a source of `lcset` and `fset` is a
control use (R69). The six no-operations change nothing but that their slot has issued (R62, R87, R96, R122, R148). -/
def Obligations.CounterAndNopResults : Prop :=
  (∀ (n : Nat) (f : ScF) (s0 : State), s0.mayIssue n .sc = true →
    let s := s0.take n .sc
    let t := s.tile n
    let lc := f.x.toNat % 4
    let toG (v : W64) : Res := .next (s.setTile n (t.fly 1 (.g f.d.toNat v false)))
    exec (.lcset n f) s0 = .next ((s.setTile n (t.fly 1 (.lcCount lc ((t.gv f.a).setWidth 32)))).ctrlPoisonIf n (t.gp f.a))
    ∧ exec (.lcseti n f) s0 = .next (s.setTile n (t.fly 1 (.lcCount lc f.imm)))
    ∧ exec (.lcget n f) s0 = toG ((t.lcr lc).count.setWidth 64) ∧ exec (.lcidx n f) s0 = toG ((t.lcr lc).index.setWidth 64)
    ∧ exec (.fset n f) s0 = .next ((s.setTile n (t.fly 2 (.f f.d.toNat ((t.gv f.a).setWidth 32)))).ctrlPoisonIf n (t.gp f.a))
    ∧ exec (.fseti n f) s0 = .next (s.setTile n (t.fly 2 (.f f.d.toNat f.imm)))
    ∧ exec (.fget n f) s0 = toG ((t.fr f.a).setWidth 64)
    ∧ exec (.tid n f) s0 = toG (BitVec.ofNat 64 ((s.logicalOf n).getD 0))
    ∧ exec (.lpos n f) s0 = toG (BitVec.ofNat 64 s.position) ∧ exec (.rdstep n f) s0 = toG s.step)
  ∧ (∀ (n : Nat) (s : State),
    let acts (c : Instr) (x : BSlot) : Prop := s.mayIssue n x = true →
      exec c s = .next (s.setTile n { s.tile n with used := x :: (s.tile n).used })
    acts (.nop n) .sc ∧ acts (.mxNop n) .mx ∧ acts (.vnop n) .ve ∧ acts (.ldNop n) .ld ∧ acts (.stNop n) .st
    ∧ acts (.syNop n) .sy)

/-! ### The matrix slot (04_tile_matrix_vector.md) -/

/-- A fill reads in the issue cycles t to t + 15 and switches its buffer in t + 24 (R88). A stream, a row multiply: the
accumulator row takes their effect 8 issue cycles later, from what the scratchpad, the buffer and vC hold now (R89,
R90); a stream of formats that do not pair, or with a scale whose sign bit is set, has an unpredictable result and the
model stops. A drain reads its row now: vC takes its 128 elements with their poison after 12 issue cycles; a storing
drain requests its words as of 9 cycles later and its bytes are seen after 12; CLR makes the row +0 in the next issue
cycle (R91). -/
def Obligations.MatrixResults : Prop :=
  (∀ (n : Nat) (f : MxF) (s0 : State), s0.mayIssue n .mx = true →
    let s := s0.take n .mx
    let t := s.tile n
    let q : FillReq := { key := t.cyc, sb := f.sb.toNat, fmt := t.fr f.f, e := t.mxE f, s := t.mxS f }
    (mxFmt s.formats (t.fr f.f) ≠ none → exec (.mxFill n f) s0 = .next (s.setTile n { t with
      flight := t.flight ++ ((List.range 16).map fun i => ⟨t.cyc + i, .fillRead q i⟩) ++ [⟨t.cyc + 24, .fillSwitch t.cyc f.sb.toNat⟩] }))
    ∧ (mxFmt s.formats (t.fr f.f) = none → exec (.mxFill n f) s0 = .fault .reservedFormat))
  ∧ (∀ (n : Nat) (f : MxF) (s0 : State), s0.mayIssue n .mx = true →
    let s := s0.take n .mx
    let t := s.tile n
    let row := 128 * f.acc.toNat + (f.row.toNat + t.loopIdx f.l.toNat) % 128
    (∀ p, t.streamPlan s.formats f = some p → t.streamBad f p = false →
      let rs := (List.range 128).map fun j =>
        dotColumn p.st p.sr (readRow p.sr t.spad p.k p.e p.s) (t.sbCol p f.sb.toNat j) p.off p.k
      exec (.mxStream n f) s0 = .next ((s.setTile n { (t.flags (ArithFlags.joinAll (rs.map Prod.snd))) with
          flight := t.flight ++ [⟨t.cyc + 8, .accStream row (f.z = 1) (rs.map Prod.fst)⟩],
          reqR := t.reqR ++ (rowSpans p.sr p.k p.e p.s).flatMap (fun (x : Nat × Nat) => wordsOf x.1 x.2),
          winStreams := t.winStreams + 1 }).detect n
            (((rowSpans p.sr p.k p.e p.s).flatMap fun (x : Nat × Nat) => t.spad.detects x.1 x.2).eraseDups)))
    ∧ (t.streamPlan s.formats f = none → exec (.mxStream n f) s0 = .fault .reservedFormat)
    ∧ (∀ p, t.streamPlan s.formats f = some p → t.streamBad f p = true → exec (.mxStream n f) s0 = .fault .negativeScale)
    ∧ exec (.mxRowmul n f) s0 = .next (s.setTile n (t.fly 8 (.accMul row (t.vr f.c)))))
  ∧ (∀ (n : Nat) (f : MxF) (s0 : State), s0.mayIssue n .mx = true →
    let s := s0.take n .mx
    let t := s.tile n
    let row := 128 * f.acc.toNat + (f.row.toNat + t.loopIdx f.l.toNat) % 128
    let clear (u : Tile) : Tile := if f.h = 1 then u.fly 1 (.accClear row) else u
    (∃ L : Lanes, L.length = 128 ∧ (∀ j, j < 128 → L.at_ j = (t.accRow row).at_ j)
      ∧ exec (.mxDrainv n f) s0 = .next (s.setTile n (clear (t.fly 12 (.v f.c.toNat L)))))
    ∧ (fmtBad s.formats (t.fr f.f) = false →
        let d := drainData s.formats (t.fr f.f) (t.accRow row) (drawsFrom (s.draws n) (t.fr f.f)
          ((t.gv f.c >>> 32).setWidth 32 + BitVec.ofNat 32 (t.loopIdx f.l.toNat * 128)) 128) (t.gp f.c)
        let t1 := (t.fly 9 (.bankWrite (wordsOf (t.mxE f) d.1.length ++ wordsOf (t.mxS f) d.2.1.length))).fly 12
          (.spad (t.mxE f) d.1)
        exec (.mxDrains n f) s0 = .next (s.setTile n (clear
          ((if d.2.1 = [] then t1 else t1.fly 12 (.spad (t.mxS f) d.2.1)).flags d.2.2))))
    ∧ (fmtBad s.formats (t.fr f.f) = true → exec (.mxDrains n f) s0 = .fault .reservedFormat))

/-! ### The vector slot (04_tile_matrix_vector.md) -/

/-- The lane-wise arithmetic of R96: per lane, per element type of R93, merged per R94, at the class latency of R78. -/
def Obligations.VectorArithmeticResults : Prop :=
  ∀ (n : Nat) (f : VeF) (s0 : State), s0.mayIssue n .ve = true →
    let s := s0.take n .ve
    let t := s.tile n
    let a (i : Nat) : W32 := ((t.vr f.va).at_ i).bits
    let b (i : Nat) : W32 := ((t.vr f.vb).at_ i).bits
    let c (i : Nat) : W32 := ((t.vr f.vc).at_ i).bits
    let pa (i : Nat) : Bool := ((t.vr f.va).at_ i).poison
    let pb (i : Nat) : Bool := ((t.vr f.vb).at_ i).poison
    let ty := f.sub.toNat % 4
    let lat := if ty = 3 then 2 else 4
    let int (v : W32) : W32 × ArithFlags := (v, {})
    let two (ci : Instr) (lat : Nat) (op : Nat → W32 × ArithFlags) : Prop := LaneWise ci s0 n f lat op fun i => pa i || pb i
    let one (ci : Instr) (lat : Nat) (op : Nat → W32 × ArithFlags) : Prop := LaneWise ci s0 n f lat op pa
    two (.vadd n f) lat (fun i => if ty = 3 then int (a i + b i) else byElem2 ty elemAdd (a i) (b i))
    ∧ two (.vsub n f) lat (fun i => if ty = 3 then int (a i - b i) else byElem2 ty elemSub (a i) (b i))
    ∧ two (.vmul n f) 4 (fun i => if ty = 3 then int (a i * b i) else byElem2 ty elemMul (a i) (b i))
    ∧ LaneWise (.vfma n f) s0 n f 4 (fun i => byElem3 ty elemFma (a i) (b i) (c i))
        (fun i => pa i || pb i || ((t.vr f.vc).at_ i).poison)
    ∧ two (.vmax n f) lat (fun i => if ty = 3 then int (if (a i).slt (b i) then b i else a i)
        else byElem2 ty elemMax (a i) (b i))
    ∧ two (.vmin n f) lat (fun i => if ty = 3 then int (if (b i).slt (a i) then b i else a i)
        else byElem2 ty elemMin (a i) (b i))
    ∧ one (.vabs n f) 2 (fun i => if ty = 3 then int (if (a i).slt 0 then -(a i) else a i) else byElem1 ty elemAbs (a i))
    ∧ one (.vneg n f) 2 (fun i => if ty = 3 then int (-(a i)) else byElem1 ty elemNeg (a i))
    ∧ two (.vldexp n f) 4 (fun i => f32Ldexp (a i) (b i).toInt)
    ∧ two (.vand n f) 2 (fun i => int (a i &&& b i)) ∧ two (.vor n f) 2 (fun i => int (a i ||| b i))
    ∧ two (.vxor n f) 2 (fun i => int (a i ^^^ b i))
    ∧ two (.vshl n f) 2 (fun i => int (a i <<< ((b i).toNat % 32)))
    ∧ two (.vshr n f) 2 (fun i => int (a i >>> ((b i).toNat % 32)))
    ∧ two (.vsar n f) 2 (fun i => int ((a i).sshiftRight ((b i).toNat % 32)))
    ∧ one (.vcurve n f) 8 (fun i => curveEval (t.curve (f.sub.toNat % 16)) (a i))
    ∧ one (.vcvtFi n f) 4 (fun i => (BitVec.ofInt 32 (fpToInt 32 (fp32 (a i)) 0), { invalid := outOfInt 32 (fp32 (a i)) }))
    ∧ one (.vcvtIf n f) 4 (fun i => intToFp32 (a i).toInt)

/-- The moves of R96: copies keep poison, `vbcast` and `vinsl` take gGA's, immediates have none. -/
def Obligations.VectorMoveResults : Prop :=
  ∀ (n : Nat) (f : VeF) (s0 : State), s0.mayIssue n .ve = true →
    let s := s0.take n .ve
    let t := s.tile n
    let a (i : Nat) : Gran := (t.vr f.va).at_ i
    let x := f.imm.toNat % 128
    LaneWise (.vmov n f) s0 n f 2 (fun i => ((a i).bits, {})) (fun i => (a i).poison)
    ∧ LaneWise (.vbcast n f) s0 n f 2 (fun _ => ((t.gv f.ga).setWidth 32, {})) (fun _ => t.gp f.ga)
    ∧ LaneWise (.vsplat n f) s0 n f 2 (fun _ => (f.imm, {})) (fun _ => false)
    ∧ LaneWise (.viota n f) s0 n f 2 (fun i => (f.imm + BitVec.ofNat 32 i, {})) (fun _ => false)
    ∧ exec (.vextr n f) s0 = .next (s.setTile n (t.fly 6 (.g f.ga.toNat ((a x).bits.setWidth 64) (a x).poison)))
    ∧ (∃ L : Lanes, L.length = 128 ∧ L.at_ x = ⟨(t.gv f.ga).setWidth 32, t.gp f.ga⟩
        ∧ (∀ i, i < 128 → i ≠ x → L.at_ i = (t.vr f.vd).at_ i)
        ∧ exec (.vinsl n f) s0 = .next (s.setTile n (t.fly 2 (.v f.vd.toNat L))))

/-- The conversions of R100: a poisoned base poisons the elements that draw (R38). A format register whose code the instruction does not take stops the model (the verifier
refuses it), as does a scale whose sign bit is set. -/
def Obligations.VectorConversionResults : Prop :=
  ∀ (n : Nat) (f : VeF) (s0 : State), s0.mayIssue n .ve = true →
    let s := s0.take n .ve
    let t := s.tile n
    let fmt := t.fr f.f
    let code := fmtCode fmt
    let src (e : Nat) : Gran := if e < 128 then (t.vr f.va).at_ e else (t.vr f.vb).at_ (e - 128)
    let round (e : Nat) : Nat × ArithFlags := (Ieee.ofCode code).round (fmtRound fmt
      (if fmtRnd fmt = 1 then (s.draws n).draw ((t.gv f.ga).setWidth 32 + BitVec.ofNat 32 e) else 0)) (fp32 (src e).bits)
    let h := 128 * (f.imm.toNat % 2)
    (fmtBad s.formats fmt = false → (code = 1 ∨ code = 2) →
      LaneWise (.vnarrow n f) s0 n f 4
        (fun i => (BitVec.ofNat 32 ((round (2 * i)).1 + 65536 * (round (2 * i + 1)).1),
          (round (2 * i)).2.join (round (2 * i + 1)).2))
        (fun i => [2 * i, 2 * i + 1].any fun e => (src e).poison
          || decide (fmtRnd fmt = 1) && t.gp f.ga && (fp32 (src e).bits).within (Ieee.ofCode code).top)
      ∧ LaneWise (.vwiden n f) s0 n f 4
        (fun i => toFp32 ((Ieee.ofCode code).decode (halfElem (t.vr f.va) (h + i))) false)
        (fun i => ((t.vr f.va).at_ ((h + i) / 2)).poison))
    ∧ (fmtBad s.formats fmt = false → 2 < code → ∀ L fl,
        packRow s.formats fmt (t.vr f.va) (drawsFrom (s.draws n) fmt ((t.gv f.ga).setWidth 32) 128) (t.gp f.ga) = (L, fl) →
        exec (.vpack n f) s0 = .next (s.setTile n ((t.fly 4 (.v f.vd.toNat L)).flags fl)))
    ∧ (∀ b, fmtBad s.formats fmt = false → fmtBlock s.formats fmt = some b →
        let blk (g : Nat) : List (Byte × Bool) × (Byte × Bool) := packedBlock b (t.vr f.va).bytes g
        (∀ g, g < 128 / b.block → b.badScale (blk g).2.1.toNat = false) →
        ∃ op p, LaneWise (.vunpack n f) s0 n f 4 op p ∧ ∀ i, i < 128 →
          (op i).1 = (toFp32 (b.value (b.scale (blk (i / b.block)).2.1.toNat)
            ((unpackNat b.width b.block (leNat ((blk (i / b.block)).1.map Prod.fst))).getD (i % b.block) 0)).1 false).1
          ∧ p i = ((blk (i / b.block)).2.2 || (blk (i / b.block)).1.any Prod.snd))
    ∧ (fmtBad s.formats fmt = true → exec (.vnarrow n f) s0 = .fault .reservedFormat
        ∧ exec (.vwiden n f) s0 = .fault .reservedFormat ∧ exec (.vpack n f) s0 = .fault .reservedFormat
        ∧ exec (.vunpack n f) s0 = .fault .reservedFormat)

/-- The reductions of R98: seven levels of neighbours over 128 values with the identity in unselected lanes, written to
every lane of vD after 9 issue cycles. -/
def Obligations.ReductionResults : Prop :=
  ∀ (n : Nat) (f : VeF) (s0 : State), s0.mayIssue n .ve = true →
    let s := s0.take n .ve
    let t := s.tile n
    let sel := t.lanesOf f
    let reduces (c : Instr) (ident : W32) (op : W32 → W32 → W32 × ArithFlags) : Prop :=
      let xs := (List.range 128).map fun i => if sel.getLsbD i then ((t.vr f.va).at_ i).bits else ident
      let p := (List.range 128).any fun i => sel.getLsbD i && ((t.vr f.va).at_ i).poison
      exec c s0 = .next (s.setTile n ((t.fly 9 (.v f.vd.toNat (List.replicate 128 ⟨(treeReduce op 7 xs).1, p⟩))).flags
        (treeReduce op 7 xs).2))
    reduces (.vrsum n f) 0x80000000 f32Add ∧ reduces (.vrmax n f) 0xFF800000 (fun a b => (f32Max a b, {}))
    ∧ reduces (.vrmin n f) 0x7F800000 (fun a b => (f32Min a b, {})) ∧ reduces (.vrisum n f) 0 (fun a b => (a + b, {}))

/-- The tree of R98 on values that wrap: the reduction of 128 integers is their sum. -/
def Obligations.IntegerReductionIsTheSum : Prop :=
  ∀ (xs : List W32), xs.length = 128 →
    (treeReduce (fun a b => (a + b, ArithFlags.none)) 7 xs).1 = xs.foldl (· + ·) 0

/-- Compress, expand, permute and rotate (R96, R99). -/
def Obligations.PermuteResults : Prop :=
  ∀ (n : Nat) (f : VeF) (s0 : State), s0.mayIssue n .ve = true →
    let s := s0.take n .ve
    let t := s.tile n
    let sel := t.lanesOf f
    let below (i : Nat) : Nat := ((List.range i).filter fun j => sel.getLsbD j).length
    let a (i : Nat) : Gran := (t.vr f.va).at_ i
    let free (i : Nat) : Gran := if f.mz = 1 then ⟨0, false⟩ else (t.vr f.vd).at_ i
    (∃ L : Lanes, L.length = 128
      ∧ (∀ i, i < 128 → sel.getLsbD i = true → L.at_ (below i) = a i)
      ∧ (∀ i, below 128 ≤ i → i < 128 → L.at_ i = free i)
      ∧ exec (.vcompress n f) s0 = .next (s.setTile n
          ((t.fly 6 (.v f.vd.toNat L)).fly 6 (.g f.ga.toNat (BitVec.ofNat 64 (below 128)) false))))
    ∧ (∃ L, t.Merged f sel L (fun i => a (below i)) ∧ exec (.vexpand n f) s0 = .next (s.setTile n (t.fly 6 (.v f.vd.toNat L))))
    ∧ (∃ L, t.Merged f sel L (fun i =>
          ⟨(a (((t.vr f.vb).at_ i).bits.toNat % 128)).bits,
            (a (((t.vr f.vb).at_ i).bits.toNat % 128)).poison || ((t.vr f.vb).at_ i).poison⟩)
        ∧ exec (.vperm n f) s0 = .next (s.setTile n (t.fly 6 (.v f.vd.toNat L))))
    ∧ (∃ L, t.Merged f sel L (fun i => a ((i + f.imm.toNat % 128) % 128))
        ∧ exec (.vrot n f) s0 = .next (s.setTile n (t.fly 6 (.v f.vd.toNat L))))

/-- The mask instructions and `vcmp` (R96): the bit of each lane; a comparison of a poisoned selected lane, and `kfirst`
with a poisoned gGA, are control uses (R101). -/
def Obligations.MaskResults : Prop :=
  ∀ (n : Nat) (f : VeF) (s0 : State), s0.mayIssue n .ve = true →
    let s := s0.take n .ve
    let t := s.tile n
    let kd := f.vd.toNat % 8
    let ka := t.kr (f.va.toNat % 8)
    let kb := t.kr (f.vb.toNat % 8)
    let sel := t.lanesOf f
    let gives (c : Instr) (m : BitVec 128) : Prop := exec c s0 = .next (s.setTile n (t.fly 2 (.k kd m)))
    gives (.kand n f) (ka &&& kb) ∧ gives (.kor n f) (ka ||| kb) ∧ gives (.kxor n f) (ka ^^^ kb)
    ∧ gives (.kandn n f) (ka &&& ~~~kb)
    ∧ exec (.kpopc n f) s0 = .next (s.setTile n (t.fly 2 (.g f.ga.toNat
        (BitVec.ofNat 64 ((List.range 128).filter fun i => ka.getLsbD i).length) false)))
    ∧ (∃ m : BitVec 128, (∀ i, i < 128 → (m.getLsbD i = true ↔ i < (t.gv f.ga).toNat))
        ∧ exec (.kfirst n f) s0 = .next ((s.setTile n (t.fly 2 (.k kd m))).ctrlPoisonIf n (t.gp f.ga)))
    ∧ (∃ m : BitVec 128, (∀ i, i < 128 → m.getLsbD i =
          if sel.getLsbD i then cmpLane (f.sub.toNat % 4) (f.sub.toNat / 4 % 8) ((t.vr f.va).at_ i).bits ((t.vr f.vb).at_ i).bits
          else decide (f.mz = 0) && (t.kr kd).getLsbD i)
        ∧ exec (.vcmp n f) s0 = .next ((s.setTile n (t.fly 2 (.k kd m))).ctrlPoisonIf n ((List.range 128).any fun i =>
            sel.getLsbD i && (((t.vr f.va).at_ i).poison || ((t.vr f.vb).at_ i).poison))))

/-- `vld` and `vst` in an issue cycle without a scheduled crossing (R97): vD takes the lanes of the span, in the merge of
R94, after 7 cycles; reads from 3 cycles on see vA's lanes, in one write where every lane of the span is written, else in
one write per selected lane. `vchain` (R102 to R104): its outputs take the results of the stages with OUT after 6 + 4 NST
cycles. A scheduled crossing at its cycle (R216 to R220): an exporting `vst` fills its slot with vA, an importing `vld`
empties it into vD; where the slot is still full, or still empty, the bundle does not issue and every tile of the row in RUN
or HOLD holds and counts the cycle, but for one in a bank-conflict stall. -/
def Obligations.VectorMemoryResults : Prop :=
  (∀ (n : Nat) (f : VeF) (s0 : State), s0.mayIssue n .ve = true →
    let s := s0.take n .ve
    let t := s.tile n
    let sel := t.lanesOf f
    let len := if f.sub.toNat % 16 = 0 then 128 else 8 * (f.sub.toNat % 16)
    let addr := (t.gv f.ga + t.gv f.gb * BitVec.ofNat 64 (t.loopIdx f.l.toNat) + f.imm.setWidth 64).toNat % 2 ^ 21
    let src : Lanes := bytesGrans len (t.spad.read addr (4 * len))
    let kept (i : Nat) : Gran := if f.mz = 1 then ⟨0, false⟩ else (t.vr f.vd).at_ i
    let lane (i : Nat) : Gran := if sel.getLsbD i then (t.vr f.va).at_ i else ⟨0, false⟩
    let writes : List (Nat × List Gran) := if f.km = 0 ∨ f.mz = 1 then [(addr, (List.range len).map lane)]
      else ((List.range len).filter fun i => sel.getLsbD i).map fun i => ((addr + 4 * i) % 2 ^ 21, [lane i])
    ((s0.tile n).crossing false f = none →
      ∃ L : Lanes, L.length = 128 ∧ (∀ i, i < 128 → L.at_ i = if i < len ∧ sel.getLsbD i then src.at_ i else kept i)
        ∧ exec (.vld n f) s0 = .next ((s.setTile n { t.fly 7 (.v f.vd.toNat L) with
            reqR := t.reqR ++ wordsOf addr (4 * len) }).detect n (t.spad.detects addr (4 * len))))
    ∧ ((s0.tile n).crossing true f = none → exec (.vst n f) s0 = .next (s.setTile n { t with
        flight := t.flight ++ writes.map fun w => ⟨t.cyc + 3, .spad w.1 (gransBytes w.2)⟩,
        reqW := t.reqW ++ wordsOf addr (4 * len) })))
  ∧ (∀ (n : Nat) (f : VeF) (s0 : State), s0.mayIssue n .ve = true →
    let s := s0.take n .ve
    let t := s.tile n
    let sel := t.lanesOf f
    let d := (t.gv f.ga + f.imm.setWidth 64).toNat % 2 ^ 21
    let nst := f.sub.toNat % 8 + 1
    let nout := f.sub.toNat / 8 % 4 + 1
    let stages := (List.range nst).map (stageOf (t.spad.read d (8 * nst)))
    let outs := (List.range nst).filter fun i => (stages.map Stage.out).getD i false
    let chain (i : Nat) : List Gran × ArithFlags :=
      chainLane t.curve stages ⟨(t.vr f.va).at_ i, (t.vr f.vb).at_ i, (t.vr f.vc).at_ i, ⟨(t.gv f.gb).setWidth 32, t.gp f.gb⟩⟩
    let value (k i : Nat) : Gran := (outs[k]?).elim ⟨0x7FC00000, false⟩ fun j => (chain i).1.getD j ⟨0, false⟩
    let kept (k i : Nat) : Gran := if f.mz = 1 then ⟨0, false⟩ else (t.v.get (f.vd.toNat + k) Lanes.zero).at_ i
    ∃ L : Nat → Lanes,
      (∀ k, k < nout → (L k).length = 128
        ∧ ∀ i, i < 128 → (L k).at_ i = if sel.getLsbD i then value k i else kept k i)
      ∧ exec (.vchain n f) s0 = .next ((s.setTile n { t with
          flight := t.flight ++ (List.range nout).map fun k => ⟨t.cyc + (6 + 4 * nst), .v (f.vd.toNat + k) (L k)⟩,
          arith := (t.arith.join (selFlags sel fun i => (chain i).2)).join (ArithFlags.inv (decide (outs.length < nout))),
          reqR := t.reqR ++ wordsOf d 64, winChains := t.winChains + 1 }).detect n (t.spad.detects d (8 * nst))))
  ∧ (∀ (n : Nat) (f : VeF) (s0 : State) (e : SeqEntry), s0.mayIssue n .ve = true →
    let s := s0.take n .ve
    let t := s.tile n
    let k := 2 * e.pair + e.dir
    let slot := (s0.bq k).slot e.slot
    let addr := (t.gv f.ga + t.gv f.gb * BitVec.ofNat 64 (t.loopIdx f.l.toNat) + f.imm.setWidth 64).toNat % 2 ^ 21
    let src : Lanes := (List.range 128).map (t.vr f.va).at_
    let only (u : State) : Prop := u = { s0 with tiles := u.tiles, bqs := u.bqs } ∧ ∀ m, m ≠ n → u.tile m = s0.tile m
    let holds (c : Instr) (read : Bool) : Prop := ∃ u, exec c s0 = .next u
      ∧ u = { s0 with tiles := u.tiles, rows := u.rows, bqs := u.bqs }
      ∧ (u.row (n / 25)).holds = [⟨n, e.pair, e.dir, e.slot, read⟩] ∧ (∀ m, m / 25 ≠ n / 25 → u.tile m = s0.tile m)
      ∧ ∀ i, i < 25 → let m := 25 * (n / 25) + i
          ((s0.tile m).st ≠ .run → (s0.tile m).st ≠ .hold → u.tile m = s0.tile m)
          ∧ ((s0.tile m).st = .run ∨ (s0.tile m).st = .hold → u.tile m = { s0.tile m with
              bHold := true, holdBoundary := (s0.tile m).holdBoundary + (if (s0.tile m).bankHold = 0 then 1 else 0) })
    ((s0.tile n).crossing true f = some e → slot.full = false → ∃ u, exec (.vst n f) s0 = .next u ∧ only u
        ∧ (u.bq k).slot e.slot = ⟨true, src⟩ ∧ (u.bq k).entries = (s0.bq k).entries + 1
        ∧ u.tile n = { t with flight := t.flight ++ [⟨t.cyc + 3, .spad addr (gransBytes src)⟩],
                              reqW := t.reqW ++ wordsOf addr 512 })
    ∧ ((s0.tile n).crossing false f = some e → slot.full = true → ∃ u, exec (.vld n f) s0 = .next u ∧ only u
        ∧ ((u.bq k).slot e.slot).full = false
        ∧ ∃ L : Lanes, L.length = 128 ∧ (∀ i, i < 128 → L.at_ i = slot.data.at_ i)
          ∧ u.tile n = { t.fly 7 (.v f.vd.toNat L) with reqR := t.reqR ++ wordsOf addr 512 })
    ∧ ((s0.tile n).crossing true f = some e → slot.full = true → holds (.vst n f) false)
    ∧ ((s0.tile n).crossing false f = some e → slot.full = false → holds (.vld n f) true))

/-! ### Load and store slots, engines (05_scratchpad_streams.md) -/

/-- A load or store slot and `send` enqueue a command with the register values of this issue cycle, behind what the
queue holds, but for the ST slot's ahead of the `send` of its own bundle (R149); a full queue of 512 commands keeps out the
new one and sets QOVF; a poisoned register is a control use and the command acts on nothing (R121, R122, R129, R163,
R507). -/
def Obligations.EnqueueResults : Prop :=
  ∀ (n : Nat) (f : LsF) (d : SyD) (s0 : State),
    let t0 := s0.tile n
    let base (k : EngKind) : EngCmd :=
      { kind := k, sv := f.sv = 1, sem := f.sem.toNat, imm := f.imm.toNat, tv := f.tv = 1, toll := f.toll.toNat }
    let copy (k : EngKind) : EngCmd := { base k with a := t0.gv f.ga, b := t0.gv f.gb, c := t0.gv f.gc, useC := f.gc ≠ 0 }
    let strm (k : EngKind) : EngCmd := { base k with b := t0.gv f.gb, c := t0.gv f.gc, useC := f.gc ≠ 0 }
    let msg : EngCmd :=
      { kind := .send, sv := d.sv = 1, sem := d.sem.toNat, a := t0.gv d.ga, oc := d.oc.toNat, len := d.len.toNat + 1 }
    let loads (i : Instr) (c : EngCmd) (p : Bool) : Prop := s0.mayIssue n .ld = true →
      let s := s0.take n .ld
      let t := s.tile n
      exec i s0 = .next ((s.setTile n (if t.ldq.length < 512
        then { t with ldq := t.ldq ++ [{ c with fresh := true, dead := p }] } else { t with engQovf := true })).ctrlPoisonIf n p)
    let stores (i : Instr) (x : BSlot) (c : EngCmd) (p : Bool) : Prop := s0.mayIssue n x = true →
      let s := s0.take n x
      let t := s.tile n
      let c1 : EngCmd := { c with fresh := true, dead := p }
      ((∀ l, t.stq.getLast? = some l → l.fresh = false ∨ l.kind ≠ .send ∨ c.kind = .send) →
        exec i s0 = .next ((s.setTile n (if t.stq.length < 512
          then { t with stq := t.stq ++ [c1] } else { t with engQovf := true })).ctrlPoisonIf n p))
      ∧ (∀ q l, t.stq = q ++ [l] → l.fresh = true → l.kind = .send → c.kind ≠ .send → t.stq.length < 512 →
        exec i s0 = .next ((s.setTile n { t with stq := q ++ [c1, l] }).ctrlPoisonIf n p))
    loads (.ld n f) (copy .ld) (t0.gp f.ga || t0.gp f.gb || t0.gp f.gc)
    ∧ loads (.ldStrm n f) (strm .ldStrm) (t0.gp f.gb || t0.gp f.gc) ∧ loads (.ldOvl n f) (base .ldOvl) false
    ∧ stores (.st n f) .st (copy .st) (t0.gp f.ga || t0.gp f.gb || t0.gp f.gc)
    ∧ stores (.stStrm n f) .st (strm .stStrm) (t0.gp f.gb || t0.gp f.gc)
    ∧ stores (.stPost n f) .st { base .stPost with b := t0.gv f.gb } (t0.gp f.gb)
    ∧ stores (.send n d) .sy msg (t0.gp d.ga)

/-- What a load engine reads (R124): zeros with FOREIGN from another chip; HBM bytes; the scratchpad of the tile that
carries a logical tile; zeros as a stray where no tile does; zeros with CTRL_DISCARD from the security windows (the model's
choice for a read that they cover in part: log 96); else control registers, poison clear. What a store engine's bytes do
(R124, R135 to R137): HBM and the tile's own scratchpad take them now; another tile's take them over the die network, where
the command carries TV; another chip's go as WRITE records on their route, and without one NO_ROUTE is set; its own control
window takes them, every other control address discards them. The row that a stream's `j`-th row names and what the engine
gathers of it (R131, R132): index `j` where ISRC is 0, else the word at IBASE + 4 j; a stray row leaves zeros under SZERO and
is counted, any other lands 64 RUNITS bytes. -/
def Obligations.EngineTargetResults : Prop :=
  (∀ (n : Nat) (g : W64) (len : Nat) (s : State),
    let zeros : List (Byte × Bool) := List.replicate len (0, false)
    let off := g.toNat % 2 ^ 41
    let chip := g.toNat / 2 ^ 41 % 65536
    let space := g.toNat / 2 ^ 61
    (chip ≠ s.position → s.engineRead n g len = (s.setTile n { s.tile n with engForeign := true }, zeros))
    ∧ (chip = s.position → space = 0 → (s.engineRead n g len).2 = s.hbmBytes off len)
    ∧ (chip = s.position → space = 1 → ∀ m, s.physicalOf (off / 2 ^ 21) = some m →
        (s.engineRead n g len).2 = (s.tile m).spad.read (off % 2 ^ 21) len)
    ∧ (chip = s.position → space = 1 → s.physicalOf (off / 2 ^ 21) = none →
        s.engineRead n g len = (s.setTile n { s.tile n with engStray := true, strayRows := (s.tile n).strayRows + 1 }, zeros))
    ∧ (chip = s.position → space = 2 → (securityWindow off || securityWindow (off + len - 1)) = true →
        s.engineRead n g len = (s.setTile n { s.tile n with engCtrlDiscard := true }, zeros))
    ∧ (chip = s.position → space = 2 → (securityWindow off || securityWindow (off + len - 1)) = false →
        (s.engineRead n g len).2 = (s.ctlBytes off len).map fun b => (b, false)))
  ∧ (∀ (n : Nat) (g : W64) (data : List (Byte × Bool)) (tv : Bool) (s : State),
    let off := g.toNat % 2 ^ 41
    let chip := g.toNat / 2 ^ 41 % 65536
    let space := g.toNat / 2 ^ 61
    let l := (s.logicalOf n).getD 0
    let own := 0x1000_0000 + n * 0x10_0000
    let sent (s : State) : State := s.setTile n { s.tile n with stBytes := (s.tile n).stBytes + BitVec.ofNat 64 data.length }
    let noRoute : Res := .next (s.setTile n { s.tile n with engNoRoute := true })
    (chip = s.position → space = 0 → s.engineWrite n g data tv = .next (sent (s.hbmWrite off data true)))
    ∧ (chip = s.position → space = 1 → s.physicalOf (off / 2 ^ 21) = none → s.engineWrite n g data tv = .next (s.setTile n
        { s.tile n with engStray := true, strayRows := (s.tile n).strayRows + 1 }))
    ∧ (chip = s.position → space = 1 → s.physicalOf (off / 2 ^ 21) = some n → s.engineWrite n g data tv = .next (sent
        (s.setTile n { s.tile n with
          spad := (s.tile n).spad.write (off % 2 ^ 21) data, spadPoisonIn := (s.tile n).spadPoisonIn || data.any Prod.snd })))
    ∧ (chip = s.position → space = 1 → ∀ m, s.physicalOf (off / 2 ^ 21) = some m → m ≠ n →
        s.engineWrite n g data true = .next (sent { s with
          net := s.net ++ [.write ⟨n, m, off % 2 ^ 21, bytesGrans (data.length / 4) data⟩] })
        ∧ s.engineWrite n g data false = .fault .noToll)
    ∧ (chip ≠ s.position → (space = 0 ∨ space = 1 ∧ tv = true) →
        let r : RecWrite := ⟨l, g, bytesUnits ((data.length + 63) / 64) data⟩
        (s.sendScheduled 0 l chip (.write r) = none → s.engineWrite n g data tv = noRoute)
        ∧ ∀ u, s.sendScheduled 0 l chip (.write r) = some u → s.engineWrite n g data tv = .next (sent u))
    ∧ (chip ≠ s.position → space = 1 → s.engineWrite n g data false = .fault .noToll)
    ∧ (space = 2 → chip ≠ s.position → s.route? 0 l chip = none → s.engineWrite n g data tv = noRoute)
    ∧ (space = 2 → chip = s.position → own ≤ off → off + data.length ≤ own + 0x10_0000 →
        s.engineWrite n g data tv = .next (sent (s.tileCtlWrite n (off - own) (data.map Prod.fst))))
    ∧ (space = 2 → (chip = s.position ∧ (off < own ∨ own + 0x10_0000 < off + data.length)
          ∨ chip ≠ s.position ∧ s.route? 0 l chip ≠ none) →
        s.engineWrite n g data tv = .next (s.setTile n { s.tile n with engCtrlDiscard := true })))
  ∧ (∀ (n : Nat) (d : StrmDesc) (j : Nat) (s : State),
    let r := s.engineRead n (gaMove d.ibase (4 * j)) 4
    let x := if d.isrc = 0 then (s, j, false) else (r.1, leNat (r.2.map Prod.fst), r.2.any Prod.snd)
    let row := (x.2.1 + 2 ^ 32 - d.bias) % 2 ^ 32
    let near := (d.lbase + j * d.lstride) % 2 ^ 21
    let lands (u : State) (data : List (Byte × Bool)) : State := u.setTile n { u.tile n with
      spad := (u.tile n).spad.write near data, spadPoisonIn := (u.tile n).spadPoisonIn || data.any Prod.snd,
      ldBytes := (u.tile n).ldBytes + BitVec.ofNat 64 data.length }
    let counts (u : State) : State := u.setTile n { u.tile n with engStray := true, strayRows := (u.tile n).strayRows + 1 }
    ((x.2.2 = true ∨ d.tlen ≤ row) → s.gatherRow n d j
        = counts (if d.szero = true then lands x.1 (List.replicate (64 * d.runits) (0, x.2.2)) else x.1))
    ∧ (x.2.2 = false → row < d.tlen →
        let y := x.1.engineRead n (gaMove d.tbase (row * d.tstride % 2 ^ 64)) (64 * d.runits)
        s.gatherRow n d j = lands y.1 y.2))

/-- The load engine's commands at the head of its queue, one 64-byte unit or one row at a time (R123, R130 to R132, R160,
R74; log 98): a copy's unit lands its bytes in the scratchpad, a stream reads its descriptor once and gathers its rows in
order, an overlay fills a half of instruction memory; a command whose last unit or row has moved is done, and one of a
poisoned register acts on nothing. A reserved address is unpredictable and the model stops (R6). -/
def Obligations.LoadEngineResults : Prop :=
  ∀ (n : Nat) (c : EngCmd) (q : List EngCmd) (s : State), (s.tile n).ldq = c :: q → (s.tile n).ready c c.kind = true →
    let t := s.tile n
    let len := c.length.1
    let far := gaMove (c.b &&& ~~~3) (64 * c.row)
    let size := Nat.min 64 (len - 64 * c.row)
    let near := (c.a.toNat % 2 ^ 21 / 4 * 4 + 64 * c.row) % 2 ^ 21
    let ended (t : Tile) : Tile := { t with ldq := { c with done := true } :: q }
    let flagged (t : Tile) : Tile :=
      { t with engMisalign := t.engMisalign || c.length.2.1, engLengthClamp := t.engLengthClamp || c.length.2.2 }
    let c1 : EngCmd := { c with row := c.row + 1, done := decide (len ≤ 64 * (c.row + 1)) }
    let b := t.spad.read (c.b.toNat % 2 ^ 21 / 64 * 64) 64
    let first (d : StrmDesc) : State := (s.setTile n { t with
        ldq := { c with desc := some d } :: q, engMisalign := t.engMisalign || decide (c.b.toNat % 64 ≠ 0),
        engBadDesc := t.engBadDesc || d.bad }).detect n (t.spad.detects (c.b.toNat % 2 ^ 21 / 64 * 64) 64)
    let rowDone (c : EngCmd) (d : StrmDesc) (u : State) : State := u.setTile n { u.tile n with
      ldq := { c with row := c.row + 1, tolls := 0, done := decide (c.rows d ≤ c.row + 1) } :: (u.tile n).ldq.tail }
    (c.dead = true → (c.kind = .ld → exec (.ldExecute n) s = .next (s.setTile n (ended t)))
      ∧ (c.kind = .ldStrm → exec (.ldStrmExecute n) s = .next (s.setTile n (ended t)))
      ∧ (c.kind = .ldOvl → exec (.ldOvlExecute n) s = .next (s.setTile n (ended t))))
    ∧ (c.kind = .ld → c.dead = false → len = 0 → exec (.ldExecute n) s = .next (s.setTile n (flagged (ended t))))
    ∧ (c.kind = .ld → c.dead = false → len ≠ 0 → gaBad (c.b &&& ~~~3) = false →
        let r := s.engineRead n far size
        let u := r.1.tile n
        exec (.ldExecute n) s = .next (r.1.setTile n (flagged { u with
          spad := u.spad.write near r.2, spadPoisonIn := u.spadPoisonIn || r.2.any Prod.snd,
          ldBytes := u.ldBytes + BitVec.ofNat 64 r.2.length, ldq := c1 :: u.ldq.tail })))
    ∧ (c.kind = .ld → c.dead = false → len ≠ 0 → gaBad (c.b &&& ~~~3) = true → exec (.ldExecute n) s = .fault .badAddress)
    ∧ (c.kind = .ldStrm → c.dead = false → c.desc = none →
        let d := strmDesc b
        let cd : EngCmd := { c with desc := some d }
        (d.bad = true ∨ c.rows d = 0 → exec (.ldStrmExecute n) s = .next ((first d).setTile n { (first d).tile n with
            ldq := { cd with done := true } :: q }))
        ∧ (d.bad = false → c.rows d ≠ 0 → d.badAddress = true → exec (.ldStrmExecute n) s = .fault .badAddress)
        ∧ (d.bad = false → c.rows d ≠ 0 → d.badAddress = false →
            exec (.ldStrmExecute n) s = .next (rowDone cd d ((first d).gatherRow n d c.row))))
    ∧ (∀ d, c.kind = .ldStrm → c.dead = false → c.desc = some d → d.bad = false → c.rows d ≠ 0 → d.badAddress = false →
        exec (.ldStrmExecute n) s = .next (rowDone c d (s.gatherRow n d c.row)))
    ∧ (c.kind = .ldOvl → c.dead = false → ∀ m l x, s.image = some m → s.logicalOf n = some l →
        m.sectionFor 1 (c.imm % 4096) l = some x → ∃ u, exec (.ldOvlExecute n) s = .next u
          ∧ (∀ i, i < (s.overlayBytes m x).length / 48 → i < 4096 →
            (u.tile n).imem.get (c.imm / 4096 % 2 * 4096 + i) 0
              = BitVec.ofNat 384 (leNat (((s.overlayBytes m x).drop (48 * i)).take 48)))
          ∧ u = { s with tiles := u.tiles, hbm := u.hbm, depots := u.depots, reportsOut := u.reportsOut }
          ∧ u.hbm.bytes = s.hbm.bytes ∧ ∀ k, k ≠ n → u.tile k = s.tile k)

/-- The store engine's commands at the head of its queue, one 64-byte unit or one row at a time (R123, R130 to R137, R153,
R163, R169): the tolls first where the command carries TV or is a `send`, at once where its semaphore holds them; then the
bytes go to their target; a `send` through a BROKEN port that has no tolls yet is discarded. -/
def Obligations.StoreEngineResults : Prop :=
  ∀ (n : Nat) (c : EngCmd) (q : List EngCmd) (s : State), (s.tile n).stq = c :: q → (s.tile n).ready c c.kind = true →
    c.waiting = 0 →
    let t := s.tile n
    let done (t : Tile) : Tile := { t with stq := { c with done := true } :: q }
    let len := c.length.1
    let flagged (t : Tile) : Tile :=
      { t with engMisalign := t.engMisalign || c.length.2.1, engLengthClamp := t.engLengthClamp || c.length.2.2 }
    let far := gaMove (c.b &&& ~~~3) (64 * c.row)
    let size := Nat.min 64 (len - 64 * c.row)
    let near := (c.a.toNat % 2 ^ 21 / 4 * 4 + 64 * c.row) % 2 ^ 21
    let units (c : EngCmd) : EngCmd := { c with row := c.row + 1, done := decide (len ≤ 64 * (c.row + 1)) }
    let took (sem need : Nat) : State := s.setTile n { t.semSub sem need with
      stq := { c with tolls := need } :: q, tollCount := 0 }
    let sent (k : Nat) (u : State) : State :=
      u.setTile n { u.tile n with stBytes := (u.tile n).stBytes + BitVec.ofNat 64 k }
    (c.dead = true → (c.kind = .st → exec (.stExecute n) s = .next (s.setTile n (done t)))
      ∧ (c.kind = .stStrm → exec (.stStrmExecute n) s = .next (s.setTile n (done t)))
      ∧ (c.kind = .stPost → exec (.stPostExecute n) s = .next (s.setTile n (done t)))
      ∧ (c.kind = .send → exec (.sendExecute n) s = .next (s.setTile n (done t))))
    ∧ (c.dead = false → c.kind = .st → len = 0 → exec (.stExecute n) s = .next (s.setTile n (flagged (done t))))
    ∧ (c.dead = false → c.kind = .st → len ≠ 0 → gaBad (c.b &&& ~~~3) = true → exec (.stExecute n) s = .fault .badAddress)
    ∧ (c.dead = false → c.kind = .st → len ≠ 0 → gaBad (c.b &&& ~~~3) = false → (c.tv = false ∨ c.tolls ≠ 0) →
        let s1 := (s.setTile n { t with stq := units c :: q }).detect n (t.spad.detects near size)
        let data := t.spad.read near size
        (∀ u, s1.engineWrite n far data c.tv = .next u → exec (.stExecute n) s = .next (u.setTile n (flagged (u.tile n))))
        ∧ (∀ e, s1.engineWrite n far data c.tv = .fault e → exec (.stExecute n) s = .fault e)
        ∧ (far.toNat / 2 ^ 41 % 65536 = s.position → far.toNat / 2 ^ 61 = 0 →
          let u := sent data.length (s1.hbmWrite (far.toNat % 2 ^ 41) data true)
          exec (.stExecute n) s = .next (u.setTile n (flagged (u.tile n)))))
    ∧ (c.dead = false → c.kind = .st → len ≠ 0 → gaBad (c.b &&& ~~~3) = false → c.tv = true → c.tolls = 0 →
        (t.tollsIn c.toll < (len + 63) / 64 →
          exec (.stExecute n) s = .next (s.setTile n { t with stq := { c with waiting := (len + 63) / 64 } :: q }))
        ∧ ((len + 63) / 64 ≤ t.tollsIn c.toll → exec (.stExecute n) s = exec (.stExecute n) (took c.toll ((len + 63) / 64))))
    ∧ (c.dead = false → c.kind = .stPost →
        exec (.stPostExecute n) s = .next ((s.setTile n (done t)).signalFrom n 0 c.b (c.imm % 256))
        ∧ (refChip c.b = s.position → exec (.stPostExecute n) s = .next { s.setTile n (done t) with
            net := s.net ++ [.signal ⟨some n, c.b, c.imm % 256⟩] }))
    ∧ (c.dead = false → c.kind = .stStrm → c.desc = none →
        let a := c.b.toNat % 2 ^ 21 / 64 * 64
        let d := strmDesc (t.spad.read a 64)
        let cd : EngCmd := { c with desc := some d }
        let s1 := (s.setTile n { t with stq := cd :: q, engMisalign := t.engMisalign || decide (c.b.toNat % 64 ≠ 0),
                                        engBadDesc := t.engBadDesc || d.bad }).detect n (t.spad.detects a 64)
        (d.bad = true ∨ c.rows d = 0 → exec (.stStrmExecute n) s = .next (s1.setTile n { s1.tile n with
            stq := { cd with done := true } :: q }))
        ∧ (d.bad = false → c.rows d ≠ 0 → d.badAddress = true → exec (.stStrmExecute n) s = .fault .badAddress))
    ∧ (∀ d, c.dead = false → c.kind = .stStrm → c.desc = some d → d.bad = false → c.rows d ≠ 0 → d.badAddress = false →
        d.isrc = 0 →
        let row := (c.row + 2 ^ 32 - d.bias) % 2 ^ 32
        let g := gaMove d.tbase (row * d.tstride % 2 ^ 64)
        let near := (d.lbase + c.row * d.lstride) % 2 ^ 21
        let c1 : EngCmd := { c with row := c.row + 1, tolls := 0, done := decide (c.rows d ≤ c.row + 1) }
        let s1 := (s.setTile n { t with stq := c1 :: q }).detect n (t.spad.detects near (64 * d.runits))
        let data := t.spad.read near (64 * d.runits)
        (d.tlen ≤ row → exec (.stStrmExecute n) s = .next (s.setTile n { t with
            stq := c1 :: q, engStray := true, strayRows := t.strayRows + 1 }))
        ∧ (row < d.tlen → (c.tv = false ∨ c.tolls ≠ 0) → d.runits ≠ 0 →
            exec (.stStrmExecute n) s = s1.engineWrite n g data c.tv
            ∧ (g.toNat / 2 ^ 41 % 65536 = s.position → g.toNat / 2 ^ 61 = 0 →
              exec (.stStrmExecute n) s = .next (sent data.length (s1.hbmWrite (g.toNat % 2 ^ 41) data true))))
        ∧ (row < d.tlen → c.tv = true → c.tolls = 0 → t.tollsIn c.toll < d.runits →
            exec (.stStrmExecute n) s = .next (s.setTile n { t with stq := { c with waiting := d.runits } :: q }))
        ∧ (row < d.tlen → c.tv = true → c.tolls = 0 → 0 < d.runits → d.runits ≤ t.tollsIn c.toll →
            exec (.stStrmExecute n) s = exec (.stStrmExecute n) (took c.toll d.runits)))
    ∧ (c.dead = false → c.kind = .send →
        let o := t.oc.get c.oc {}
        let u := { t with engMisalign := t.engMisalign || decide (c.a.toNat % 64 ≠ 0) }
        (o.broken = true → c.tolls = 0 → exec (.sendExecute n) s = .next (s.setTile n { u with
            stq := { c with done := true, waiting := 0 } :: q, syncReaderGone := true, tollCount := 0,
            oc := t.oc.set c.oc { o with discarded := o.discarded + 1, readerGone := true } }))
        ∧ (o.broken = false → c.tolls = 0 → t.tollsIn o.toll < (o.plan c.len).1 →
            exec (.sendExecute n) s = .next (s.setTile n { u with stq := { c with waiting := (o.plan c.len).1 } :: q }))
        ∧ (o.broken = false → c.tolls = 0 → c.len ≠ 0 → (o.plan c.len).1 ≤ t.tollsIn o.toll →
            exec (.sendExecute n) s = exec (.sendExecute n) (took o.toll (o.plan c.len).1))
        ∧ (c.tolls ≠ 0 → exec (.sendExecute n) s = .next ((s.setTile n u).sendMessage n c)
          ∧ ∀ data, data = t.spad.readGrans (c.a.toNat % 2 ^ 21 / 64 * 64) (64 * c.len) → o.chip = s.position →
            ((s.setTile n u).sendMessage n c).net = s.net
              ++ [.msg ⟨some n, o.tile, o.ch, o.seq.toNat, (o.plan c.len).2.2, o.wrPos, (o.plan c.len).2.1, data⟩]))

/-- A waiting store engine takes its tolls once the semaphore holds them, counts the row cycle otherwise, and drops a
send whose port became BROKEN (R134, R159, R163, R169); a completed command leaves its queue and signals (R125, R127). -/
def Obligations.CompletionResults : Prop :=
  ∀ (n : Nat) (c : EngCmd) (q : List EngCmd) (s : State), (s.tile n).st ≠ .fault →
    let t := s.tile n
    let o := t.oc.get c.oc {}
    let sem := if c.kind = .send then o.toll else c.toll
    let signal (u : Tile) : Tile := if c.sv then u.semAdd c.sem 1 else u
    (t.stq = c :: q → 0 < c.waiting → ¬ (c.kind = .send ∧ o.broken = true) →
      (c.waiting ≤ t.tollsIn sem → exec (.tollTake n) s = .next (s.setTile n
        { (t.semSub sem c.waiting) with stq := { c with tolls := c.waiting, waiting := 0 } :: q, tollCount := 0 }))
      ∧ (t.tollsIn sem < c.waiting → exec (.tollTake n) s = .next (s.setTile n { t with
          tollWait := t.tollWait + 1, tollCount := if t.wdogLimit = 0 then t.tollCount else t.tollCount + 1,
          oc := if c.kind = .send then t.oc.set c.oc { o with stall := o.stall + 1 } else t.oc })))
    ∧ (t.stq = c :: q → 0 < c.waiting → c.kind = .send → o.broken = true →
        exec (.tollTake n) s = .next (s.setTile n { t with
          stq := { c with done := true, waiting := 0 } :: q, syncReaderGone := true, tollCount := 0,
          oc := t.oc.set c.oc { o with discarded := o.discarded + 1, readerGone := true } }))
    ∧ (t.ldq = c :: q → c.done = true → exec (.engineCompletion n false) s = .next (s.setTile n
        { signal t with ldq := q, ldDone := t.ldDone + 1 }))
    ∧ (t.stq = c :: q → c.done = true → s.storesLanded n = true → exec (.engineCompletion n true) s = .next (s.setTile n
        { signal t with stq := q, stDone := t.stDone + 1 }))

/-! ### The sync slot and channels (06_belays_channels.md) -/

/-- Semaphore arithmetic at the end of a row cycle (R146): the cycle's increments first, saturating at 0xFFFF with OVF, then
its decrements, stopping at zero with UNF; until then a reader sees the value at the cycle's start. A tile that does not run
applies each at once: log 47. -/
def Obligations.SemaphoreArithmetic : Prop :=
  (∀ (m : Sem), m.value ≤ 0xFFFF →
    let v := Nat.min 0xFFFF (m.value + m.incs)
    m.settle.value = v - m.decs ∧ m.settle.value ≤ 0xFFFF ∧ m.settle.incs = 0 ∧ m.settle.decs = 0
    ∧ (m.settle.ovf = true ↔ m.ovf = true ∨ 0xFFFF < m.value + m.incs) ∧ (m.settle.unf = true ↔ m.unf = true ∨ v < m.decs))
  ∧ (∀ (t : Tile) (i k : Nat),
    let up : Sem := { t.sem i with incs := (t.sem i).incs + k }
    let down : Sem := { t.sem i with decs := (t.sem i).decs + k }
    (t.endRow.sem i) = (t.sem i).settle
    ∧ (t.inCycle = true → (t.semAdd i k).sem i = up ∧ (t.semSub i k).sem i = down
      ∧ ∀ j, j ≠ i → (t.semAdd i k).sem j = t.sem j ∧ (t.semSub i k).sem j = t.sem j)
    ∧ (t.inCycle = false → (t.semAdd i k).sem i = up.settle ∧ (t.semSub i k).sem i = down.settle))

/-- Waits, signals and decrements of local semaphores (R148, R150): a bundle at the head of issue issues in the row
cycle in which its wait holds, and holds otherwise, counting the cycle. `rsig` and `arrive` (R153, R156): over the die
network on this chip; a poisoned reference sends nothing; an arrival advances its port's tag. -/
def Obligations.SemaphoreResults : Prop :=
  (∀ (n : Nat) (f : SyA) (s0 : State),
    let s := if (s0.tile n).syHold = true then s0.setTile n (s0.tile n).endRow else s0
    let t := s.tile n
    let i := f.sem.toNat
    let k := f.n.toNat
    let issued : Tile := { t with used := .sy :: t.used, syHold := false, syCount := 0 }
    let held : Tile := { t with
      syHold := true, holdWait := t.holdWait + 1, syCount := if t.wdogLimit = 0 then t.syCount else t.syCount + 1 }
    ((s0.tile n).atHead = true → k ≤ (t.sem i).value →
      exec (.wait n f) s0 = .next (s.setTile n (issued.semSub i k)) ∧ exec (.waitK n f) s0 = .next (s.setTile n issued))
    ∧ ((s0.tile n).atHead = true → (t.sem i).value < k →
      exec (.wait n f) s0 = .next (s.setTile n held) ∧ exec (.waitK n f) s0 = .next (s.setTile n held))
    ∧ (s0.mayIssue n .sy = true →
      let s := s0.take n .sy
      exec (.sig n f) s0 = .next (s.setTile n ((s.tile n).semAdd i k))
      ∧ exec (.sdec n f) s0 = .next (s.setTile n ((s.tile n).semSub i k))))
  ∧ (∀ (n : Nat) (f : SyB) (b : SyC) (s0 : State), s0.mayIssue n .sy = true →
    let s := s0.take n .sy
    let t := s.tile n
    let ref := t.gv f.ga
    let l := (s.logicalOf n).getD 0
    let p := t.bp.get b.bp.toNat {}
    let s1 := s.setTile n { t with bp := t.bp.set b.bp.toNat { p with tag := p.next, next := p.next + 1 } }
    let dest := BitVec.ofNat 64 (2 ^ 62 + p.chip * 2 ^ 40 + p.index)
    (t.gp f.ga = true → exec (.rsig n f) s0 = .next (s.ctrlPoison n))
    ∧ (t.gp f.ga = false → refChip ref = s.position →
        exec (.rsig n f) s0 = .next { s with net := s.net ++ [.signal ⟨none, ref, f.n.toNat⟩] })
    ∧ (t.gp f.ga = false → refChip ref ≠ s.position →
        (s.sendScheduled 1 l (refChip ref) (.signal ⟨l, f.n.toNat, ref⟩) = none →
          exec (.rsig n f) s0 = .next (s.setTile n { t with syncNoRoute := true }))
        ∧ ∀ u, s.sendScheduled 1 l (refChip ref) (.signal ⟨l, f.n.toNat, ref⟩) = some u → exec (.rsig n f) s0 = .next u)
    ∧ (p.valid = false → exec (.arrive n b) s0 = .next s1)
    ∧ (p.valid = true → p.chip = s.position → exec (.arrive n b) s0 = .next { s1 with
        net := s1.net ++ [.arrive dest p.next.toNat] })
    ∧ (p.valid = true → p.chip ≠ s.position →
        (s1.sendScheduled 1 l p.chip (.arrive ⟨l, p.next.toNat, dest⟩) = none →
          exec (.arrive n b) s0 = .next (s1.setTile n { s1.tile n with syncNoRoute := true }))
        ∧ ∀ u, s1.sendScheduled 1 l p.chip (.arrive ⟨l, p.next.toNat, dest⟩) = some u → exec (.arrive n b) s0 = .next u))

/-- `bwait` and `belay` (R156, R157, R218): they wait until the port's most recent arrival is released, and their issue
arms the crossings anchored to that belay; `belay` arrives first, once. -/
def Obligations.BelayResults : Prop :=
  ∀ (n : Nat) (b : SyC) (s0 : State), (s0.tile n).atHead = true →
    let s := if (s0.tile n).syHold = true then s0.setTile n (s0.tile n).endRow else s0
    let t := s.tile n
    let bp := b.bp.toNat
    let held (t : Tile) : Tile := { t with
      syHold := true, holdWait := t.holdWait + 1, syCount := if t.wdogLimit = 0 then t.syCount else t.syCount + 1 }
    let armed (t : Tile) : Tile := { t with
      used := .sy :: t.used, syHold := false, syCount := 0, crossings := t.crossings.map fun e =>
        if (t.bp.get bp {}).valid = true ∧ e.anchor = (t.bp.get bp {}).index then { e with armed := some t.cyc } else e }
    ((t.bp.get bp {}).released = true → exec (.bwait n b) s0 = .next (s.setTile n (armed t)))
    ∧ ((t.bp.get bp {}).released = false → exec (.bwait n b) s0 = .next (s.setTile n (held t)))
    ∧ ((s0.tile n).belaySent = true → (t.bp.get bp {}).released = true →
        exec (.belay n b) s0 = .next (s.setTile n { armed t with belaySent := false }))
    ∧ ((s0.tile n).belaySent = true → (t.bp.get bp {}).released = false → exec (.belay n b) s0 = .next (s.setTile n (held t)))
    ∧ ((s0.tile n).belaySent = false → (s0.tile n).syHold = false →
        let s1 := s0.arrivePort n bp
        let t1 : Tile := { s1.tile n with belaySent := true }
        ((t1.bp.get bp {}).released = false → exec (.belay n b) s0 = .next (s1.setTile n (held t1)))
        ∧ ((t1.bp.get bp {}).released = true → exec (.belay n b) s0 = .next (s1.setTile n { armed t1 with belaySent := false })))

/-- Receives (R166): the lowest selected channel with a staged message, or the first from the rotation on; its registers
take the data and the record word in the next issue cycle, and its entries go back as tolls; with none the bundle holds and
each selected channel counts it. The items of a channel's ring (R163 to R165): a message is staged, a pad and a duplicate
are skipped and their room granted back. -/
def Obligations.ReceiveResults : Prop :=
  (∀ (n : Nat) (f : SyE) (s0 : State), (s0.tile n).atHead = true →
    let s := if (s0.tile n).syHold = true then s0.setTile n (s0.tile n).endRow else s0
    let t := s.tile n
    let issued : Tile := { t with used := .sy :: t.used, syHold := false, syCount := 0 }
    let x (c : Nat) : Chan := t.ch.get c {}
    let takes (c : Nat) (m : Staged) : State := (s.setTile n { issued with
        flight := t.flight ++ [⟨t.cyc + 1, .v f.vd.toNat (m.data ++ List.replicate (128 - m.data.length) ⟨0, false⟩)⟩,
          ⟨t.cyc + 1, .g f.gd.toNat (BitVec.ofNat 64 (m.seq * 2 ^ 48 + c * 2 ^ 36 + (m.len - 1) * 2 ^ 32 + m.pos)) false⟩],
        ch := t.ch.set c { x c with staged := none, received := (x c).received + 1,
                                    rdPos := if (x c).size = 0 then 0 else (m.pos + m.len) % (x c).size } }).grant n c m.len
    let first (c r : Nat) : Prop := c < 16 ∧ f.mask.getLsbD c = true
      ∧ ∀ d, d < 16 → f.mask.getLsbD d = true → (x d).staged ≠ none → (c + 16 - r) % 16 ≤ (d + 16 - r) % 16
    let r := (t.lastRecv).elim 0 fun c => (c + 1) % 16
    let held : Tile := { t with
      ch := (t.stallChans f.mask).ch, syHold := true, holdWait := t.holdWait + 1,
      syCount := if t.wdogLimit = 0 then t.syCount else t.syCount + 1 }
    (∀ c m, (x c).staged = some m → first c 0 → exec (.recv n f) s0 = .next (takes c m))
    ∧ (∀ c m, (x c).staged = some m → first c r → exec (.recvR n f) s0 = .next ((takes c m).setTile n
        { (takes c m).tile n with lastRecv := some c }))
    ∧ ((∀ c, c < 16 → f.mask.getLsbD c = true → (x c).staged = none) →
        exec (.recv n f) s0 = .next (s.setTile n held) ∧ exec (.recvR n f) s0 = .next (s.setTile n held)
        ∧ ∀ c, c < 16 → (t.stallChans f.mask).ch.get c {} = if f.mask.getLsbD c = true
            then { x c with recvStall := (x c).recvStall + 1 } else x c))
  ∧ (∀ (n c : Nat) (s : State),
    let t := s.tile n
    let x := t.ch.get c {}
    (∀ p len q, t.ringHead c = some (.message p len q) →
      let a := x.base + 64 * p
      exec (.stageMessage n c) s = .next ((s.setTile n { t with ch := t.ch.set c { x with
        staged := some ⟨p, q, len, t.spad.readGrans a (64 * len)⟩, items := x.items.tail } }).detect n
        (t.spad.detects a (64 * len))))
    ∧ (∀ p, t.ringHead c = some (.pad p) → exec (.padSkip n c) s = .next ((s.setTile n { t with
        ch := t.ch.set c { x with rdPos := 0, items := x.items.tail } }).grant n c (x.size - p)))
    ∧ (∀ p len, x.size ≠ 0 → t.ringHead c = some (.duplicate p len) → exec (.duplicateSkip n c) s = .next ((s.setTile n { t with
        ch := t.ch.set c { x with rdPos := (p + len) % x.size, items := x.items.tail } }).grant n c len)))

/-- What reaches a tile over the die network, once nothing of its stream is before it (R136, R137, R141, R153, R154,
R164). A signal at its target (R146, R152, R153): a local semaphore of this chip's logical tile or a counter semaphore
goes up; one that can act on nothing is counted (so is one that names a local semaphore above 63: the model's choice,
log 100). A message (R162 to R164): its data lands at its position of the ring, its record behind the ring, and the
channel lists it, as a duplicate where its sequence number is behind the expected one. -/
def Obligations.InboundResults : Prop :=
  (∀ (s : State),
    (∀ w : InWrite, s.mayLand (.write w) = true →
      let t := s.tile w.tile
      let data := gransBytes w.data
      exec (.inboundWrite w) s = .next ({ s with net := s.net.erase (.write w) }.setTile w.tile { t with
        spad := t.spad.write w.addr data, spadPoisonIn := t.spadPoisonIn || data.any Prod.snd,
        inboundBytes := t.inboundBytes + BitVec.ofNat 64 data.length }))
    ∧ (∀ r : InSignal, s.mayLand (.signal r) = true →
        ∃ u, exec (.remoteSignal r) s = .next u ∧ SignalDone { s with net := s.net.erase (.signal r) } r.ref r.inc u)
    ∧ (∀ (ref : W64) (tag : Nat), ∃ u, exec (.belayArrival ref tag) s = .next u
        ∧ ArrivalDone { s with net := s.net.erase (.arrive ref tag) } ref tag u)
    ∧ (∀ m : InMsg, s.mayLand (.msg m) = true → ∃ u, exec (.messageDelivery m) s = .next u
        ∧ MessageDone { s with net := s.net.erase (.msg m) } m u))
  ∧ (∀ (ref : W64) (inc : Nat) (s : State), SignalDone s ref inc (s.applySignal ref inc))

/-! ### Bundles, holds and crossings (03, 05, 08) -/

/-- The marks of a bundle and the end of its cycle (R54, R55, R60, R71, R106): in the next issue cycle the effects that fall
due are visible and the sequencer has moved, unless the cycle's requests conflict in a bank: then the tile holds. -/
def Obligations.BundleEndResults : Prop :=
  ∀ (n : Nat) (lend : BitVec 4) (s0 : State),
    (s0.mayIssue n .stop = true → let s := s0.take n .stop
      exec (.stop n) s0 = .next (s.setTile n { s.tile n with ctl := .stopped }))
    ∧ (s0.mayIssue n .lend = true →
      let s := s0.take n .lend
      let t := s.tile n
      (∀ ls, lendGo t lend t.loops = (ls, none) → exec (.loopEnd n lend) s0 = .next (s.setTile n { t with loops := ls }))
      ∧ (∀ ls l i a, lendGo t lend t.loops = (ls, some (l, i, a)) → exec (.loopEnd n lend) s0 = .next (s.setTile n
          { t with flight := t.flight ++ [⟨t.cyc + 1, .lcIndex l i⟩], ctl := .back (BitVec.ofNat 12 a), loops := ls })))
    ∧ ((s0.tile n).inIssue = true →
      let t0 := ((s0.tile n).runFills s0.formats).1
      let t1 := (if t0.bubble then t0 else { t0 with lastPc := t0.pc }).endRow
      let stall := stallCycles t1.hash t1.reqR t1.reqW
      let due := t1.flight.filter fun x => decide (x.due ≤ t1.cyc + 1) && !x.eff.isFillRead
      let rest := t1.flight.filter fun x => !(decide (x.due ≤ t1.cyc + 1) && !x.eff.isFillRead)
      let t2 := (({ t1 with cyc := t1.cyc + 1, flight := rest, reqR := [], reqW := [], used := [] }).applyAll due).1
      ∃ u, exec (.pipelineWriteback n) s0 = .next u ∧ u = { s0 with tiles := u.tiles, reportsOut := u.reportsOut }
        ∧ (∀ m, m ≠ n → u.tile m = s0.tile m) ∧ (stall ≠ 0 → u.tile n = { t1 with bankHold := stall })
        ∧ (stall = 0 → u.tile n = match t2.ctl with
            | .seq => { t2 with pc := t2.pc + 1, bubble := false }
            | .jump h a => { t2 with bubble := true, ctl := .land h a }
            | .land h a => { t2 with half := h, pc := a, bubble := false, ctl := .seq }
            | .back a => { t2 with pc := a, bubble := false, ctl := .seq }
            | .stopped => { t2 with bubble := true }))
    ∧ (0 < (s0.tile n).bankHold →
      let t := s0.tile n
      ∃ u, exec (.bankStallEnd n) s0 = .next u ∧ u = { s0 with tiles := u.tiles, reportsOut := u.reportsOut }
        ∧ (∀ m, m ≠ n → u.tile m = s0.tile m) ∧ (u.tile n).bankHold = 0
        ∧ (u.tile n).holdBank = t.holdBank + BitVec.ofNat 64 t.bankHold ∧ (u.tile n).cyc = t.cyc + 1 ∧ (u.tile n).used = [])

/-- A stopped tile with nothing in flight is DONE once its queues are empty, and the last one ends the run (R60, R433);
parity of the bundle at the head, a watchdog of a wait and one of a boundary put tiles into FAULT (R76, R159, R160,
R221). The four states of a crossing endpoint (R223). -/
def Obligations.TileStateResults : Prop :=
  (∀ (n : Nat) (toll : Bool) (s : State),
    let t := s.tile n
    let ended := s.setTile n { t.endRow with st := .done }
    let faulted (c : Instr) (f : Tile → Prop) : Prop := ∃ u, exec c s = .next u ∧ (u.tile n).st = .fault ∧ f (u.tile n)
      ∧ u.faultsOut = s.faultsOut ++ [n] ∧ u = { s with tiles := u.tiles, faultsOut := u.faultsOut }
      ∧ ∀ m, m ≠ n → u.tile m = s.tile m
    (t.drained = true → t.bHold = false → t.ldq = [] → t.stq = [] →
      ((s.dev ≠ .running ∨ ended.allDone = false) → exec (.tileDone n) s = .next ended)
      ∧ (s.dev = .running → ended.allDone = true → exec (.tileDone n) s = .next (ended.enter .halted .done s.step)))
    ∧ (t.drained = true → t.bHold = false → (t.ldq ≠ [] ∨ t.stq ≠ []) →
        exec (.tileDone n) s = .next (s.setTile n { t.endRow with st := .hold, holdWait := t.holdWait + 1 }))
    ∧ (t.st = .run → t.bubble = false → faulted (.imemParity n) fun u => u.shown.imemParity = true)
    ∧ (t.wdogDue toll = true → t.st ≠ .fault → faulted (.waitWatchdog n toll) fun u => u.lastPc = t.pc
        ∧ u.shown.syncWdogToll = (t.shown.syncWdogToll || toll) ∧ u.shown.syncWdogSy = (t.shown.syncWdogSy || !toll))
    ∧ (∀ r m, s.image = some m → (s.row r).holds ≠ [] → m.wdog ≠ 0 → 2 ^ m.wdog ≤ (s.row r).holdCount →
        ∃ u, exec (.boundaryWatchdog r) s = .next u ∧ (u.row r).holds = [] ∧ (u.row r).holdCount = 0
          ∧ (∀ h, h ∈ (s.row r).holds → s.notReady h = true → (u.bq (2 * h.pair + h.dir)).stuck = true)
          ∧ u = { s with tiles := u.tiles, rows := u.rows, bqs := u.bqs, faultsOut := u.faultsOut }
          ∧ (∀ n, n / 25 ≠ r → u.tile n = s.tile n)
          ∧ ∀ k, k < 25 → ((s.tile (25 * r + k)).bHold = true → (u.tile (25 * r + k)).st = .fault)
            ∧ ((s.tile (25 * r + k)).bHold = false → u.tile (25 * r + k) = s.tile (25 * r + k))))
  ∧ (∀ (e : Nat) (s : State),
    let x := s.endpoint e
    (x.st = .up → exec (.partnerRst e) s = .next ((s.flushCrossing e).setEndpoint e { x with st := .partnerDown, ack := true }))
    ∧ (x.st = .down → exec (.ownResetEnd e) s = .next (s.setEndpoint e { x with st := .rejoin, rst := false, ready := true }))
    ∧ (x.st = .rejoin → exec (.partnerAckFall e) s = .next (s.setEndpoint e { x with st := .up, ready := false })
        ∧ exec (.partnerReady e) s = .next (s.setEndpoint e { x with st := .up, ready := false }))
    ∧ (x.st = .partnerDown → exec (.partnerReady e) s = .next (s.setEndpoint e { x with st := .up, ack := false })))

/-! ### Caravan (09_caravan.md) -/

/-- A link's way up: enabled, a signal, training, the capability exchange and the alignment (R253 to R255). A port in UP
fails on a lost lane, on eight transmissions of a flit or 2,048 slots without an answer, and when nothing good has come
for the watchdog's slots: FAILED, its flag set and base camp notified (R261, R263, R286); a flit whose last transmission no
answer covers in its round trip and 4 slots is sent again (R261). -/
def Obligations.LinkResults : Prop :=
  (∀ (p : Nat) (s : State),
    let x := s.port p
    let put (y : CvPort) : State := { s with ports := s.ports.set p y }
    exec (.portEnable p) s = .next (put { x with enable := true })
    ∧ exec (.linkRetryTimer p) s = .next (put { x with retryWait := false })
    ∧ (x.st = .down → x.enable = true → x.retryWait = false → exec (.signalPresent p) s = .next (put { x with st := .train }))
    ∧ (x.st = .train → exec (.trainComplete p) s = .next (put { x with st := .caps })
        ∧ ∀ never, exec (.trainTimeout p never) s = .next (put { x with
            st := .down, retryWait := true, errLaneFail := x.errLaneFail || never }))
    ∧ (∀ c : CapFlit, x.st = .caps → c.magicOk = true → c.minver ≤ 1 → 1 ≤ c.maxver → s.image = none →
        exec (.capabilityFlit p c) s = .next (put { x with
          st := .align, pVersion := 1, pPort := c.port, pRole := c.role, pId := c.id, pImageTag := c.imageTag }))
    ∧ (∀ c : CapFlit, x.st = .caps → c.magicOk = true → ¬ (c.minver ≤ 1 ∧ 1 ≤ c.maxver) →
        exec (.capabilityFlit p c) s = .next (put { x with st := .down, retryWait := true, errCap := true }))
    ∧ (∀ rtt, x.st = .align → rtt ≤ 640 → exec (.alignComplete p rtt) s = .next ((put { x with
        st := .up, rtt := rtt, lastGood := s.cv.slotCount, tbl := s.cv.tbl, alt := s.cv.alt, open_ := s.cv.open_, cur := none,
        previous := none, prevOpen := false, taken := [], missing := [], reorder := [], groups := [], wraps := [] }).linkEvent 0 p 1))
    ∧ (∀ rtt, x.st = .align → 640 < rtt → exec (.alignComplete p rtt) s = .next (put { x with
        st := .down, retryWait := true, errCable := true }))
    ∧ (x.st ≠ .up → exec (.portDisable p) s = .next (put { x with
        enable := false, st := .down, answers := [], idleAns := [], lastTx := none, rxCount := 0, wpT3 := 0, wpArrival := 0 }))
    ∧ (x.st = .up → exec (.portDisable p) s = .next ((put { x with enable := false }).leaveUp p .down)))
  ∧ (∀ (p : Nat) (s : State),
    let x := s.port p
    let put (y : CvPort) : State := { s with ports := s.ports.set p y }
    let fails (y : CvPort) : State := ((put y).leaveUp p .failed).notify 10 (BitVec.ofNat 64 p)
    (x.st = .up → exec (.laneFail p) s = .next (fails { x with errLaneFail := true }))
    ∧ (x.st = .up → (∃ i ∈ x.retry, 8 ≤ i.sends ∨ i.firstAt + 2048 ≤ s.cv.slotCount) →
        exec (.retryLimit p) s = .next (fails { x with errRetryLimit := true }))
    ∧ (∀ m, x.wdogSlots = some m → x.st = .up → x.lastGood + m ≤ s.cv.slotCount →
        exec (.portWatchdog p) s = .next (fails { x with errWdog := true }))
    ∧ exec (.retryTimeout p) s = .next (put { x with retry := x.retry.map fun i =>
        if (∃ t, i.sent.getLast? = some t ∧ t + x.rtt + 4 < s.cv.slotCount) then { i with lost := true } else i }))

/-- Slots out carry the answer that is due (R260) and one flit each: a capability or link-control flit while a link comes
up (R254), a queue's next flit in a scheduled slot, kept for retry with the slot's leg and index (R261, R266), in a slack
slot the lost flit that was sent first, as it was sent (R261, R264), in a dynamic slot the next flit of a record under way,
else the first of the record of the highest priority (R276, R277), else idle; a flit that waits for room joins its queue, or
the cycle counts (R269). Slots in on a port in ALIGN or UP (R250, R259, R260, R262, R267): a bad codeword is answered with
a NAK of its slot, a good flit is received once and answered: a duplicate counts, a head with poison is discarded, a flit
behind one that is missing waits, a flit to be forwarded joins the queue of its receive-table entry, and one that finds no
room there is refused. -/
def Obligations.SlotResults : Prop :=
  (∀ (p : Nat) (s : State),
    let x := s.port p
    let now := s.cv.slotCount
    let onlyHere (u : State) : Prop := u = { s with ports := u.ports } ∧ ∀ q, q ≠ p → u.port q = s.port q
    let answered (sl : Slot) : Prop := (∀ a, x.answers.find? (·.2) = some a → sl.ak = 2 ∧ sl.aslot = a.1)
      ∧ (∀ a, x.answers.find? (·.2) = none → x.answers.getLast? = some a → sl.ak = 1 ∧ sl.aslot = a.1)
      ∧ (x.answers = [] → sl.ak = 0)
    let sent (u : State) (kind psn : Nat) (flit : BitVec 2048) : Prop := onlyHere u ∧ ∃ sl, (u.port p).lastTx = some sl
      ∧ sl.kind = kind ∧ sl.leg = now / 1024 % 4 ∧ sl.slot = now % 1024 ∧ sl.tbl = x.tbl ∧ sl.psn = psn ∧ sl.flit = flit ∧ answered sl
    let kept (u : State) (q : Nat) (f : QFlit) : Prop := ∃ i, (u.port p).retry = x.retry ++ [i] ∧ i.lost = false ∧ i.sends = 1
      ∧ i.queue = q ∧ i.firstAt = now ∧ i.sent = [now] ∧ i.slot.flit = f.flit ∧ i.slot.kind = f.kind
    (∀ ecc, x.st = .caps → ∃ u, exec (.slotTransmit ⟨p, ecc⟩) s = .next u ∧ sent u 3 0 (BitVec.ofNat 2048 (leNat (s.capBytes p))))
    ∧ (∀ ecc, x.st = .align → ∃ u, exec (.slotTransmit ⟨p, ecc⟩) s = .next u ∧ sent u 3 0 (Config.echoFlit now))
    ∧ (∀ ecc, x.st = .up → s.slotClass p (now % 1024) = .empty → ∃ u, exec (.slotTransmit ⟨p, ecc⟩) s = .next u ∧ sent u 0 0 0)
    ∧ (∀ q opp f l, x.st = .up → s.rst.warm = false → s.slotClass p (now % 1024) = .scheduled q opp → x.retry.length < 2048 →
        x.queues.get q [] = f :: l →
        ∃ u, exec (.slotTransmit ⟨p, false⟩) s = .next u ∧ sent u f.kind f.psn f.flit ∧ (u.port p).queues.get q [] = l ∧ kept u q f)
    ∧ (∀ q ecc, x.st = .up → s.rst.warm = false → s.slotClass p (now % 1024) = .scheduled q false → x.queues.get q [] = [] →
        ∃ u, exec (.slotTransmit ⟨p, ecc⟩) s = .next u ∧ sent u 0 0 0)
    ∧ (∀ ecc r l f rest, x.st = .up → s.rst.warm = false → s.slotClass p (now % 1024) = .dynamic → x.noSlack = false →
        x.retry.length < 2048 → x.dynOut = [] → pickDyn x.dynq = some (r, l) → recFlits (s.stampWaypoint p r) = f :: rest →
        ∃ u, exec (.slotTransmit ⟨p, ecc⟩) s = .next u ∧ sent u f.kind f.psn f.flit
          ∧ (u.port p).dynq = x.dynq.erase r ∧ (u.port p).dynOut = rest ∧ kept u 256 f)
    ∧ (∀ ecc f l, x.st = .up → s.rst.warm = false → s.slotClass p (now % 1024) = .dynamic → x.noSlack = false →
        x.retry.length < 2048 → x.dynOut = f :: l → pickDyn (x.dynq.filter fun r => decide (recPriority r.body = 0)) = none →
        ∃ u, exec (.slotTransmit ⟨p, ecc⟩) s = .next u ∧ sent u f.kind f.psn f.flit
          ∧ (u.port p).dynq = x.dynq ∧ (u.port p).dynOut = l ∧ kept u 256 f)
    ∧ (∀ i, x.st = .up → s.slotClass p (now % 1024) = .slack → x.firstLost = some i → x.firstIdle = none →
        ∃ u sl, exec (.slotTransmit ⟨p, false⟩) s = .next u ∧ onlyHere u ∧ (u.port p).lastTx = some sl ∧ answered sl
          ∧ { sl with ak := 0, aslot := 0 } = { i.slot with ak := 0, aslot := 0 }
          ∧ (u.port p).retry = x.retry.map fun j =>
            if j = i then { i with lost := false, sends := i.sends + 1, sent := i.sent ++ [now] } else j)
    ∧ (∀ n ecc, x.st = .up → s.slotClass p (now % 1024) = .slack → x.firstLost = none → x.firstIdle = some n →
        ∃ u sl, exec (.slotTransmit ⟨p, ecc⟩) s = .next u ∧ onlyHere u ∧ (u.port p).lastTx = some sl ∧ answered sl
          ∧ sl.kind = 0 ∧ sl.leg = n / 1024 % 4 ∧ sl.slot = n % 1024 ∧ (u.port p).idleAns = x.idleAns.erase n)
    ∧ (∀ q f l, x.offers.get q [] = f :: l → x.room q = true → ∃ u, exec (.queueRoom p q) s = .next u ∧ onlyHere u
        ∧ (u.port p).queues.get q [] = x.queues.get q [] ++ [f] ∧ (u.port p).offers.get q [] = l)
    ∧ (∀ q f l, x.offers.get q [] = f :: l → x.room q = false →
        exec (.queueRoom p q) s = .next { s with ports := s.ports.set p (x.count cvQueueWait 1) }))
  ∧ (∀ (p : Nat) (sl : Slot) (ecc : Bool) (n : FecCount) (s : State),
    let x := s.port p
    let put (y : CvPort) : State := { s with ports := s.ports.set p y }
    let fec := (x.count cvFecCorrected n.fixed).count cvFecUncorrected n.lost
    let got := { fec.answered s.cv.slotCount sl.ak sl.aslot with lastGood := s.cv.slotCount }
    let taken := got.forget.count cvRxFlits 1
    (x.st = .align ∨ x.st = .up →
      exec (.slotReceive p sl true ecc n) s = .next (put { fec.miss x.rxCount with
        answers := x.answers ++ [(x.rxCount % 1024, true)], rxCount := x.rxCount + 1 })
      ∧ (sl.kind = 3 → exec (.slotReceive p sl false ecc n) s = .next (put { got.count cvRxFlits 1 with
        answers := got.answers ++ [(sl.slot, false)], rxCount := 4096 + sl.leg * 1024 + sl.slot + 1 })))
    ∧ (x.st = .align → sl.kind = 1 ∨ sl.kind = 2 → exec (.slotReceive p sl false ecc n) s = .next (put { taken.count cvDiscards 1 with
        answers := got.answers ++ [(x.rxCount % 1024, false)], rxCount := x.rxCount + 1 }))
    ∧ (x.st = .up → s.rst.warm = false → sl.kind = 1 ∨ sl.kind = 2 → ∃ u ok, (put taken).receiveSlot p sl ecc = (u, ok)
      ∧ exec (.slotReceive p sl false ecc n) s = .next { u with ports := u.ports.set p { u.port p with
        answers := (u.port p).answers ++ [(x.rxCount % 1024, !ok)], rxCount := x.rxCount + 1 } }))
  ∧ (∀ (p : Nat) (sl : Slot) (ecc : Bool) (s : State),
    let x := s.port p
    let n := x.countOf sl.leg sl.slot
    let put (y : CvPort) : State := { s with ports := s.ports.set p y }
    (n ∈ x.taken → s.receiveSlot p sl ecc = (put (x.count cvDuplicates 1), true))
    ∧ (n ∉ x.taken → x.reorder = [] →
      (sl.kind = 1 → sl.psn ≠ 0 → s.receiveSlot p sl ecc = (put ((x.take n).count cvDiscards 1), true))
      ∧ (∀ e, sl.kind = 2 → s.rxEntry p sl.tbl sl.slot = some e → e.action ≠ 1 →
        (s.mustWait p n e.squeue = true → ∃ u, s.receiveSlot p sl ecc = (u, true)
          ∧ (u.port p).reorder = [⟨n, some e, { sl with psn := if ecc then 15 else sl.psn }⟩] ∧ (u.port p).missing = x.missing.erase n
          ∧ (ecc = true → (u.port p).errBufEcc = true) ∧ u = { s with ports := u.ports, reportsOut := u.reportsOut }
          ∧ ∀ q, q ≠ p → u.port q = s.port q)
        ∧ (s.mustWait p n e.squeue = false → x.wraps = [] → (∀ w, twinOf p = some w → (s.port w).st ≠ .failed) →
          let y := s.port e.outPort
          (y.room e.outQueue = true →
            let v : State := { s with ports := s.ports.set e.outPort { y with
              queues := y.queues.set e.outQueue (y.queues.get e.outQueue [] ++ [⟨sl.kind, sl.psn, sl.flit, none, none⟩]) } }
            s.receiveSlot p sl ecc = ({ v with ports := v.ports.set p ((v.port p).take n) }, true))
          ∧ (y.room e.outQueue = false → s.receiveSlot p sl ecc = (put ((x.count cvFwdFull 1).miss n), false))))))

/-- A delivered record acts once every record that its sender sent before has acted (R136, R137, R267). A WRITE lands: the
unit at its HBM place takes bytes and poison, an unmapped or protected segment discards it and counts it (R294), a tile
takes it into its scratchpad (R141), and control space takes none (R481). A post or signal raises its semaphore, or is
counted where it can act on nothing (R146, R153). An arrival counts at its belay (R154); a release moves a port or a belay
on (R155), or is counted. A message lands in the ring of its channel and is listed there (R162 to R164). BROKEN breaks the
outbound ports and queue pairs that send to the channel (R169, R420). A wrapped flit is received on the failed port in its
original slot (R282): a duplicate counts, a body flit to be forwarded joins the queue of its receive-table entry. -/
def Obligations.DeliveredRecordResults : Prop :=
  (∀ (s : State),
    let took (b : Rec) : State := { s with delivered := s.delivered.eraseP fun r => decide (r.body = b) }
    (∀ r : RecWrite, s.mayAct (.write r) = true → isCommit r = false →
      let v := took (.write r)
      let off := r.addr.toNat % 2 ^ 41
      let seg := segOf (off / 64)
      let e := s.mapEntry seg
      let k := unitKey (seg % 4) (entRow e) (unitIn (off / 64))
      (∀ d, r.addr.toNat / 2 ^ 61 = 0 → r.data = [d] → d.bytes.length = 64 → off % 64 = 0 → Memory.wf s.hbm.bytes = true →
        (entState e = 1 → entWp e = false → ∃ u, exec (.writeRecord r) s = .next u ∧ u.hbm.unitBytes k = d.bytes
          ∧ u.hbm.poison = s.hbm.poison.mark k d.poison ∧ u.hbm.ue = s.hbm.ue.mark k false ∧ (∀ a, a / 64 ≠ k → Memory.get u.hbm.bytes a = Memory.get s.hbm.bytes a)
          ∧ u.hbm.map = s.hbm.map ∧ u = { v with hbm := u.hbm })
        ∧ (entMapped e = false → exec (.writeRecord r) s = .next (v.countUnmapped [seg]))
        ∧ (entMapped e = true → entWp e = true → exec (.writeRecord r) s = .next (v.countWp [seg])))
      ∧ (∀ n, r.addr.toNat / 2 ^ 61 = 1 → s.physicalOf (off / spadBytes) = some n →
        let t := s.tile n
        let data := unitsBytes r.data
        exec (.writeRecord r) s = .next (v.setTile n { t with
          spad := t.spad.write (off % spadBytes) data, spadPoisonIn := t.spadPoisonIn || data.any Prod.snd,
          inboundBytes := t.inboundBytes + BitVec.ofNat 64 data.length }))
      ∧ (2 ≤ r.addr.toNat / 2 ^ 61 ∨ (r.addr.toNat / 2 ^ 61 = 1 ∧ s.physicalOf (off / spadBytes) = none) → exec (.writeRecord r) s = .next v))
    ∧ (∀ r : RecSignal, s.mayAct (.post r) = true → ∃ u, exec (.postRecord r) s = .next u ∧ SignalDone (took (.post r)) r.ref r.inc u)
    ∧ (∀ r : RecSignal, s.mayAct (.signal r) = true →
        ∃ u, exec (.signalRecord r) s = .next u ∧ SignalDone (took (.signal r)) r.ref r.inc u)
    ∧ (∀ r : RecArrive, s.mayAct (.arrive r) = true →
        ∃ u, exec (.arriveRecord r) s = .next u ∧ ArrivalDone (took (.arrive r)) r.ref r.tag u)
    ∧ (∀ r : RecRelease, s.mayAct (.release r) = true →
        let v := took (.release r)
        let g := s.gsem (refIndex r.ref)
        let moves := g.mode = .belay ∧ g.overrun = false ∧ g.fwd = true ∧ BitVec.ofNat 2 r.gen = g.gen + 1
        (∀ n, r.toPort = true → s.physicalOf (refTile r.ref) = some n → let t := s.tile n
          exec (.releaseRecord r) s = .next (v.setTile n { t with
            bp := t.bp.set (refIndex r.ref) { t.bp.get (refIndex r.ref) {} with rel := BitVec.ofNat 2 r.gen } }))
        ∧ ((r.toPort = true ∧ s.physicalOf (refTile r.ref) = none) ∨ (r.toPort = false ∧ ¬ moves) →
          exec (.releaseRecord r) s = .next { v with sigDiscards := s.sigDiscards + 1 })
        ∧ (r.toPort = false → moves → exec (.releaseRecord r) s = .next (belayGo (belayFuel - 1) v (.complete (refIndex r.ref)))))
    ∧ (∀ r : RecMsg, s.mayAct (.msg r) = true → ∃ u, exec (.msgRecord r) s = .next u ∧ MessageDone (took (.msg r))
        ⟨none, r.tile, r.ch, r.seq, r.pad, r.w, r.pos, bytesGrans (16 * r.data.length) (unitsBytes r.data)⟩ u)
    ∧ (∀ chip tile ch, s.mayAct (.broken chip tile ch) = true → exec (.brokenRecord chip tile ch) s = .next
        { took (.broken chip tile ch) with
          tiles := s.tiles.map fun x => (x.1, { x.2 with oc := x.2.oc.map fun y =>
            (y.1, if y.2.valid ∧ y.2.chip = chip ∧ y.2.tile = tile ∧ y.2.ch = ch then { y.2 with broken := true } else y.2) }),
          qps := if chip = s.position then s.qps.map fun x => (x.1, if x.2.st = .ready ∧ x.2.body.chan = true ∧ x.2.body.tile = tile
            ∧ x.2.body.ch = ch then { x.2 with st := .broken } else x.2) else s.qps }))
  ∧ (∀ (p : Nat) (d : RecDetour) (sl : Slot) (s : State),
    (s.detouredPort p d.oport = none → exec (.detourRecord p d sl) s = .next { s with
      ports := s.ports.set p ((s.port p).count cvDiscards 1) })
    ∧ (∀ f, s.detouredPort p d.oport = some f →
      let x := s.port f
      let n := x.countOf d.oleg d.oslot
      (n ∈ x.taken → exec (.detourRecord p d sl) s = .next { s with ports := s.ports.set f (x.count cvDuplicates 1) })
      ∧ (∀ e, n ∉ x.taken → x.reorder = [] → x.wraps = [] → (∀ w, twinOf f = some w → (s.port w).st ≠ .failed) → sl.kind = 2 →
        s.rxEntry f d.otbl d.oslot = some e → e.action ≠ 1 → (s.port e.outPort).room e.outQueue = true →
        let y := s.port e.outPort
        let v : State := { s with ports := s.ports.set e.outPort { y with
          queues := y.queues.set e.outQueue (y.queues.get e.outQueue [] ++ [⟨sl.kind, sl.psn, sl.flit, none, none⟩]) } }
        exec (.detourRecord p d sl) s = .next { v with ports := v.ports.set f ((v.port f).take n) })))

/-- Switches (R276, R280, R281): a SWITCH not seen before goes out once on the other ports and is taken, one seen before is
only consumed; at the leg boundary at or after its instant every port moves to the tables of its alternate under the next
tag, which the previous tables outlive by 4 legs. -/
def Obligations.SwitchResults : Prop :=
  ∀ (p : Nat) (r : RecSwitch) (s : State),
    let s1 := { s with delivered := s.delivered.eraseP fun x => decide (x.body = .switch r) }
    (r.team * 256 + r.epoch ∈ s.cv.seen → exec (.switchRecord p r) s = .next s1)
    ∧ (∀ w, r.team * 256 + r.epoch ∉ s.cv.seen → s.delivered.find? (fun x => decide (x.body = .switch r)) = some w →
        (∃ u, exec (.switchRecord p r) s = .next u ∧ (r.team * 256 + r.epoch) ∈ u.cv.seen)
        ∧ (s.image = none → exec (.switchRecord p r) s = .next { s1.floodOn p w with
            cv := { s.cv with seen := (r.team * 256 + r.epoch) :: s.cv.seen.take 127 } }))
    ∧ (∀ q w, 1 < w.ttl → q ≠ p → (s.port q).st = .up → s.image.isSome = true → q < 16 →
        ((s.floodOn p w).port q).dynq = (s.port q).dynq ++ [{ w with ttl := w.ttl - 1 }])
    ∧ (s.cv.pending = some r → r.instant ≤ s.stamp.toNat → s.cv.slotCount % 1024 = 0 → r.flush = false →
        exec (.switchLeg) s = .next (s.applySwitch r))
    ∧ (s.cv.waiting = [] → r.flush = true → ∀ q, q < 16 → let x := s.port q
        let y := (s.applySwitch r).port q
        y.tbl = (s.cv.tbl + 1) % 4 ∧ y.open_ = decide (r.alt = 255) ∧ y.queues = [] ∧ y.dynq = x.dynq
          ∧ (r.alt ≠ 255 → y.cur = x.prepared.or x.cur))
    ∧ (∀ l, s.cv.switchLeg = some l → l + 4 ≤ s.cv.slotCount / 1024 → ∃ u, exec .previousTablesExpire s = .next u
        ∧ u.cv = { s.cv with switchLeg := none } ∧ u = { s with cv := u.cv, ports := u.ports }
        ∧ (∀ q, q < 16 → u.port q = { s.port q with previous := none, prevOpen := false }))

/-! ### Depots (10_depots.md) -/

/-- Scrub, migration and the die-to-die port (R295 to R301, R307 to R309, R475): a scrubbed segment counts toward its stack's
pass, and a unit found uncorrectable is counted and brings a migration; a migration takes a spare row, copies the 8,192
units of the segment in order, switches the entry, and retires the source row; a stack is up once Dormas has trained it; a
port that runs on fewer than 56 modules is reported. -/
def Obligations.DepotResults : Prop :=
  ∀ (d k seg : Nat) (s : State),
    let e := s.mapEntry seg
    let src := entRow e
    let x := s.depot d
    let put (y : Depot) : State := { s with depots := s.depots.set d y }
    (entMapped e = true → seg % 4 = d → unitsIn s.hbm.ue (rowKey d src) = [] → unitsIn s.hbm.ce (rowKey d src) = [] →
      let st := x.stack src.stack
      let done := (st.scrubbed.filter fun y => decide (y ≠ seg)) ++ [seg]
      let all := ∀ g, g ∈ s.stackSegs d src.stack → g ∈ done
      (all → exec (.scrub d seg) s = .next (put { x with
        hbmStacks := x.hbmStacks.set src.stack { st with scrubs := st.scrubs + 1, scrubbed := [] } }))
      ∧ (¬ all → exec (.scrub d seg) s = .next (put { x with hbmStacks := x.hbmStacks.set src.stack { st with scrubbed := done } })))
    ∧ (∀ v, entMapped e = true → seg % 4 = d → unitsIn s.hbm.ue (rowKey d src) = [v] → unitsIn s.hbm.ce (rowKey d src) = [] →
        ∃ u, exec (.scrub d seg) s = .next u ∧ ((u.depot d).stack src.stack).ue = (x.stack src.stack).ue + 1
          ∧ (u.depot d).err.hbmUe = true ∧ (entState e = 1 → seg ∈ u.hbm.migQueue) ∧ u.hbm.bytes = s.hbm.bytes)
    ∧ (∀ dst, entState e = 1 → ((s.depot (seg % 4)).stack src.stack).mig = none → s.hbm.pickSpare (seg % 4) = some dst →
        ∃ u, exec (.migrationStart seg) s = .next u ∧ u.mapEntry seg = entWith e 2 dst src
          ∧ u.hbm.taken.has (rowKey (seg % 4) dst) = true
          ∧ ((u.depot (seg % 4)).stack src.stack).mig = some ⟨seg, src, dst, 0, false⟩
          ∧ u.hbm.bytes = s.hbm.bytes ∧ u.hbm.retired = s.hbm.retired ∧ (∀ g, g ≠ seg → u.mapEntry g = s.mapEntry g)
          ∧ u = { s with hbm := u.hbm, depots := u.depots, recov := u.recov, out := u.out, hports := u.hports, tether := u.tether, ports := u.ports, delivered := u.delivered })
    ∧ (∀ m, (x.stack k).mig = some m → m.switched = false → m.units < 8192 → Memory.wf s.hbm.bytes = true →
        ∃ u, exec (.migrationCopy d k) s = .next u
          ∧ ((u.depot d).stack k).mig = some { m with units := m.units + 1 }
          ∧ u.hbm.unitBytes (unitKey d m.dst m.units) = s.hbm.unitBytes (unitKey d m.src m.units)
          ∧ u.hbm.map = s.hbm.map ∧ u = { s with hbm := u.hbm, depots := u.depots, reportsOut := u.reportsOut }
          ∧ ∀ a, a / 64 ≠ unitKey d m.dst m.units → Memory.get u.hbm.bytes a = Memory.get s.hbm.bytes a)
    ∧ (∀ m, (x.stack k).mig = some m → m.switched = false → 8192 ≤ m.units → s.hbm.heldReply = none →
        ∃ u, exec (.migrationComplete d k) s = .next u ∧ u.mapEntry m.seg = entWith (s.mapEntry m.seg) 1 ⟨0, 0, 0⟩ m.dst
          ∧ ((u.depot d).stack k).mig = some { m with switched := true }
          ∧ u.hbm.bytes = s.hbm.bytes ∧ (∀ g, g ≠ m.seg → u.mapEntry g = s.mapEntry g) ∧ u = { s with hbm := u.hbm, depots := u.depots })
    ∧ (∀ m, (x.stack k).mig = some m → m.switched = true → ∃ u, exec (.rowRetire d k) s = .next u
        ∧ u.hbm.retired.has (rowKey d m.src) = true ∧ ((u.depot d).stack k).mig = none
        ∧ ((u.depot d).stack k).migrations = (x.stack k).migrations + 1 ∧ u.hbm = { s.hbm with retired := u.hbm.retired }
        ∧ u = { s with hbm := u.hbm, depots := u.depots, recov := u.recov, out := u.out, hports := u.hports, tether := u.tether, ports := u.ports, delivered := u.delivered })
    ∧ (s.base.dormas = true → exec (.stackTrained d k) s = .next (put { x with
        hbmStacks := x.hbmStacks.set k { x.stack k with up := true } }))
    ∧ exec (.d2dRetry d false) s = .next (put { x with d2dRetries := x.d2dRetries + 1 })
    ∧ exec (.d2dRetry d true) s = .next ((put { x with
        d2dRetries := x.d2dRetries + 1, d2dPoisonCount := x.d2dPoisonCount + 4, err := { x.err with d2dPoison := true } }).mark (.d2d d))
    ∧ (let lost := put { x with modules := x.modules - 1, err := { x.err with d2dModuleLost := true } };
        (57 ≤ x.modules → exec (.d2dModuleLost d) s = .next lost)
        ∧ (x.modules ≤ 56 → exec (.d2dModuleLost d) s = .next (lost.notify 12 (BitVec.ofNat 64 d))))

/-- The reduction engine (R278, R279, R303 to R306): a contribution that is next in the fixed order is added to the sum,
element by element, one that comes before its turn is parked, one that has come before is discarded and counted, and the
last one completes the block; a SEND takes a trigger and a toll for each staged block; a completed sum goes on for a toll;
a completed, disposed and logged block is released, with a toll for each sender. -/
def Obligations.ReductionEngineResults : Prop :=
  ∀ (p rid block : Nat) (r : RecReduce) (d : RedDesc) (s : State),
    let s1 := { s with delivered := s.delivered.eraseP fun (x : Routed) => decide (x.body = Rec.reduce r) }
    let b := s.redBlock rid block
    let y := s.redBlock r.rid r.block
    let c := wideLanes r.fmt d.elems r.data
    (s.sumDesc r.rid = some d → r.eager = false → r.contrib < d.n → y.has r.contrib = false →
      (r.contrib ≠ y.next → y.applied.length < d.n → ∃ u, exec (.reduceRecord p r) s = .next u
        ∧ u.redBlock r.rid r.block = { y with parked := y.parked.set r.contrib c }
        ∧ u = { s1 with redBlocks := u.redBlocks, depots := u.depots })
      ∧ (r.contrib = y.next → y.sum ≠ [] → y.parked = [] → y.applied.length + 1 < d.n → ∃ u, exec (.reduceRecord p r) s = .next u
        ∧ u.redBlock r.rid r.block = { y with sum := (addLanes y.sum c).1, applied := r.contrib :: y.applied }
        ∧ (u.depot d.depot).arith = (s.depot d.depot).arith.join (addLanes y.sum c).2
        ∧ u = { s1 with redBlocks := u.redBlocks, depots := u.depots })
      ∧ (r.contrib = y.next → y.sum = [] → d.n = 1 → d.log = false → d.dispose ≠ 0 → s.outputs = [] → y.applied = [] → y.parked = [] →
        ∃ u, exec (.reduceRecord p r) s = .next u ∧ (u.redBlock r.rid r.block).complete = true
          ∧ (u.redBlock r.rid r.block).rounded = c.map (fun g => (roundGran d.outFmt g).1)
          ∧ (u.redBlock r.rid r.block).logAcked = true ∧ (u.depot d.depot).redBlocks = (s.depot d.depot).redBlocks + 1
          ∧ u = { s1 with redBlocks := u.redBlocks, depots := u.depots }))
    ∧ (s.sumDesc r.rid = some d → r.eager = false → y.has r.contrib = true →
      exec (.reduceRecord p r) s = .next { s1 with ports := s1.ports.set p ((s1.port p).count cvRedDiscards 1) })
    ∧ (s.redDesc rid = some d → d.role = 1 → s.redHeld.get? rid = none → 0 < (s.gsem d.trigger).value → (s.gsem d.toll).value = 0 →
        ∃ u, exec (.reduceBlockSend rid) s = .next u
          ∧ u.redHeld.get? rid = some (bytesUnits (d.stageLen / 64) (s.hbmBytes (d.stageOff (s.redCount rid)) d.stageLen))
          ∧ u = { s with gs := u.gs, redHeld := u.redHeld, hbm := u.hbm, depots := u.depots, reportsOut := u.reportsOut })
    ∧ (∀ data, s.redDesc rid = some d → d.role = 1 → s.redHeld.get? rid = some data → 0 < (s.gsem d.toll).value →
        d.dest = s.position → exec (.reduceBlockSend rid) s = .next { s with
          gs := s.gs.set d.toll ((s.gsem d.toll).sub 1), redHeld := s.redHeld.erase rid,
          redSeq := s.redSeq.set rid ((s.redCount rid + 1) % 2 ^ 32),
          delivered := s.delivered ++ [⟨false, 0, 2 ^ 16 + d.depot, 0, .reduce ⟨false, d.fmt, d.contrib, d.drid, s.redCount rid, data⟩⟩] })
    ∧ (s.redDesc rid = some d → d.role ≠ 1 → d.dispose = 2 → s.forwardable d = some block → 0 < (s.gsem d.toll).value →
        ∃ u, exec (.reduceBlockSend rid) s = .next u ∧ u.redBlock rid block = { b with disposed := true }
          ∧ u.redCount (fwdKey rid) = (block + 1) % 2 ^ 32 ∧ (u.gsem d.toll).value = (s.gsem d.toll).value - 1
          ∧ u = { s with gs := u.gs, redBlocks := u.redBlocks, redSeq := u.redSeq, ports := u.ports, delivered := u.delivered })
    ∧ (s.sumDesc rid = some d → b.complete = true → b.disposed = true → b.logAcked = true → b.released = false →
        (∀ w ∈ d.senders, refChip w = s.position) →
        ∃ u, exec (.reduceSlotRelease rid block) s = .next u ∧ (u.redBlock rid block).released = true
          ∧ u.net = s.net ++ d.senders.map (fun w => .signal ⟨none, w, 1⟩) ∧ u = { s with redBlocks := u.redBlocks, net := u.net })

/-! ### Clocks, power and wear (08_clocks_time.md, 13_base_camp.md) -/

/-- Waypoints and reference clocks (R226 to R233, R237 to R239): a beacon has a region come within 2 ns of the master by its
increment alone; a waypoint of the parent steers the chip: its offset, its trim within 100 ppm, its hops, and it steps only
where it has no image and no position; without the parent the first alternate in UP takes its place; the loss of the
followed input moves to the other one where that is good, else holds over, and a holdover that lasts resets the chip. -/
def Obligations.ClockResults : Prop :=
  ∀ (s : State),
    let c := s.clock
    let said (u : State) : State := { s with clock := u.clock, out := u.out, hports := u.hports, tether := u.tether }
    (∀ region, ∃ u, exec (.timeBeacon region) s = .next u
      ∧ ((u.clock.regionErr.get region 0 + u.clock.regionAdj.get region 0).natAbs ≤ 512)
      ∧ u = { s with clock := { c with regionAdj := u.clock.regionAdj }, freeCtr := s.freeCtr + 1 })
    ∧ exec .gtcRead s = .next { s with clock := { c with gtcFrac := BitVec.ofNat 8 c.gtc } }
    ∧ (∀ p, (s.port p).st = .up → exec (.waypointSend p) s = .next { s with ports := s.ports.set p { s.port p with
        dynq := (s.port p).dynq ++ [⟨true, 0, s.selfId.getD 0, 0, .waypoint ⟨0, 0, 0, c.hops, c.settled⟩⟩] } })
    ∧ (∀ p w, let s1 : State := { s with delivered := s.delivered.eraseP fun x => decide (x.body = .waypoint w) }
        let t4 := c.localGtc (13 + p)
        let s2 : State := { s1 with ports := s1.ports.set p { s.port p with wpT3 := w.t3, wpArrival := t4 } }
        let theta : Int := (((w.t2 : Int) - w.t1) - ((t4 : Int) - w.t3)) / 2
        (c.hasParent = true → c.root = false → c.parentPort.toNat = p → (w.t1 ≠ 0 ∨ w.t2 ≠ 0) →
          ∃ u, exec (.waypointRecord p w) s = .next u ∧ u = { s2 with clock := u.clock }
            ∧ u.clock.offset = theta ∧ u.clock.trim.natAbs ≤ 100000 ∧ u.clock.hops = w.hops + 1
            ∧ (256 < theta.natAbs → u.clock.calm = 0) ∧ (theta.natAbs ≤ 256 → u.clock.calm = c.calm + 1)
            ∧ ((s.image.isSome = true ∨ c.joined = true ∨ theta.natAbs ≤ 256000) → u.clock.gtc = c.gtc)
            ∧ (s.mayStep = true → 256000 < theta.natAbs → u.clock.gtc = (((c.gtc : Int) + theta) % 2 ^ 72).toNat
              ∧ u.clock.stepped = true))
        ∧ (c.hasParent = false ∨ c.root = true ∨ c.parentPort.toNat ≠ p ∨ (w.t1 = 0 ∧ w.t2 = 0) →
          exec (.waypointRecord p w) s = .next s2))
    ∧ (c.hasParent = true → c.root = false → ∃ u, exec .parentLost s = .next u ∧ u.clock.parentLost = true
        ∧ u.clock.hasParent = (c.alternates.any fun p => decide ((s.port p).st = .up)) ∧ u = said u ∧ u.clock.gtc = c.gtc)
    ∧ (c.hasParent = false → c.root = false → exec .settledTimeout s = .next { s with clock := { c with settled := false } })
    ∧ (c.active = false → c.holdover = false → c.bOk = true → ∃ u, exec (.referenceLost false) s = .next u ∧ u = said u
        ∧ u.clock = { c with aOk := false, aLost := true, active := true, refSwitches := c.refSwitches + 1, holdover := false })
    ∧ (c.active = false → c.holdover = false → c.bOk = false → ∃ u, exec (.referenceLost false) s = .next u ∧ u = said u
        ∧ u.clock = { c with aOk := false, aLost := true, holdover := true })
    ∧ (c.active = true → c.holdover = false → exec (.referenceLost false) s = .next { s with clock := { c with
        aOk := false, aLost := true } })
    ∧ (c.holdover = true → ∃ u, exec (.referenceGood c.active) s = .next u ∧ u.clock.holdover = false
        ∧ u.clock.active = c.active ∧ u.clock.refOk c.active = true ∧ u = said u ∧ u.clock.gtc = c.gtc)
    ∧ (c.active = false → (c.bOk = true → ∃ u, exec .refSelect s = .next u ∧ u = said u
          ∧ u.clock = { c with active := true, holdover := false, refSwitches := c.refSwitches + 1 })
        ∧ (c.bOk = false → exec .refSelect s = .next s))
    ∧ (c.holdover = true → exec .clockFailure s = .next (s.coldReset 0x04))

/-- Operating points and ceilings (R214, R215, R234 to R236, R388, R389, R392): a chip that learns of a change prepares for
its instant, with the voltages of a slower point only once it is reached and those of a faster one before; at the instant
every row runs at the point; a droop stretches a row cycle, and one within 31 cycles of the last is a margin event; the
chip's ceiling is the slowest of the throttle's point, the cap and the fastest point left. -/
def Obligations.OperatingPointResults : Prop :=
  ∀ (s : State),
    let passed (v : State) (sender : W64) (c : Nat) (u : State) : Prop :=
      (s.clock.hasParent = false → u = v)
      ∧ (s.clock.hasParent = true → let q := s.clock.parentPort.toNat
        u = { v with ports := s.ports.set q { s.port q with dynq := (s.port q).dynq ++
          [⟨true, (s.port q).pId, s.selfId.getD 0, 1, .mgmt ⟨0x40, [sender, BitVec.ofNat 64 c]⟩⟩] } })
    let ceilingOf (w : Power) : Nat := Nat.max (Nat.max w.thermal w.capOp.toNat) s.fastest
    let capped (c : Instr) (w : Power) : Prop := (s.clock.root = false ∨ s.clock.freqPending = true) →
      ∃ u, exec c s = .next u ∧ u.power = { w with ceiling := ceilingOf w } ∧ u.clock = s.clock
    (∀ op instant, let s1 : State := { s with delivered := s.delivered.eraseP fun x => decide (x.body = .freq op instant) }
      (s.clock.knows op instant = true → exec (.freqRecord op instant) s = .next s1)
      ∧ (∀ w, s.clock.knows op instant = false → s.clock.root = false → s.clock.freqPending = false → s.clock.ns < instant →
          s.ownCeiling = s.power.ceiling → s.delivered.find? (fun x => decide (x.body = .freq op instant)) = some w →
          let v : State := { s1.floodOn s.clock.parentPort.toNat w with
            clock := { s.clock with freqAt := BitVec.ofNat 64 instant, freqPending := true, pendOp := op } }
          (s.clock.curOp ≤ op → exec (.freqRecord op instant) s = .next v)
          ∧ (op < s.clock.curOp → ∃ u, exec (.freqRecord op instant) s = .next u ∧ u = { v with power := u.power, out := u.out }
            ∧ u.power = { s.power with setCore := s.setCore op, setDep := s.setDep op }
            ∧ .avs 0 (.writeVoltage (s.setCore op)) ∈ u.out ∧ .avs 1 (.writeVoltage (s.setDep op)) ∈ u.out)))
    ∧ (s.clock.freqPending = true → s.clock.freqAt.toNat ≤ s.clock.ns → s.clock.root = false →
        ∃ u, exec .frequencySwitch s = .next u ∧ u.clock.curOp = s.clock.pendOp ∧ u.clock.freqPending = false
          ∧ ∀ r, r < 8 → (u.row r).op = s.clock.pendOp)
    ∧ (∀ op, ((s.switchPoint op).clock.curOp = op) ∧ (s.switchPoint op).clock.freqPending = false
        ∧ ∀ r, r < 8 → ((s.switchPoint op).row r).op = op)
    ∧ (∀ r cycle, ((∀ c, (s.row r).lastStretch = some c → ¬ (c < cycle ∧ cycle ≤ c + 31)) →
        exec (.stretch r cycle) s = .next { s with rows := s.rows.set r { s.row r with
          stretches := (s.row r).stretches + 1, lastStretch := some cycle } })
      ∧ (∀ c, (s.row r).lastStretch = some c → c < cycle → cycle ≤ c + 31 → s.clock.root = false →
        ∃ u, exec (.stretch r cycle) s = .next u ∧ (u.row r).stretchDenied = (s.row r).stretchDenied + 1
          ∧ u.power.marginEvents = s.power.marginEvents + 1 ∧ u.power.wearCore.get s.clock.curOp 0 = s.power.wearCore.get s.clock.curOp 0 + 5))
    ∧ (∀ sender c, let v := s.tookMgmt 0x40 [sender, BitVec.ofNat 64 c]
      (s.clock.root = false → ∃ u, exec (.ceiling sender c) s = .next u ∧ passed v sender c u)
      ∧ (s.clock.root = true → s.clock.freqPending = true → exec (.ceiling sender c) s = .next { v with power := { v.power with
          ceilings := (sender, c, s.clock.ns) :: s.power.ceilings.filter fun x => decide (x.1 ≠ sender) } }))
    ∧ (s.clock.root = false → ∃ u, exec .ceilingRefresh s = .next u ∧ passed s s.senderWord s.power.ceiling u)
    ∧ (∀ sender, (∃ x ∈ s.power.ceilings, x.1 = sender ∧ x.2.2 + 3000000000 ≤ s.clock.ns) →
        (s.clock.root = false ∨ s.clock.freqPending = true) → exec (.ceilingExpire sender) s = .next { s with power := { s.power with
          ceilings := s.power.ceilings.filter fun x => decide (x.1 ≠ sender) } })
    ∧ (∀ op, capped (.capOpWrite op) { s.power with capOp := BitVec.ofNat 3 op })
    ∧ (let w := { s.power with conditions := s.conditionsNow };
        (s.conditionsNow ≠ 0 → w.thermal < 7 →
          capped .throttleEvaluation { w with thermal := w.thermal + 1, throttles := w.throttles + 1, clear := 0 })
        ∧ (s.conditionsNow = 0 → s.coolNow = true → 10 ≤ w.clear → 0 < w.thermal →
          capped .throttleEvaluation { w with thermal := w.thermal - 1, clear := 1 })
        ∧ (s.conditionsNow = 0 → s.coolNow = false → capped .throttleEvaluation { w with clear := 0 }))

/-- Sensors, token meters, wear and telemetry (R385 to R387, R394 to R404, R504). -/
def Obligations.PowerAndWearResults : Prop :=
  ∀ (s : State),
    let w := s.power
    (∀ a b r2 r3 r4 r5 r6 r7, let now := (a * w.setCore + b * w.setDep + r2 * 800 + r3 * 1050 + r4 * 750 + r5 * 1800 + r6 * 750
          + r7 * 1200) / 100
        let l := (now :: w.powerSamples).take 100
        ∃ u, exec (.powerSample [a, b] [r2, r3, r4, r5, r6, r7]) s = .next u ∧ u.power = { w with
            coreCurrent := a, depCurrent := b, powerSamples := l, packagePower := l.foldl (· + ·) 0 / l.length }
          ∧ (∀ r, r < 8 → .avs r .readCurrent ∈ u.out ∧ .avs r .readTemperature ∈ u.out ∧ .avs r .readStatus ∈ u.out)
          ∧ u = { s with power := u.power, out := u.out })
    ∧ (∀ rows depots base hbm, ∃ u, exec (.temperatureSample rows depots base hbm) s = .next u ∧ u.power.baseTemp = base
        ∧ (∀ r, r < 8 → u.power.rowTemp.get r 0 = hottest ((rows.drop (4 * r)).take 4))
        ∧ (∀ d k, d < 4 → k < 5 → ((u.depot d).stack k).temp = hbm.getD (5 * d + k) 0
          ∧ ((u.depot d).stack k).hot = decide (85 < hbm.getD (5 * d + k) 0))
        ∧ u = { s with power := u.power, depots := u.depots })
    ∧ (∀ r, r < 8 → let sum := ((List.range 25).map fun k => (s.tile (25 * r + k)).charge).foldl (· + ·) 0
        ∃ u, exec (.tokenWindow r) s = .next u ∧ (u.row r).tokenMax = BitVec.ofNat 32 (Nat.max (s.row r).tokenMax.toNat sum)
          ∧ (∀ m, s.image = some m → m.rowBudget < sum → (u.row r).tokenOver = (s.row r).tokenOver + 1)
          ∧ (∀ k, k < 25 → u.tile (25 * r + k) = { s.tile (25 * r + k) with winStreams := 0, winChains := 0 })
          ∧ u = { s with tiles := u.tiles, rows := u.rows } ∧ (∀ n, n / 25 ≠ r → u.tile n = s.tile n) ∧ ∀ q, q ≠ r → u.row q = s.row q)
    ∧ (∀ rail, (∃ u, exec (.regulatorFault rail) s = .next u ∧ u.power = { w with regFault := true } ∧ u.pkg = { s.pkg with alert := true }
          ∧ u = { s with power := u.power, pkg := u.pkg, out := u.out, hports := u.hports, tether := u.tether })
        ∧ ∃ u, exec (.avsTimeout rail) s = .next u ∧ u.power = { w with avsTimeout := true } ∧ u.pkg = { s.pkg with alert := true }
          ∧ u = { s with power := u.power, pkg := u.pkg, out := u.out, hports := u.hports, tether := u.tether })
    ∧ (s.base.dormas = true → exec .sidebandEvaluation s = .next { s with pkg := { s.pkg with
        fault := decide (s.dev = .faulted), alert := decide (w.errWord ≠ 0) || decide (w.conditions ≠ 0) } })
    ∧ (∀ deltas, w.replanning = false → ∃ u, exec (.wearMonitorSample deltas) s = .next u
        ∧ u = { s with power := { w with samples := u.power.samples } }
        ∧ ∀ k, k < 144 → u.power.samples.get k [] = (deltas.getD k 0 :: w.samples.get k []).take 64)
    ∧ (w.hoursPlanned < w.hours.toNat / 3600000 → exec .replanHours s = .next
        ({ s with power := { w with hoursPlanned := w.hours.toNat / 3600000 } }).replan)
    ∧ (∃ u, exec .wearLedgerEmit s = .next u ∧ u.power.ledgerSeq = w.ledgerSeq + 1
        ∧ u.power.lastLedger = s.ledgerBody (w.ledgerSeq + 1).toNat ++ Config.sign (s.ledgerBody (w.ledgerSeq + 1).toNat)
        ∧ u = { s with power := u.power, out := u.out, hports := u.hports, tether := u.tether })
    ∧ (∃ u, exec .telemetryRewrite s = .next u ∧ u.power.telemetrySeq = w.telemetrySeq + 2
        ∧ u.power = { w with telemetrySeq := w.telemetrySeq + 2, telemetry := s.telemetryBlock (w.telemetrySeq + 2).toNat }
        ∧ u = { s with power := u.power, rows := u.rows } ∧ ∀ r, r < 8 → u.row r = { s.row r with tokenRecent := 0 })

/-! ### Resets and boot (13_base_camp.md, 16_reset.md) -/

/-- Cold resets, the thermal trip and the straps (R467 to R475, R497, R501): a cold reset leaves the reset values, its
cause and the always-on domain's latches; power good and RST_N high start the boot ROM. -/
def Obligations.ColdResetResults : Prop :=
  ∀ (s : State),
    (∀ hot src, s.pkg.powerGood = false → s.pkg.rstN = true → s.pkg.testmode = false → s.pkg.thermtrip = false →
      (s.pkg.tripLast = false ∨ hot = false) → ∃ u, exec (.powerOn hot src) s = .next u ∧ u.dev = .rom ∧ u.rst.cause = 0x01
        ∧ u.pkg.powerGood = true ∧ u.tiles = [] ∧ u.image = none ∧ u.hbm = {} ∧ u.ports = [] ∧ u.fuses = s.fuses)
    ∧ (∀ rail, s.pkg.powerGood = true → s.pkg.thermtrip = false → ∃ u, exec (.brownOut rail) s = .next u ∧ u.dev = .off
        ∧ u.rst.cause = 0x02 ∧ u.pkg.powerGood = false ∧ u.tiles = [] ∧ u.hbm = {} ∧ u.ports = [] ∧ u.fuses = s.fuses)
    ∧ (∀ ns, 1000 ≤ ns → s.pkg.rstN = true → s.pkg.powerGood = true → s.pkg.thermtrip = false →
        ∃ u, exec (.rstNAssert ns) s = .next u ∧ u.dev = .off ∧ u.rst.cause = 0x03 ∧ u.pkg.rstN = false ∧ u.tiles = [] ∧ u.hbm = {}
          ∧ u.ports = [] ∧ u.fuses = s.fuses)
    ∧ (∀ ns, ns < 100 → s.pkg.rstN = true → exec (.rstNAssert ns) s = .next { s with freeCtr := s.freeCtr + 1 })
    ∧ (∀ smba, s.pkg.rstN = false → s.pkg.powerGood = true → s.pkg.thermtrip = false →
        ∃ u, exec (.rstNRelease smba false) s = .next u ∧ u.dev = .rom ∧ u.pkg.smba = smba ∧ u.pkg.rstN = true)
    ∧ (∃ u, exec .vaonPowerUp s = .next u ∧ u.pkg.powerGood = false ∧ u.pkg.thermtrip = false ∧ u.pkg.tripLast = false
        ∧ u.fuses = s.fuses)
    ∧ (∀ src, s.pkg.powerGood = true → s.pkg.thermtrip = false → ∃ u, exec (.thermalTrip src) s = .next u
        ∧ u.pkg.thermtrip = true ∧ u.pkg.tripLast = true ∧ u.pkg.tripSrc = BitVec.ofNat 2 src)
    ∧ (s.pkg.thermtrip = true → s.pkg.rstN = false → s.pkg.powerGood = false →
        exec .tripRelease s = .next { s with pkg := { s.pkg with thermtrip := false } })

/-- Warm resets (R284, R468 to R474): each source outside a chip reset resets with its cause, keeps HBM, the segment
map, the fuses, wear and the host's settings, and sends the device back to the boot ROM. -/
def Obligations.WarmResetResults : Prop :=
  ∀ (s : State), s.rst.warm = false → s.dev ≠ .off →
    let warm (c : Instr) (cause : BitVec 8) : Prop := ∃ u, exec c s = .next u ∧ u.rst.cause = cause ∧ u.rst.warm = true
      ∧ u.rst.warmResets = s.rst.warmResets + 1 ∧ u.dev = .rom ∧ u.image = none ∧ u.tiles = [] ∧ u.hbm.bytes = s.hbm.bytes
      ∧ u.hbm.map = s.hbm.map ∧ u.fuses = s.fuses ∧ u.base.sram = s.base.sram ∧ u.base.fwDigest = s.base.fwDigest
      ∧ u.tether.ownerKey = s.tether.ownerKey ∧ u.clock.gtc = s.clock.gtc
    (s.rst.warmPending = true → warm .tetherReset 0x05)
    ∧ (32 * 2 ^ s.base.wdogExp ≤ s.base.wdogCount → warm .bcWatchdog 0x06)
    ∧ (s.base.dormas = true → warm .softwareRequest 0x07 ∧ warm .sramUncorrectable 0x07)
    ∧ warm .dbgReset 0x08
    ∧ (∀ core, warm (.lockup core) 0x09)
    ∧ exec (.bcWdogKick 0x5A) s = .next { s with base := { s.base with wdogCount := 0 } }
    ∧ (∀ v, v ≠ 0x5A → exec (.bcWdogKick v) s = .next s)

/-- The boot ROM (R378 to R382, R426): one feeder at a time sends the image in order; a verified image starts Dormas in
LOADED, any other leaves its code; after a warm reset the image still held starts if its digest is FW_DIGEST. -/
def Obligations.BootResults : Prop :=
  ∀ (s : State),
    (s.rst.warm = true → sha384 s.base.sram = s.base.fwDigest → ∃ u, exec .firmwareCheck s = .next u ∧ u.rst.warm = false
      ∧ u.base.dormas = true ∧ u.dev = .loaded ∧ u.base.fwCode = 0 ∧ u.base.sram = s.base.sram
      ∧ u = { s with base := u.base, rst := u.rst, dev := u.dev, reason := u.reason, sec := u.sec, out := u.out, hports := u.hports, tether := u.tether })
    ∧ (s.rst.warm = true → sha384 s.base.sram ≠ s.base.fwDigest → exec .firmwareCheck s = .next { s with
        rst := { s.rst with warm := false }, base := { s.base with fwCode := 0x0B, sram := [] } })
    ∧ (∀ src data, s.dev = .rom → s.rst.warm = false → s.tether.feeder = none → data.length < 12 →
        exec (.fw src 0 data) s = .next { s with
          tether := { s.tether with feeder := some src, received := data }, out := .fwAck data.length 0xFF :: s.out })
    ∧ (∀ src other offset data, s.dev = .rom → s.rst.warm = false → s.tether.feeder = some other → src ≠ other →
        exec (.fw src offset data) s = .next { s with out := .fwAck s.tether.received.length 0xFF :: s.out })
    ∧ (let b := s.tether.received
      s.dev = .rom → s.rst.warm = false → 12 ≤ b.length → 512 + bodySize b ≤ b.length →
        (fwCodeOf s.fuses b = 0 → ∃ u, exec .fwVerify s = .next u ∧ u.dev = .loaded ∧ u.base.dormas = true ∧ u.base.sram = b
          ∧ u.base.fwDigest = sha384 b ∧ u.tether.feeder = none
          ∧ u = { s with base := u.base, dev := u.dev, reason := u.reason, sec := u.sec, out := u.out, hports := u.hports, tether := u.tether })
        ∧ (fwCodeOf s.fuses b ≠ 0 → exec .fwVerify s = .next { s with
          base := { s.base with fwCode := fwCodeOf s.fuses b }, tether := { s.tether with feeder := none, received := [] },
          out := .fwAck b.length (fwCodeOf s.fuses b) :: s.out }))
    ∧ exec .feederTimeout s = .next { s with tether := { s.tether with feeder := none, received := [] } }

/-- Block resets (R476, R477): a request takes the controller where it is free and the block exists, a second one is
dropped, and the block is reset once it is idle or its time is up. -/
def Obligations.BlockResetResults : Prop :=
  ∀ (i : Nat) (s : State), s.rst.warm = false → s.rst.busy = none →
    let ask (c : Instr) (kind : Nat) : Prop := exec c s = .next { s with rst := { s.rst with
      brKind := BitVec.ofNat 3 kind, brIndex := BitVec.ofNat 8 i, busy := some ⟨kind, i⟩ } }
    let held (b : BlockReq) : State := { s with rst := { s.rst with busy := some b } }
    (i < 200 → s.fuses.present.getD i 0 ≠ 0 → ask (.blockResetTile i) 1) ∧ (i < 8 → ask (.blockResetRow i) 2)
    ∧ (i < 4 → ask (.blockResetDepot i) 3) ∧ (i < 16 → ask (.blockResetCaravanPort i) 4)
    ∧ (i < 8 → ask (.blockResetHostPort i) 5)
    ∧ (∀ b, exec .blockIdle (held b) = .next (s.blockReset b)
        ∧ exec .blockResetTimeout (held b) = .next ({ s with rst := { s.rst with timedOut := true } }.blockReset b))
    ∧ (i < 200 → s.fuses.present.getD i 0 ≠ 0 → ∃ u, exec .blockIdle (held ⟨1, i⟩) = .next u ∧ u.tile i = Tile.reset
        ∧ u.rst.blockResets = s.rst.blockResets + 1 ∧ u.rst.busy = none
        ∧ u = { s with tiles := u.tiles, rst := u.rst, qps := u.qps, ports := u.ports, delivered := u.delivered })

/-! ### The package and control space (17_control_space.md, 18_package.md) -/

/-- SMBus and JTAG while power is good (R500): the chip's own words at any time, Dormas's words as all ones while it
does not run, and the instructions that take over pins only in ROM. Register writes (R12, R13, R481): the words that a
write covers are written in ascending order, an agent that may not write an address changes nothing, ones clear W1C
flags, but for those that the row cycle under way has set, and a host port that is disabled or changes speed goes down. -/
def Obligations.PackageResults : Prop :=
  (∀ (s : State), s.pkg.powerGood = true →
    let word (w v : Nat) : State := { s with out := .word (BitVec.ofNat 64 (v % 2 ^ w)) :: s.out }
    let ir (i : JtagIr) (o : List Output) : State := { s with pkg := { s.pkg with ir := i }, out := o ++ s.out }
    let dormas (w v : Nat) : State := word w (if s.base.dormas then v else 2 ^ w - 1)
    exec .smbChipInfo s = .next (word 32 s.chipInfo) ∧ exec .smbPkgStatus s = .next (word 32 s.pkg.statusWord)
    ∧ exec .smbTemperature s = .next (word 16 (twos 16 (max s.hottestRow s.power.baseTemp)))
    ∧ exec .smbDevState s = .next (dormas 32 s.devStateWord) ∧ exec .smbResetCause s = .next (dormas 32 s.rst.causeWord)
    ∧ exec .smbPackagePower s = .next (dormas 32 s.power.packagePower)
    ∧ exec .bypass s = .next (ir .bypass [.bits [false]])
    ∧ exec .idcode s = .next (ir .idcode [.word (BitVec.ofNat 64 (s.fuses.stepping.toNat / 16 * 2 ^ 28 + 0xA701C4B))])
    ∧ (∀ shift, ∃ u bits, exec (.samplePreload shift) s = .next u ∧ u.pkg = { s.pkg with ir := .sample, boundary := shift }
        ∧ u = { s with pkg := u.pkg, out := .bits bits :: s.out } ∧ bits.length = shift.length)
    ∧ (s.dev = .rom → exec .extest s = .next (ir .extest []) ∧ exec .clamp s = .next (ir .clamp [])
        ∧ exec .highz s = .next (ir .highz [])
        ∧ exec .extestPulse s = .next { s with pkg := { s.pkg with ir := .extestPulse, pulses := s.pkg.pulses + 1 } }
        ∧ exec .extestTrain s = .next { s with pkg := { s.pkg with ir := .extestTrain, pulses := s.pkg.pulses + 1 } })
    ∧ (s.dev ≠ .rom → exec .extest s = .fault .jtagPins ∧ exec .clamp s = .fault .jtagPins ∧ exec .highz s = .fault .jtagPins
        ∧ exec .extestPulse s = .fault .jtagPins ∧ exec .extestTrain s = .fault .jtagPins))
  ∧ (∀ (g : Agent) (off : Nat) (data : List Byte) (s : State),
    exec (.registerWrite g off data) s = .next ((writeParts off data).foldl (fun s x => s.partWrite g x.1 x.2) s)
    ∧ ((∀ x ∈ writeParts off data, mayWrite g x.1 = false) → exec (.registerWrite g off data) s = .next s)
    ∧ (∀ n, n < 200 → s.absent n = false →
        let t := s.tile n
        let c := Instr.registerWrite .host (0x1000_0000 + n * 0x10_0000 + 0x800) [1, 0, 0, 0]
        (t.inCycle = true → exec c s = .next (s.setTile n { t with
          old := { t.old with arith := { t.old.arith with invalid := false } } }))
        ∧ (t.inCycle = false → ∃ v, exec c s = .next (s.setTile n v)
          ∧ v.shown = { t.shown with arith := { t.shown.arith with invalid := false } }))
    ∧ (∀ h speed, (s.hport h).up = false → exec (.hpCfgWrite h false speed) s = .next { s with
        hports := s.hports.set h { s.hport h with enable := false, speed := speed } }))

/-! ### Tether (14_tether_host.md) -/

/-- Discovery, the handshake and the packets of a session (R425 to R431): an OFFER, a half-open session, an open one
where the signature verifies and authority allows it, and none after CLOSE or a loss. -/
def Obligations.TetherResults : Prop :=
  ∀ (port : Nat) (hd : CmdHdr) (s : State),
    let u := (s.gotFrames hd.port 1).onSession hd.session fun y => { y with port := hd.port }
    (∀ nonce, (s.serves port = true → exec (.discover port nonce) s = .next ((s.gotFrames port 1).putOut port
          (.offer port (s.offerPayload nonce))))
        ∧ (s.serves port = false → s.rst.warm = false → exec (.discover port nonce) s = .next s))
    ∧ (∀ h, s.base.dormas = true →
        (Hello1.ok h = true → s.tether.halfOpen.length < 4 → s.sec.keyOk = true → ∃ t y,
          exec (.hello1 port h) s = .next t ∧ t.tether.halfOpen = s.tether.halfOpen ++ [y] ∧ y.id = s.tether.nextSession
          ∧ y.port = port ∧ y.hello = h ∧ t.tether.sessions = s.tether.sessions
          ∧ t = { s with tether := t.tether, freeCtr := t.freeCtr, out := t.out, hports := t.hports })
        ∧ (Hello1.ok h = false ∨ 4 ≤ s.tether.halfOpen.length → exec (.hello1 port h) s = .next { s.gotFrames port 1 with
          tether := { s.tether with handshakeFails := s.tether.handshakeFails + 1 } }))
    ∧ (∀ sig x, s.base.dormas = true → s.tether.halfOpen.find? (fun y => decide (y.id = hd.session)) = some x →
        (Config.verifies x.hello.hkey x.transcript sig = true → s.tether.admits x.hello = true → ∃ t,
          exec (.hello3 hd sig) s = .next t ∧ (∃ y, y ∈ t.tether.sessions ∧ y.id = x.id ∧ y.key = sha384 x.hello.hkey)
          ∧ (x.hello.role = 1 → t.tether.ownerKey = sha384 x.hello.hkey) ∧ t = { s with out := t.out, hports := t.hports, tether := t.tether })
        ∧ (Config.verifies x.hello.hkey x.transcript sig = false ∨ s.tether.admits x.hello = false → ∃ t,
          exec (.hello3 hd sig) s = .next t ∧ t.tether.sessions = s.tether.sessions
          ∧ t.tether.handshakeFails = s.tether.handshakeFails + 1 ∧ t = { s with out := t.out, hports := t.hports, tether := t.tether }))
    ∧ (∀ id, (s.tether.halfOpen.any fun x => decide (x.id = id)) = true →
        exec (.halfOpenTimeout id) s = .next { s with tether := { s.tether with
          handshakeFails := s.tether.handshakeFails + 1, halfOpen := s.tether.halfOpen.filter fun x => decide (x.id ≠ id) } })
    ∧ (∀ k x, s.dev ≠ .off → s.session? hd.session = some x → exec (.ack hd k) s = .next (u.onSession hd.session fun y =>
        { y with unacked := y.unacked.filter fun v => decide (k < v.seq) }))
    ∧ (∀ x, s.dev ≠ .off → s.session? hd.session = some x → ∃ t, exec (.close hd) s = .next t ∧ t.session? hd.session = none
        ∧ t = { s with out := t.out, hports := t.hports, tether := t.tether })
    ∧ (∀ id x v l, s.session? id = some x → x.unacked = v :: l →
        (v.sends < 10 →
          let again : Session → Session := fun y =>
            { y with pnOut := y.pnOut + 1, unacked := ⟨v.seq, v.sends + 1, Nat.min 64 (2 * v.timeoutMs)⟩ :: l }
          exec (.tetherResend id) s = .next ((s.onSession id again).putOut x.port (.resend id v.seq)))
        ∧ (10 ≤ v.sends → exec (.tetherResend id) s = .next (s.loseSession id)))
    ∧ (∀ id x, s.session? id = some x → exec (.tetherKeepalive id) s = .next ((s.onSession id fun y =>
        { y with pnOut := y.pnOut + 1 }).putOut x.port (.ackPacket id (x.seqIn - 1))))
    ∧ (∀ id x, s.session? id = some x → ∃ t, exec (.sessionTimeout id) s = .next t ∧ t.session? id = none
        ∧ t.tether.lostCount = s.tether.lostCount + 1 ∧ t = { s with tether := t.tether, out := t.out })

/-- Commands that read and write what the device holds (R434 to R437, R397 to R402, R454): control space, telemetry, the
fault ledger, wear, a quote. -/
def Obligations.DataCommandResults : Prop :=
  ∀ (hd : CmdHdr) (s : State),
    let id := hd.session
    (∀ addr len, Commanded (.read hd addr len) hd 12 false (spanOk addr len) true s fun req u t =>
      t = (u.ctlTouch addr len).respond id req 0 0 (u.ctlBytes addr len))
    ∧ (∀ addr data, Commanded (.write hd addr data) hd (12 + data.length) false (spanOk addr data.length) true s fun req u t =>
      t = (u.ctlWrite .host addr data).respond id req 0 0 [])
    ∧ Commanded (.telemetry hd) hd 0 true true true s (fun req u t => t = u.respond id req 0 0 u.power.telemetry)
    ∧ (∀ first n, Commanded (.faultlog hd first n) hd 10 true (decide (1 ≤ n) && decide (n ≤ 64)) true s fun req u t =>
      t = u.respond id req 0 0 (beBytes 8 u.recov.ledgerCount.toNat ++
        ((List.range n).filterMap fun k => u.ledgerEntry (first + k)).flatMap entryBytes))
    ∧ (∀ b, Commanded (.wearPut hd b) hd b.length false true s.mayWear s fun req u t =>
      (u.ledgerGood b = true → t = (u.takeLedger b).respond id req 0 0 [1])
      ∧ (u.ledgerGood b = false → t = u.startFresh.respond id req 0 0 [0]))
    ∧ Commanded (.wearNone hd) hd 0 false true s.mayWear s (fun req u t => t = u.startFresh.respond id req 0 0 [])
    ∧ Commanded (.wearEmit hd) hd 0 false true true s (fun req u t =>
      let v := u.emitLedger
      t = v.respond id req 0 0 (beBytes 8 v.power.ledgerSeq.toNat ++ beBytes 4 v.power.ledgerSize))
    ∧ (∀ off n, Commanded (.wearGet hd off n) hd 8 false
        (decide (1 ≤ n) && decide (n ≤ 8192) && decide (off + n ≤ s.power.lastLedger.length)) true s fun req u t =>
      t = u.respond id req 0 0 (slice u.power.lastLedger off n))
    ∧ Commanded (.replan hd) hd 0 false true true s (fun req u t => t = u.replan.respond id req 0 0 u.replan.wearBytes)
    ∧ (∀ nonce, Commanded (.quote hd nonce) hd 32 false (decide (nonce.length = 32)) true s fun req u t =>
      (u.sec.keyOk = false → t = u)
      ∧ (u.sec.keyOk = true → let v : State := { u with sec := { u.sec with quotes := u.sec.quotes + 1 } }
          t = v.respond id req 0 0 (v.quoteBody nonce ++ Config.sign (v.quoteBody nonce))))

/-- Commands that set the device up (R228, R293, R380, R429, R434 to R438, R441, R442): segment map, time tree, route,
observers, release, MACsec, minimum version, queue pairs, resets. -/
def Obligations.SetupCommandResults : Prop :=
  ∀ (hd : CmdHdr) (s : State),
    let id := hd.session
    (∀ es, s.hbm.held = [] → Commanded (.map hd es) hd (8 + 16 * es.length) false
        (decide (1 ≤ es.length) && decide (es.length ≤ 1000) && es.all fun e => decide (e.seg < 2 ^ 22)) true s fun req u t =>
      (u.power.ledgerOk = true → t = u.mapRun id req es 0) ∧ (u.power.ledgerOk = false → t = u.respond id req 4 0 []))
    ∧ (∀ root p a b, Commanded (.time hd root p a b) hd 4 false (parentOk p && parentOk a && parentOk b) s.dev.loads s
        fun req u t => t = ({ u with clock := u.clock.setTree root p a b }).respond id req 0 0 [])
    ∧ (∀ ports hops, Commanded (.route hd ports hops) hd 3 false (decide (1 ≤ hops) && decide (hops ≤ 64)) s.dev.loads s
        fun req u t => t = ({ u with cv := { u.cv with routePorts := ports, routeHops := hops } }).respond id req 0 0 [])
    ∧ (∀ keys, Commanded (.observers hd keys) hd (1 + 48 * keys.length) false
        (decide (keys.length ≤ 8) && keys.all fun k => decide (k.length = 48)) true s
        fun req u t => t = ({ u with tether := { u.tether with observers := keys } }).respond id req 0 0 [])
    ∧ Commanded (.release hd) hd 0 false true true s (fun _ _ t => t.tether.sessions = [] ∧ t.tether.observers = []
        ∧ t.tether.ownerKey = List.replicate 48 0 ∧ t.tether.group = 0)
    ∧ (∀ m : MacsecBody, Commanded (.macsec hd m) hd 56 false (decide (m.port < 8) && decide (m.an < 4)) true s
        fun req u t => t = (u.modHport m.port fun p => p.install m).respond id req 0 0 [])
    ∧ (∀ v, Commanded (.svn hd v) hd 1 false (decide (v < 256)) (decide (s.dev = .loaded)) s fun req u t =>
      (u.base.svn < v → t = u.respond id req 3 1 [])
      ∧ (v ≤ u.base.svn → let w := Nat.max u.fuses.minSvn (Nat.min v 64)
          t = ({ u with fuses := { u.fuses with minSvn := w } }).respond id req 0 0 [BitVec.ofNat 8 w]))
    ∧ (∀ q : QpBody, Commanded (.qpOpen hd q) hd 56 false (QpBody.ok q) true s fun req u t =>
      (∀ c, u.qpRefusal q = some c → t = u.respond id req 3 c [])
      ∧ (∀ rkey psn v, u.qpRefusal q = none → u.openQp q = (rkey, psn, v) →
          t = v.respond id req 0 0 (beBytes 4 rkey ++ beBytes 4 psn)))
    ∧ (∀ n, Commanded (.qpClose hd n) hd 4 false (decide (n < 2 ^ 32)) true s fun req u t =>
      (∀ x, u.qp? n = some x → t = ({ u with qps := u.qps.erase x.1 }).respond id req 0 0 [])
      ∧ (u.qp? n = none → t = u.respond id req 3 1 []))
    ∧ (∀ k i, Commanded (.reset hd k i) hd 2 false (resetOk k i) true s fun req u t =>
      let v := u.respond id req 0 0 []
      (k = 0 → t = { v with rst := { v.rst with warmPending := true } }) ∧ (k ≠ 0 → t = v.askBlock ⟨k, i⟩))

/-- Commands of a run (R189, R193, R338, R402, R434, R439 to R441, R463): an accepted load makes the device ready, a
team makes a spare armed, a start begins the run, HALT and RESUME go through the lead, a waybill is signed. -/
def Obligations.RunCommandResults : Prop :=
  ∀ (hd : CmdHdr) (s : State),
    let id := hd.session
    (∀ b : LoadBody, Commanded (.load hd b) hd (24 + 8 * b.bind.length + b.repair.length) false (LoadBody.ok b) s.dev.loads s
        fun req u t =>
      (u.power.ledgerOk = false → t = u.respond id req 4 0 [])
      ∧ (u.power.ledgerOk = true → u.power.worn = true → let c := Config.freeValue u.freeCtr % 256
          t = ({ u with freeCtr := u.freeCtr + 1, loadCode := c }).respond id req 3 c (beBytes 8 u.loadWhere.toNat))
      ∧ (∀ v failed w, u.power.ledgerOk = true → u.power.worn = false →
          u.loadImage b.position b.imageBase b.imageSize b.bind b.repair 0 = (v, none) → v.stepSeven = (failed, w) →
          (failed = false → t = w.afterLoad.respond id req 0 0 [] ∧ t.dev = .ready)
          ∧ (failed = true → t.dev = .faulted))
      ∧ (∀ v r, u.power.ledgerOk = true → u.power.worn = false →
          u.loadImage b.position b.imageBase b.imageSize b.bind b.repair 0 = (v, some r) →
          t = v.respond id req 3 r.code (beBytes 8 v.loadWhere.toNat)))
    ∧ (∀ b : TeamBody, Commanded (.team hd b) hd (TeamBody.bytes b) false (decide (b.holders.length = b.npos))
        (decide (s.dev = .loaded) || decide (s.dev = .ready)) s fun req u t =>
      (∀ c, u.teamRefusal b = some c → t = u.respond id req 3 c [])
      ∧ (u.teamRefusal b = none → t = (u.joinTeam b).respond id req 0 0 [] ∧ t.recov.team = some b
          ∧ (b.spare = true → t.dev = .armed)))
    ∧ (∀ at_ step, Commanded (.start hd at_ step) hd 16 false (decide (at_ < 2 ^ 64)) (decide (s.dev = .ready)) s fun req u t =>
      (at_ < u.now + 1000000 → t = u.respond id req 3 1 [])
      ∧ (u.now + 1000000 ≤ at_ → u.teamFails = true → t = u.respond id req 3 2 [])
      ∧ (u.now + 1000000 ≤ at_ → u.teamFails = false → t = (u.beginRun at_ step).respond id req 0 0 [] ∧ t.dev = .running))
    ∧ Commanded (.halt hd) hd 0 false true s.dev.inRun s (fun req u t =>
      let v : State := { u with recov := { u.recov with haltReply := u.recov.haltReply ++ [(id, req)] } }
      (u.dev = .halted ∨ u.dev = DevSt.faulted → t = u.respond id req 0 0 (beBytes 8 u.recov.recStep.toNat))
      ∧ (u.dev ≠ .halted → u.dev ≠ DevSt.faulted → u.ownLead = true → t = v.leadHalt)
      ∧ (∀ l, u.dev ≠ .halted → u.dev ≠ DevSt.faulted → u.ownLead = false → u.leadPos = some l →
          t = v.sendMgmt l 0x03 [BitVec.ofNat 64 u.teamNo, u.step, 0]))
    ∧ Commanded (.resume hd) hd 0 false true (decide (s.dev = .halted) || decide (s.dev = DevSt.faulted)) s (fun req u t =>
      let v : State := { u with recov := { u.recov with resumeReply := u.recov.resumeReply ++ [(id, req)] } }
      (u.dev = .halted → (u.reason = .host ∨ u.reason = .hbm) → u.ownLead = true → t = v.leadResume)
      ∧ (u.dev ≠ .halted ∨ (u.reason ≠ .host ∧ u.reason ≠ .hbm) → t = u.respond id req 3 1 []))
    ∧ (∀ scope dig, Commanded (.waybill hd scope dig) hd 56 false (decide (scope < 2) && decide (dig.length = 48)) s.dev.inRun s
        fun req u t => u.sec.keyOk = true →
      (scope = 0 → t = u.countWaybill.respond id req 0 0 (u.countWaybill.waybillBytes 1 false u.sec.runFirst u.sec.runLast dig
          [u.countWaybill.signedSegment u.sec.runLast dig]))
      ∧ (scope = 1 → u.isLead = true → t = u.gather id req dig)
      ∧ (scope = 1 → u.isLead = false → t = u.respond id req 3 1 []))

/-! ### Host ports (14_tether_host.md) -/

/-- RoCEv2 (R415 to R420): a SEND takes its toll and joins its channel, or is told to wait; a WRITE within the window
lands, a READ answers, poison and everything outside the window puts the queue pair into the error state. Links, pauses
and IPv6 of the host ports, and frames that are discarded and counted (R410 to R414, R421, R422). -/
def Obligations.HostTrafficResults : Prop :=
  (∀ (qpn e : Nat) (q : Qp) (s : State), s.QpReady qpn e q →
    let u := s.gotFrames q.body.port 1
    let b := q.body
    (∀ data c, b.chan = true → data.length % 64 = 0 → data.length ≠ 0 → data.length ≤ 256 → s.dev ≠ .recovering → s.dev ≠ .halted →
        q.st = .ready → s.chanOf b.tile b.ch = some c →
        let h := s.senders.get (16 * b.tile + b.ch) {}
        let o : OPort := { size := c.size, wrPos := h.w }
        let plan := o.plan (data.length / 64)
        ((s.gsem b.tollGs).value < plan.1 → exec (.roceSend qpn data) s = .next (u.rnr q))
        ∧ (plan.1 ≤ (s.gsem b.tollGs).value → ∃ t, exec (.roceSend qpn data) s = .next t
            ∧ t.net = s.net ++ [NetPkt.msg ⟨some (200 + (16 * b.tile + b.ch)), b.tile, b.ch, h.seq.toNat, plan.2.2, h.w, plan.2.1,
                bytesGrans (16 * (data.length / 64)) (clean data)⟩]
            ∧ (t.gsem b.tollGs) = (s.gsem b.tollGs).sub plan.1 ∧ (∀ i, i ≠ b.tollGs → t.gsem i = s.gsem i)
            ∧ t = { s with net := t.net, gs := t.gs, senders := t.senders, qps := t.qps, hports := t.hports, out := t.out }))
    ∧ (∀ rkey va data, q.inWindow rkey va data.length = true → exec (.rdmaWrite qpn rkey va data) s =
        .next (((s.gotFrames b.port (q.packets data.length)).hbmWrite va (clean data) true).qpOut q (.roceAck qpn)))
    ∧ (∀ rkey va data, q.inWindow rkey va data.length = false → exec (.rdmaWrite qpn rkey va data) s =
        .next ((s.gotFrames b.port (q.packets data.length)).qpDenied e q va))
    ∧ (∀ rkey va len, q.inWindow rkey va len = true → (∀ x ∈ (u.hbmTouch va len true).hbmBytes va len, x.2 = false) →
        ∃ t, exec (.rdmaReadRequest qpn rkey va len) s = .next t
          ∧ .readResponse b.qpn (((u.hbmTouch va len true).hbmBytes va len).map Prod.fst) ∈ t.out
          ∧ t.hbm.bytes = s.hbm.bytes ∧ t = { s with hbm := t.hbm, depots := t.depots, reportsOut := t.reportsOut, hports := t.hports, out := t.out })
    ∧ (∀ rkey va len, q.inWindow rkey va len = false → exec (.rdmaReadRequest qpn rkey va len) s = .next (u.qpDenied e q va)
        ∧ ((u.qpDenied e q va).qps.get? e).map Qp.st = some .error)
    ∧ (exec (.invalidRequest qpn) s = .next (u.qpInvalid e q) ∧ ((u.qpInvalid e q).qps.get? e).map Qp.st = some .error)
    ∧ (exec (.cnp qpn) s = .next (u.modQp e fun x => { x with cnps := x.cnps + 1 })))
  ∧ (∀ (p : Nat) (s : State), s.dev ≠ .off → s.rst.warm = false →
    let u := s.gotFrames p 1
    let x := s.hport p
    (∀ pause, x.pfc = true → ∃ t, exec (.pfcFrame p pause) s = .next t ∧ (t.hport p).paused = pause
        ∧ t = { s with hports := t.hports, freeCtr := t.freeCtr } ∧ ∀ h, h ≠ p → t.hport h = s.hport h)
    ∧ (∀ pfx : BitVec 64, x.gaddrs.length < 4 → pfx ∉ x.gaddrs → ∃ t, exec (.routerAdvertisement p pfx) s = .next t
        ∧ (t.hport p).gaddrs = x.gaddrs ++ [pfx] ∧ t = { s with hports := t.hports, out := t.out }
        ∧ ∀ h, h ≠ p → t.hport h = s.hport h)
    ∧ (∀ a dad, a ∈ s.addresses p → exec (.neighbourDiscovery p a dad) s = .next (u.putOut p (.neighbour p a)))
    ∧ (∀ a body, a ∈ allNodes :: s.addresses p → exec (.icmpv6Echo p a body) s = .next (u.putOut p (.echo p body)))
    ∧ (∀ a body, a ∉ allNodes :: s.addresses p → exec (.icmpv6Echo p a body) s = .next (u.otherDrop p))
    ∧ (∀ speed, x.up = false → x.enable = true → x.upSpeed speed ≠ 0 → s.dev ≠ .rom → ∃ t,
        exec (.hostLinkChange p true speed) s = .next t ∧ (t.hport p).up = true ∧ (t.hport p).speedNow = x.upSpeed speed
        ∧ t = { s with out := t.out, hports := t.hports, tether := t.tether })
    ∧ (∀ speed, exec (.hostLinkChange p false speed) s = .next (s.hostLinkDown p))
    ∧ (∀ kind, (kind = .macsec → x.macsec = true) → exec (.frameDiscard p kind) s = .next (u.modHport p fun y =>
        { y.count (dropCounter kind) 1 with
          errMacsec := y.errMacsec || decide (kind = .macsec), errAuth := y.errAuth || decide (kind = .auth) })))

/-! ### Recovery (12_recovery.md) -/

/-- A step at base camp (R120, R158, R342, R343, R458): reports and faults are taken once, base camp arrives when all
others have and nothing was reported, and a step ends by one. Messages of a run's chains and waybills (R460 to R463). -/
def Obligations.StepAndWaybillResults : Prop :=
  (∀ (s : State),
    (∀ r, r ∈ s.reportsOut → exec (.poisonReport r) s = .next (({ s with reportsOut := s.reportsOut.erase r }).takeReport r))
    ∧ (∀ n, n ∈ s.faultsOut → exec (.tileFault n) s = .next (({ s with faultsOut := s.faultsOut.erase n }).takeFault n))
    ∧ (∀ m, s.image = some m → s.othersArrived = true → s.arrived = false → s.recov.haltPosted = false → s.recov.phase = 0 →
        s.sec.folded = true → s.reports = [] → exec .baseCampArrival s = .next
          (({ s with arrived := true, bcTag := s.bcTag + 1 }).agentArrive 6 0 m.position m.stepBelay s.bcTag.toNat))
    ∧ (0 < s.stepReleases → s.arrived = true → s.recov.haltPosted = false → ∃ t, exec .stepEnd s = .next t
        ∧ t.step = s.step + 1 ∧ t.arrived = false ∧ t.stepReleases = s.stepReleases - 1 ∧ t.reports = s.reportsNext
        ∧ t.hbm.bytes = s.hbm.bytes ∧ t.hbm.map = s.hbm.map ∧ t = { s with step := t.step, arrived := t.arrived, stepReleases := t.stepReleases, tiles := t.tiles, reports := t.reports, reportsNext := t.reportsNext, recov := t.recov, sec := t.sec, hbm := t.hbm, depots := t.depots, reportsOut := t.reportsOut, out := t.out, hports := t.hports, tether := t.tether, ports := t.ports, delivered := t.delivered }))
  ∧ (∀ (s : State),
    (∀ pos poison step sd,
      let flag := if poison = true then 65536 else 0
      let u := s.tookMgmt 0x41 ([BitVec.ofNat 64 (pos % 65536 + flag), step] ++ digestWords sd)
      (u.isLead = true ∨ u.isDeputy = true → exec (.stepDigest pos poison step sd) s = .next { u with
        sec := u.sec.digestTaken pos step sd }))
    ∧ (∀ pos km1 c, let u := s.tookMgmt 0x42 ([BitVec.ofNat 64 pos, km1] ++ digestWords c)
      u.recov.takeover.isSome = true → ∃ t, exec (.chain pos km1 c) s = .next t ∧ t.sec.runChain = c ∧ t.sec.runLast = km1
        ∧ t.sec.runFirst = km1 + 1 ∧ t.sec.spareChain = some (km1, c) ∧ t = { u with sec := t.sec })
    ∧ (∀ req last dig l, let u := s.tookMgmt 0x43 ([req, last] ++ digestWords dig)
      u.image.isSome = true → u.sec.keyOk = true → u.leadPos = some l → exec (.wbReq req last dig) s = .next
        (u.sendMgmt l 0x44 (req :: partWords (u.signedSegment last dig))))
    ∧ (∀ b seg, let u := s.tookMgmt 0x44 (b.req :: partWords seg)
      u.sec.build = some b → seg.length = 368 → exec (.wbPart b.req seg) s = .next { u with
        sec := { u.sec with build := some { b with parts := b.parts ++ [seg] } } })
    ∧ (∀ b, s.sec.build = some b → ∃ t, exec .wbPartTimeout s = .next t ∧ t.sec.build = none
        ∧ t.sec.waybills = s.sec.waybills + 1 ∧ t = { s with sec := t.sec, freeCtr := t.freeCtr, out := t.out, hports := t.hports, tether := t.tether }))

/-- The lead and the team (R192, R339, R342 to R347, R359, R369 to R373). -/
def Obligations.LeadResults : Prop :=
  ∀ (s : State),
    (∃ t, exec .heartbeatSend s = .next t ∧ t.recov = { s.recov with hbMisses := s.recov.hbMisses + BitVec.ofNat 64 s.missedBeats }
      ∧ t = { s with recov := t.recov, ports := t.ports, delivered := t.delivered })
    ∧ (∀ a b c, let u := s.tookMgmt 0x01 [a, b, c]
      u.isLead = true ∨ u.isDeputy = true → exec (.heartbeat a b c) s = .next { u with recov := { u.recov with
        beats := (a, b, u.stamp) :: u.recov.beats.filter fun x => decide (x.1 ≠ a) } })
    ∧ (∀ p, s.lastBeat (BitVec.ofNat 64 p) + 50000000 ≤ s.now → s.recov.team.isSome = true →
        (s.dev = .running ∨ s.dev = .recovering) → exec (.heartbeatTimeout p) s = .next ((s.promote p).declareLost p))
    ∧ (∀ e : LedgerEntry, let u := s.tookMgmt 0x02 e.words
      (u.isLead = true → u.spareLink (s.mgmtFrom 0x02 e.words) e = none → some e.position ≠ u.image.map Image.position →
        exec (.report e) s = .next ((u.record e).act e)
        ∧ (e.cls = 9 → ∃ t, exec (.report e) s = .next t ∧ t.recov.ledger.get? (u.recov.ledgerCount.toNat % 1024) = some e
          ∧ t.recov.ledgerCount = u.recov.ledgerCount + 1))
      ∧ (u.isLead = false → (e.cls = 15 ∨ e.cls = 16) → e.state = 5 → u.image.isSome = true →
        ∃ t, exec (.report e) s = .next t ∧ t.dev = .faulted ∧ t.recov = { u.recov with phase := 5 })
      ∧ (u.isLead = false → e.cls < 11 → exec (.report e) s = .next u))
    ∧ (∀ e : LedgerEntry, let u := s.tookMgmt 0x0A e.words
      u.isDeputy = true → u.recov.mirror.length < 1024 → exec (.mirror e) s = .next { u with recov := { u.recov with
        mirror := u.recov.mirror ++ [e] } })
    ∧ (∀ k instant, let w : List W64 := [BitVec.ofNat 64 s.teamNo, k, BitVec.ofNat 64 instant]
      let u := (s.tookMgmt 0x03 w).heardLead (s.mgmtFrom 0x03 w)
      u.image.isSome = true → u.dev = .running → u.teamNo = s.teamNo → u.isLead = false → u.recov.haltPosted = false →
        ∃ t, exec (.haltRecord s.teamNo k instant) s = .next t ∧ t.recov.recStep = k ∧ t.recov.haltPosted = true
          ∧ t = { s with delivered := t.delivered, recov := t.recov, sec := t.sec, dev := t.dev, reason := t.reason, freeCtr := t.freeCtr, out := t.out, hports := t.hports, tether := t.tether })
    ∧ (∀ alt k sw start, let w : List W64 := [BitVec.ofNat 64 (s.teamNo + alt * 2 ^ 16), k, BitVec.ofNat 64 sw, BitVec.ofNat 64 start]
      s.image.isSome = true → s.recov.haltPosted = true → s.recov.halted = true → s.recov.recStep = k →
        (s.tookMgmt 0x09 w).isLead = false →
        exec (.startRecord s.teamNo alt k sw start) s = .next ((s.tookMgmt 0x09 w).acceptStart alt start)
          ∧ ((s.tookMgmt 0x09 w).acceptStart alt start).startAt = BitVec.ofNat 64 start
          ∧ ((s.tookMgmt 0x09 w).acceptStart alt start).recov.startPosted = true)
    ∧ (∀ p k, let u := s.tookMgmt 0x08 [BitVec.ofNat 64 p, k]
      u.isLead = true → u.recov.recStep = k → (p, 11) ∈ u.recov.waits → ∃ v, exec (.restored p k) s = .next (State.tryStart v)
        ∧ v.recov.waits = u.recov.waits.erase (p, 11) ∧ v.recov.restoredFrom = u.recov.restoredFrom ++ [p]
          ∧ v = { u with recov := v.recov, out := v.out, hports := v.hports, tether := v.tether, ports := v.ports, delivered := v.delivered })
    ∧ (∀ r, r ∈ s.rowsDue → s.startAt.toNat ≤ s.now → s.image.isSome = true → ∃ t, exec (.programStart r) s = .next t
        ∧ t.rowsDue = s.rowsDue.erase r
        ∧ t = { s with cv := t.cv, bqs := t.bqs, tiles := t.tiles, rows := t.rows, rowsDue := t.rowsDue, ports := t.ports, recov := t.recov, dev := t.dev, reason := t.reason, sec := t.sec, out := t.out, hports := t.hports, tether := t.tether }
        ∧ (∀ n, n / 25 ≠ r → t.tile n = s.tile n)
        ∧ ∀ n, n ∈ s.tileMap → n / 25 = r → (t.tile n).st ≠ .idle)

/-- Full cairns, the log and the place of a lost position (R348, R351, R357, R361 to R364). -/
def Obligations.CairnResults : Prop :=
  ∀ (s : State),
    (∀ q tag h, s.recov.haltPosted = false → s.nextChunk = some (q, tag) → s.holderOf q = some h →
        exec .cairnChunk s = .next (s.sendChunk q tag h)
          ∧ (s.sendChunk q tag h).recov.streamInFlight = s.recov.streamInFlight ++ [q])
    ∧ (∀ owner slot q tag bytes, (s.delivered.find? fun r => isCommitOf (commitBytes owner slot q tag bytes) r.body) = none →
        ∃ t, exec (.cairnCommit owner slot q tag bytes) s = .next t
          ∧ t.recov.dirSlot.get? (dirKey owner q) = some slot ∧ t.recov.dirTag.get? (dirKey owner q) = some tag
          ∧ t = { s with recov := t.recov, hbm := t.hbm, depots := t.depots, reportsOut := t.reportsOut, freeCtr := t.freeCtr, ports := t.ports, delivered := t.delivered })
    ∧ (∀ owner slot q tag, ∃ t, exec (.cairnAck owner slot q tag) s = .next t ∧ t.recov.ackTag.get? q = some tag
        ∧ t.recov.chunksSent = s.recov.chunksSent + 1 ∧ t = { s with recov := t.recov, delivered := t.delivered })
    ∧ (∀ r : RecLog, s.mayAct (.log r) = true → let u := s.tookBody (.log r)
      let waits := u.pageBusy r.owner (BitVec.ofNat 64 r.step) = true ∨ ∃ x ∈ u.recov.logWaiting, x.owner = r.owner
      (¬ waits → ∃ t, exec (.logRecord r) s = .next t ∧ t.recov.logAppends = u.recov.logAppends + 1
        ∧ t.recov.log = u.recov.log ++ [(r.owner, BitVec.ofNat 64 r.step, r.rid, r.block, decide (r.step < u.step.toNat))]
        ∧ t = { u with recov := t.recov, hbm := t.hbm, depots := t.depots, reportsOut := t.reportsOut, ports := t.ports, delivered := t.delivered })
      ∧ (waits → exec (.logRecord r) s = .next { u with recov := { u.recov with logWaiting := u.recov.logWaiting ++ [r] } }))
    ∧ (∀ r, (s.recov.logWaiting.find? fun r => !s.pageBusy r.owner (BitVec.ofNat 64 r.step)) = some r → exec .logEntryResume s =
        .next (({ s with recov := { s.recov with logWaiting := s.recov.logWaiting.erase r } }).appendLog r))
    ∧ (∀ owner rid block, let w : List W64 := [BitVec.ofNat 64 (owner * 2 ^ 48 + rid % 65536 * 2 ^ 32 + block % 2 ^ 32)]
      let u := s.tookMgmt 0x07 w;
      (u.sumDesc rid = none → exec (.logAck owner rid block) s = .next u)
      ∧ (∀ r, u.sumDesc rid = some r → exec (.logAck owner rid block) s = .next { u with
        redBlocks := s.redBlocks.map fun x =>
          if x.1 / 2 ^ 32 = rid ∧ x.2.complete = true ∧ (block + 2 ^ 32 - x.1 % 2 ^ 32) % 2 ^ 32 < 2 ^ 31
            ∧ s.logHolder r (x.1 % 2 ^ 32) = s.logHolder r block then (x.1, { x.2 with logAcked := true }) else x }))
    ∧ (∀ t pos k alt, let w : List W64 := [BitVec.ofNat 64 pos, k, BitVec.ofNat 64 t.self, BitVec.ofNat 64 alt]
      let u := (s.tookMgmt 0x04 w).heardLead (s.mgmtFrom 0x04 w)
      u.recov.team = some t → t.spare = true → u.dev = .armed →
        exec (.takeover pos k t.self alt) s = .next (u.takeOver t pos k alt))
    ∧ (∀ owner chip a b tag, let w : List W64 := [BitVec.ofNat 64 owner, BitVec.ofNat 64 chip, BitVec.ofNat 64 a,
        BitVec.ofNat 64 b, tag]
      exec (.fetch owner chip a b tag) s = .next ((s.tookMgmt 0x05 w).serveFetch owner chip a b))
    ∧ (∀ a b chunks v, s.recov.staging = some (a, b) → s.recov.halted = true → s.recov.phase ≠ 4 →
        (s.toRestore.map fun q => (s.stagedTag a q).map fun x => (q, x)) = chunks.map some →
        let k := s.recov.recStep
        let low := (chunks.map fun (x : Nat × W64) => x.2.toNat).foldl Nat.min k.toNat
        let first := chunks.foldl (fun s x => State.copyChunk s a x) { s with recov := { s.recov with phase := 3 } }
        ((List.range (k.toNat - low)).map fun i => low + i).foldl (State.replayStep b chunks) (some first) = some v →
        exec .restore s = .next (chunks.foldl (fun s x => State.recast s k x) v).afterRestore)
    ∧ (∀ m, s.image = some m → s.recov.candValid = true → s.recov.halted = true → s.recov.cand ∉ m.repair →
        exec .repairReload s = .next (s.repairReload m))

/-- The update units (R305, R321 to R330): a finished block of a reduction enters its unit and is released, is updated
by its group's rule, and its writes reach HBM in order before its agent arrives. -/
def Obligations.UpdateResults : Prop :=
  ∀ (s : State),
    (∀ rid block r i d, s.sumDesc rid = some r → s.updOf rid = some (i, d) → r.dispose = 1 →
        let b := s.redBlock rid block
        b.complete = true → b.disposed = false → b.logAcked = true → b.released = false →
        (s.updUnit d.depot (s.updStack d block s.step.toNat)).room = true →
        exec (.updateHandoff rid block) s = .next
          ((s.feedUnit i d block s.step (gradLanes r.outFmt b.rounded) false).releaseRed r block)
        ∧ ∃ t, exec (.updateHandoff rid block) s = .next t ∧ (t.redBlock rid block).released = true
          ∧ (t.updUnit d.depot (s.updStack d block s.step.toNat)).queue =
            (s.updUnit d.depot (s.updStack d block s.step.toNat)).queue ++ [{
              desc := i, rid := d.rid, block := block, step := s.step, data := gradLanes r.outFmt b.rounded, replay := false, written := false }])
    ∧ (∀ d u b l x g, (s.updUnit d u).queue = b :: l → s.upds[b.desc]? = some x → b.written = false →
        s.blockGroup x b = some g → ∀ r, s.updCompute x g b.block b.step b.data = some r →
        ∃ t y, exec (.updateBlock d u) s = .next t ∧ (t.updUnit d u).queue = y :: l ∧ y.written = true ∧ y.writes = r.writes
          ∧ t.hbm.bytes = s.hbm.bytes ∧ t = { s with hbm := t.hbm, depots := t.depots, reportsOut := t.reportsOut })
    ∧ (∀ d u b l x, (s.updUnit d u).queue = b :: l → s.upds[b.desc]? = some x → b.written = false → s.blockGroup x b = none →
        ∃ t y, exec (.updateBlock d u) s = .next t ∧ (t.updUnit d u).queue = y :: l ∧ y.written = true ∧ y.skip = true
          ∧ y.writes = b.writes ∧ (t.depot d).updBadGroup = true ∧ (t.depot d).badGroupCount = (s.depot d).badGroupCount + 1
          ∧ t = { s with depots := t.depots })
    ∧ (∀ d u b l x, (s.updUnit d u).queue = b :: l → s.upds[b.desc]? = some x → b.written = true →
        (b.writes.any fun w => s.cairnHolds (w.1 / 2 ^ 19)) = false → ∃ t, exec (.blockWrittenBack d u) s = .next t
          ∧ (t.updUnit d u).queue = l ∧ (t.updUnit d u).blocks = (s.updUnit d u).blocks + 1
          ∧ t.hbm = (b.writes.foldl (fun (s : State) w => s.hbmWrite w.1 w.2 true) { s with freeCtr := s.freeCtr + 1 }).hbm
          ∧ t = { s with hbm := t.hbm, depots := t.depots, reportsOut := t.reportsOut, freeCtr := t.freeCtr, updDone := t.updDone, updTag := t.updTag, net := t.net, ports := t.ports })
    ∧ (∀ d u b l x, (s.updUnit d u).queue = b :: l → s.upds[b.desc]? = some x → b.written = true →
        (b.writes.any fun w => s.cairnHolds (w.1 / 2 ^ 19)) = true → ∃ t, exec (.blockWrittenBack d u) s = .next t
          ∧ t.updUnit d u = { s.updUnit d u with cairnHold := true, cairnWait := (s.updUnit d u).cairnWait + 1 }
          ∧ t = { s with depots := t.depots })
end

