-- ==== Sys2Proof/Laws/Sessions.lean ====
section
/-! SUPPORT. What sending on a session, a response, an event and a transition can do: a line put out, a frame counted, a
session's queue; nothing else of the state. -/

namespace Sys2Proof.Machine

open Sys2Proof

/-- The second state is the first but for what is put out, the host ports and the Tether endpoint. -/
def State.SaidOnly (s t : State) : Prop := ∃ o h e, t = { s with out := o, hports := h, tether := e }

theorem State.SaidOnly.refl (s : State) : s.SaidOnly s := ⟨s.out, s.hports, s.tether, rfl⟩

theorem State.SaidOnly.trans {s t u : State} (h : s.SaidOnly t) (k : t.SaidOnly u) : s.SaidOnly u := by
  obtain ⟨o, p, e, rfl⟩ := h
  obtain ⟨o', p', e', rfl⟩ := k
  exact ⟨o', p', e', rfl⟩

/-- Any part of the state but those three is the same. -/
theorem State.SaidOnly.keep {s t : State} (h : s.SaidOnly t) {α : Type} (g : State → α)
    (hg : ∀ (s : State) o p e, g { s with out := o, hports := p, tether := e } = g s) : g t = g s := by
  obtain ⟨o, p, e, rfl⟩ := h
  exact hg s o p e

theorem State.saidOnly_sentFrames (s : State) (h n : Nat) : s.SaidOnly (s.sentFrames h n) := by
  unfold State.sentFrames
  split
  · exact .refl s
  · exact ⟨s.out, _, s.tether, rfl⟩

theorem State.saidOnly_sendAll (s : State) (rs : List (Session × List Output)) (stay : List Session) :
    s.SaidOnly (s.sendAll rs stay) := by
  unfold State.sendAll
  have : ∀ (l : List (Session × List Output)) (t : State), s.SaidOnly t →
      s.SaidOnly (l.foldl (fun s (r : Session × List Output) =>
        ({ s with out := r.2 ++ s.out }).sentFrames r.1.port r.2.length) t) := by
    intro l
    induction l with
    | nil => intro t h; exact h
    | cons a l ih =>
      intro t h
      refine ih _ ((h.trans ?_).trans (State.saidOnly_sentFrames _ _ _))
      exact ⟨_, t.hports, t.tether, rfl⟩
  exact this _ _ ⟨s.out, s.hports, _, rfl⟩

theorem State.saidOnly_sessionsMap (s : State) (f : Session → Session) : s.SaidOnly (s.sessionsMap f) :=
  (s.saidOnly_sendAll _ _).trans ⟨_, _, _, rfl⟩

theorem State.saidOnly_onSession (s : State) (id : Nat) (f : Session → Session) : s.SaidOnly (s.onSession id f) :=
  State.saidOnly_sessionsMap _ _

theorem State.saidOnly_sendOn (s : State) (id : Nat) (o : Output) : s.SaidOnly (s.sendOn id o) :=
  State.saidOnly_sessionsMap _ _

/-- A response changes nothing but what is put out, the host ports and the session (R436). -/
theorem State.saidOnly_respond (s : State) (id req status code : Nat) (body : List Byte) :
    s.SaidOnly (s.respond id req status code body) := State.saidOnly_sessionsMap _ _

/-- An event changes nothing but what is put out, the host ports and the sessions (R443). -/
theorem State.saidOnly_raise (s : State) (code : Nat) (body : List Byte) : s.SaidOnly (s.raise code body) := by
  unfold State.raise
  exact State.SaidOnly.trans ⟨s.out, s.hports, _, rfl⟩ (State.saidOnly_sessionsMap _ _)

theorem State.saidOnly_linkEvent (s : State) (kind port st : Nat) : s.SaidOnly (s.linkEvent kind port st) :=
  State.saidOnly_raise _ _ _

theorem State.saidOnly_clockEvent (s : State) : s.SaidOnly s.clockEvent := State.saidOnly_raise _ _ _

theorem State.saidOnly_powerEvent (s : State) : s.SaidOnly s.powerEvent := State.saidOnly_raise _ _ _

/-- A transition sets the device state and its reason, may close the run's attestation, and raises one event (R433). -/
theorem State.enter_eq (s : State) (d : DevSt) (r : Reason) (k : W64) :
    ∃ b, ({ s with dev := d, reason := r, sec := { s.sec with runOpen := b } } : State).SaidOnly (s.enter d r k) := by
  unfold State.enter
  split
  · rename_i h
    refine ⟨s.sec.runOpen, ?_⟩
    obtain ⟨rfl, rfl⟩ := h
    exact .refl s
  · exact ⟨_, State.saidOnly_raise _ _ _⟩

@[simp] theorem State.enter_dev (s : State) (d : DevSt) (r : Reason) (k : W64) : (s.enter d r k).dev = d := by
  obtain ⟨b, h⟩ := s.enter_eq d r k
  exact h.keep (fun s => s.dev) (fun _ _ _ _ => rfl)

@[simp] theorem State.enter_reason (s : State) (d : DevSt) (r : Reason) (k : W64) : (s.enter d r k).reason = r := by
  obtain ⟨b, h⟩ := s.enter_eq d r k
  exact h.keep (fun s => s.reason) (fun _ _ _ _ => rfl)

/-- Any part of the state but the device state, its reason, the attestation and what is said is the same. -/
theorem State.enter_keep (s : State) (d : DevSt) (r : Reason) (k : W64) {α : Type} (g : State → α)
    (hg : ∀ (s : State) o p e, g { s with out := o, hports := p, tether := e } = g s)
    (he : ∀ (s : State) d r x, g { s with dev := d, reason := r, sec := x } = g s) : g (s.enter d r k) = g s := by
  obtain ⟨b, h⟩ := s.enter_eq d r k
  rw [h.keep g hg, he]

/-- The session that a number finds has that number. -/
theorem State.session?_id {s : State} {id : Nat} {x : Session} (h : s.session? id = some x) : x.id = id := by
  have := List.find?_some h
  simpa using this

@[simp] theorem State.respond_dev (s : State) (id req status code : Nat) (body : List Byte) :
    (s.respond id req status code body).dev = s.dev :=
  (s.saidOnly_respond id req status code body).keep (fun s => s.dev) (fun _ _ _ _ => rfl)

@[simp] theorem State.respond_hbm (s : State) (id req status code : Nat) (body : List Byte) :
    (s.respond id req status code body).hbm = s.hbm :=
  (s.saidOnly_respond id req status code body).keep (fun s => s.hbm) (fun _ _ _ _ => rfl)

@[simp] theorem State.respond_recov (s : State) (id req status code : Nat) (body : List Byte) :
    (s.respond id req status code body).recov = s.recov :=
  (s.saidOnly_respond id req status code body).keep (fun s => s.recov) (fun _ _ _ _ => rfl)

@[simp] theorem State.raise_hbm (s : State) (code : Nat) (body : List Byte) : (s.raise code body).hbm = s.hbm :=
  (s.saidOnly_raise code body).keep (fun s => s.hbm) (fun _ _ _ _ => rfl)

@[simp] theorem State.raise_dev (s : State) (code : Nat) (body : List Byte) : (s.raise code body).dev = s.dev :=
  (s.saidOnly_raise code body).keep (fun s => s.dev) (fun _ _ _ _ => rfl)

@[simp] theorem State.enter_hbm (s : State) (d : DevSt) (r : Reason) (k : W64) : (s.enter d r k).hbm = s.hbm :=
  s.enter_keep d r k (fun s => s.hbm) (fun _ _ _ _ => rfl) (fun _ _ _ _ => rfl)

@[simp] theorem State.enter_recov (s : State) (d : DevSt) (r : Reason) (k : W64) : (s.enter d r k).recov = s.recov :=
  s.enter_keep d r k (fun s => s.recov) (fun _ _ _ _ => rfl) (fun _ _ _ _ => rfl)

end Sys2Proof.Machine
end

