-- ==== Sys2Proof/Laws/Command.lean ====
section
/-! SUPPORT. The shared frames in which commands act: an issue cycle of a tile, a Tether command, a packet on a queue pair,
a delivered record. -/

namespace Sys2Proof.Machine

open Sys2Proof

/-! ### A slot's instruction (R54, R77) -/

/-- Where a slot can issue its instruction acts on the tile, and the slot has issued. -/
theorem State.issue_run {s : State} {n : Nat} {x : BSlot} (h : s.mayIssue n x = true) (f : Tile → Tile) :
    s.issue n x f = (s.take n x).setTile n (f ((s.take n x).tile n)) := by
  simp [State.issue, h, State.modTile]

theorem State.issueS_run {s : State} {n : Nat} {x : BSlot} (h : s.mayIssue n x = true) (f : Tile → State → State) :
    s.issueS n x f = f ((s.take n x).tile n) (s.take n x) := by
  simp [State.issueS, h]

theorem State.issueR_run {s : State} {n : Nat} {x : BSlot} (h : s.mayIssue n x = true) (f : Tile → State → Res) :
    s.issueR n x f = f ((s.take n x).tile n) (s.take n x) := by
  simp [State.issueR, h]

/-- Elsewhere it does nothing. -/
theorem State.issue_idle {s : State} {n : Nat} {x : BSlot} (h : s.mayIssue n x = false) (f : Tile → Tile) :
    s.issue n x f = s := by
  simp [State.issue, h]

theorem State.issueS_idle {s : State} {n : Nat} {x : BSlot} (h : s.mayIssue n x = false) (f : Tile → State → State) :
    s.issueS n x f = s := by
  simp [State.issueS, h]

theorem State.issueR_idle {s : State} {n : Nat} {x : BSlot} (h : s.mayIssue n x = false) (f : Tile → State → Res) :
    s.issueR n x f = .next s := by
  simp [State.issueR, h]

/-! ### A Tether command (R425 to R435) -/

/-- A command that is an act of `State.command` answers as the statements about commands say. -/
theorem commanded_of {c : Instr} {hd : CmdHdr} {len : Nat} {obs ok legal : Bool} {s : State}
    {act : Nat → Nat → State → State} {P : Nat → State → State → Prop}
    (h : exec c s = s.command hd len obs ok legal act) (hP : ∀ req u, P req u (act hd.session req u)) :
    Commanded c hd len obs ok legal s P := by
  intro x hd1 hx hw
  have hid := State.session?_id hx
  rw [h]
  unfold State.command
  simp only [hd1, if_false, hx, hid, hw]
  refine ⟨?_, ?_, ?_, ?_⟩
  · intro a b
    simp [a, b, State.inTurn]
  · intro a b
    rcases a with a | a <;> simp [a, b, State.inTurn]
  · intro a b c
    rcases a with a | a <;> simp [a, b, c]
  · intro a b c
    rcases a with a | a <;> simp [a, b, c, State.inTurn] <;> exact hP _ _

/-! ### Records and packets -/

/-- A delivered record acts once it may, and leaves the delivered ones. -/
theorem State.recAct_run {s : State} {b : Rec} (h : s.mayAct b = true) (f : State → State) :
    s.recAct b f = .next (f (s.tookBody b)) := by
  simp [State.recAct, h, State.tookBody, State.took]

theorem State.recAct_idle {s : State} {b : Rec} (h : s.mayAct b = false) (f : State → State) :
    s.recAct b f = .next s := by
  simp [State.recAct, h]

/-- A packet on an open queue pair acts after its frames are counted. -/
theorem State.onQp_run {s : State} {qpn e : Nat} {q : Qp} (h : s.QpReady qpn e q) (frames : Nat)
    (f : Nat → Qp → State → State) : s.onQp qpn frames f = f e q (s.gotFrames q.body.port frames) := by
  obtain ⟨h1, h2, h3⟩ := h
  simp [State.onQp, h1, h2, h3]

end Sys2Proof.Machine
end

