-- ==== Sys2Proof/Laws/Dyn.lean ====
section
/-! SUPPORT. What sending records of base camp and writing an entry into the fault ledger can do: the ports' queues, the
records delivered to this chip itself, the ledger and its event; nothing else of the state. -/

namespace Sys2Proof.Machine

open Sys2Proof

/-- The second state is the first but for the ports and the delivered records. -/
def State.SentOnly (s t : State) : Prop := ∃ p d, t = { s with ports := p, delivered := d }

theorem State.SentOnly.refl (s : State) : s.SentOnly s := ⟨s.ports, s.delivered, rfl⟩

theorem State.SentOnly.trans {s t u : State} (h : s.SentOnly t) (k : t.SentOnly u) : s.SentOnly u := by
  obtain ⟨p, d, rfl⟩ := h
  obtain ⟨p', d', rfl⟩ := k
  exact ⟨p', d', rfl⟩

/-- Any part of the state but those two is the same. -/
theorem State.SentOnly.keep {s t : State} (h : s.SentOnly t) {α : Type} (g : State → α)
    (hg : ∀ (s : State) p d, g { s with ports := p, delivered := d } = g s) : g t = g s := by
  obtain ⟨p, d, rfl⟩ := h
  exact hg s p d

/-- A fold of operations that only send only sends. -/
theorem State.SentOnly.foldl {β : Type} (f : State → β → State) (hf : ∀ (s : State) x, s.SentOnly (f s x)) (l : List β) :
    ∀ s : State, s.SentOnly (l.foldl f s) := by
  induction l with
  | nil => intro s; exact .refl s
  | cons x l ih => intro s; exact (hf s x).trans (ih _)

theorem State.sentOnly_dynOn (s : State) (p : Nat) (r : Routed) : s.SentOnly (s.dynOn p r) := ⟨_, s.delivered, rfl⟩

theorem State.sentOnly_dynOnAll (s : State) (ps : List Nat) (r : Routed) : s.SentOnly (s.dynOnAll ps r) :=
  State.SentOnly.foldl (fun s p => s.dynOn p r) (fun s p => s.sentOnly_dynOn p r) ps s

theorem State.sentOnly_dynForward (s : State) (f : Option Nat) (r : Routed) : s.SentOnly (s.dynForward f r) := by
  unfold State.dynForward
  split
  · split
    · exact State.sentOnly_dynOn _ _ _
    · exact .refl s
  · exact State.sentOnly_dynOnAll _ _ _

theorem State.sentOnly_sendDyn (s : State) (dst : Nat) (b : Rec) : s.SentOnly (s.sendDyn dst b) := by
  unfold State.sendDyn
  dsimp only
  split
  · exact ⟨s.ports, _, rfl⟩
  · exact State.sentOnly_dynForward _ _ _

/-- A record of base camp joins a port's queue, or this chip's delivered records (R272 to R276). -/
theorem State.sentOnly_sendMgmt (s : State) (dst sub : Nat) (words : List W64) : s.SentOnly (s.sendMgmt dst sub words) :=
  State.sentOnly_sendDyn _ _ _

theorem State.sentOnly_flood (s : State) (b : Rec) : s.SentOnly (s.flood b) := State.sentOnly_dynOnAll _ _ _

theorem State.sentOnly_floodOn (s : State) (p : Nat) (r : Routed) : s.SentOnly (s.floodOn p r) := by
  unfold State.floodOn
  split
  · exact .refl s
  · exact State.sentOnly_dynOnAll _ _ _

/-! ### The fault ledger (R359, R454) -/

/-- The second state is the first but for the ledger, what is said and what is sent. -/
def State.ToldOnly (s t : State) : Prop :=
  ∃ l n o h e p d, t = { s with recov := { s.recov with ledger := l, ledgerCount := n },
                                out := o, hports := h, tether := e, ports := p, delivered := d }

theorem State.ToldOnly.refl (s : State) : s.ToldOnly s :=
  ⟨s.recov.ledger, s.recov.ledgerCount, s.out, s.hports, s.tether, s.ports, s.delivered, rfl⟩

theorem State.ToldOnly.trans {s t u : State} (h : s.ToldOnly t) (k : t.ToldOnly u) : s.ToldOnly u := by
  obtain ⟨l, n, o, h, e, p, d, rfl⟩ := h
  obtain ⟨l', n', o', h', e', p', d', rfl⟩ := k
  exact ⟨l', n', o', h', e', p', d', rfl⟩

theorem State.SentOnly.told {s t : State} (h : s.SentOnly t) : s.ToldOnly t := by
  obtain ⟨p, d, rfl⟩ := h
  exact ⟨s.recov.ledger, s.recov.ledgerCount, s.out, s.hports, s.tether, p, d, rfl⟩

theorem State.SaidOnly.told {s t : State} (h : s.SaidOnly t) : s.ToldOnly t := by
  obtain ⟨o, p, e, rfl⟩ := h
  exact ⟨s.recov.ledger, s.recov.ledgerCount, o, p, e, s.ports, s.delivered, rfl⟩

/-- An entry is written, its event raised, and from the lead mirrored to the deputy. -/
theorem State.toldOnly_record (s : State) (e : LedgerEntry) : s.ToldOnly (s.record e) := by
  have h1 : ∀ r : Recovery, r = { s.recov with ledger := r.ledger, ledgerCount := r.ledgerCount } →
      s.ToldOnly (({ s with recov := r } : State).raise 3 (entryBytes e)) := by
    intro r hr
    refine State.ToldOnly.trans ?_ (State.saidOnly_raise _ _ _).told
    exact ⟨r.ledger, r.ledgerCount, s.out, s.hports, s.tether, s.ports, s.delivered, by rw [← hr]⟩
  unfold State.record
  dsimp only
  split
  · split
    · exact (h1 _ rfl).trans (State.sentOnly_sendMgmt _ _ _ _).told
    · exact h1 _ rfl
  · exact h1 _ rfl

theorem State.toldOnly_notify (s : State) (cls : Nat) (place : W64) : s.ToldOnly (s.notify cls place) := by
  unfold State.notify
  dsimp only
  split
  · exact (State.toldOnly_record _ _).trans (State.sentOnly_sendMgmt _ _ _ _).told
  · exact State.toldOnly_record _ _

theorem State.sentOnly_tell (s : State) (cls st : Nat) (step place : W64) : s.SentOnly (s.tell cls st step place) := by
  unfold State.tell
  split
  · exact State.sentOnly_sendMgmt _ _ _ _
  · exact .refl s

@[simp] theorem State.sendMgmt_hbm (s : State) (dst sub : Nat) (words : List W64) : (s.sendMgmt dst sub words).hbm = s.hbm :=
  (s.sentOnly_sendMgmt dst sub words).keep (fun s => s.hbm) (fun _ _ _ => rfl)

@[simp] theorem State.flood_hbm (s : State) (b : Rec) : (s.flood b).hbm = s.hbm :=
  (s.sentOnly_flood b).keep (fun s => s.hbm) (fun _ _ _ => rfl)

@[simp] theorem State.floodOn_hbm (s : State) (p : Nat) (r : Routed) : (s.floodOn p r).hbm = s.hbm :=
  (s.sentOnly_floodOn p r).keep (fun s => s.hbm) (fun _ _ _ => rfl)

@[simp] theorem State.record_hbm (s : State) (e : LedgerEntry) : (s.record e).hbm = s.hbm := by
  obtain ⟨l, n, o, h, t, p, d, k⟩ := s.toldOnly_record e
  rw [k]

@[simp] theorem State.notify_hbm (s : State) (cls : Nat) (place : W64) : (s.notify cls place).hbm = s.hbm := by
  obtain ⟨l, n, o, h, t, p, d, k⟩ := s.toldOnly_notify cls place
  rw [k]

@[simp] theorem State.tell_hbm (s : State) (cls st : Nat) (step place : W64) : (s.tell cls st step place).hbm = s.hbm :=
  (s.sentOnly_tell cls st step place).keep (fun s => s.hbm) (fun _ _ _ => rfl)

end Sys2Proof.Machine
end

