-- ==== Sys2Proof/Laws/Maps.lean ====
section
/-! SUPPORT. Laws of the sparse arrays and of the one form of a memory. -/

namespace Sys2Proof.Machine

open Sys2Proof

/-- An entry replaced twice holds the later value. -/
theorem SMap.set_set {α : Type} (m : SMap α) (a : Nat) (v w : α) : SMap.set (SMap.set m a v) a w = SMap.set m a w := by
  induction m with
  | nil => simp [SMap.set]
  | cons y l ih =>
    obtain ⟨k, c⟩ := y
    simp only [SMap.set]
    split
    · simp [SMap.set]
    · split
      · simp [SMap.set]
      · rename_i h1 h2
        simp [SMap.set, h1, h2, ih]

/-- What an array with an entry replaced holds. -/
theorem SMap.get?_set {α : Type} (m : SMap α) (a x : Nat) (v : α) :
    SMap.get? (SMap.set m a v) x = if x = a then some v else SMap.get? m x := by
  induction m with
  | nil => simp [SMap.set, SMap.get?]; split <;> split <;> simp_all
  | cons y l ih =>
    obtain ⟨k, c⟩ := y
    simp only [SMap.set]
    split
    · simp only [SMap.get?]
      by_cases h : x = a
      · simp [h]
      · simp [h, Ne.symm h]
    · split
      · rename_i h
        subst h
        simp only [SMap.get?]
        by_cases h : x = a
        · simp [h]
        · simp [h, Ne.symm h]
      · simp only [SMap.get?, ih]
        by_cases h : k = x
        · subst h
          rename_i h1 h2
          simp [Ne.symm h2]
        · simp [h]

@[simp] theorem SMap.get?_set_self {α : Type} (m : SMap α) (a : Nat) (v : α) :
    SMap.get? (SMap.set m a v) a = some v := by simp [SMap.get?_set]

theorem SMap.get?_set_ne {α : Type} (m : SMap α) {a x : Nat} (v : α) (h : x ≠ a) :
    SMap.get? (SMap.set m a v) x = SMap.get? m x := by simp [SMap.get?_set, h]

@[simp] theorem SMap.get_set_self {α : Type} (m : SMap α) (a : Nat) (v d : α) :
    SMap.get (SMap.set m a v) a d = v := by simp [SMap.get]

theorem SMap.get_set_ne {α : Type} (m : SMap α) {a x : Nat} (v d : α) (h : x ≠ a) :
    SMap.get (SMap.set m a v) x d = SMap.get m x d := by simp [SMap.get, SMap.get?_set, h]

/-! ### The one form of a memory -/

/-- A form that begins higher also begins lower. -/
theorem Memory.wfFrom_mono (m : Memory) {a b : Nat} (hab : a ≤ b) (h : Memory.wfFrom b m = true) :
    Memory.wfFrom a m = true := by
  cases m with
  | nil => rfl
  | cons x l =>
    simp only [Memory.wfFrom, Bool.and_eq_true, decide_eq_true_eq] at h ⊢
    exact ⟨⟨by omega, h.1.2⟩, h.2⟩

/-- Nothing is listed below the start of the form. -/
theorem Memory.get?_below (m : Memory) : ∀ lo a, a < lo → Memory.wfFrom lo m = true → SMap.get? m a = none := by
  induction m with
  | nil => intros; rfl
  | cons x l ih =>
    obtain ⟨k, b⟩ := x
    intro lo a h hw
    simp only [Memory.wfFrom, Bool.and_eq_true, decide_eq_true_eq] at hw
    simp only [SMap.get?]
    rw [if_neg (by omega)]
    exact ih (k + 1) a (by omega) hw.2

theorem Memory.set_wfFrom (m : Memory) (a : Nat) (b : Byte) (hb : b ≠ 0) :
    ∀ lo, lo ≤ a → Memory.wfFrom lo m = true → Memory.wfFrom lo (SMap.set m a b) = true := by
  induction m with
  | nil => intro lo h _; simpa [SMap.set, Memory.wfFrom, h] using hb
  | cons x l ih =>
    obtain ⟨k, c⟩ := x
    intro lo h hw
    simp only [Memory.wfFrom, Bool.and_eq_true, decide_eq_true_eq] at hw
    obtain ⟨⟨h1, h2⟩, h3⟩ := hw
    simp only [SMap.set]
    split
    · simp only [Memory.wfFrom, Bool.and_eq_true, decide_eq_true_eq]
      exact ⟨⟨h, hb⟩, ⟨by omega, h2⟩, h3⟩
    · split
      · rename_i e
        subst e
        simp only [Memory.wfFrom, Bool.and_eq_true, decide_eq_true_eq]
        exact ⟨⟨h, hb⟩, h3⟩
      · simp only [Memory.wfFrom, Bool.and_eq_true, decide_eq_true_eq]
        exact ⟨⟨h1, h2⟩, ih (k + 1) (by omega) h3⟩

theorem Memory.erase_wfFrom (m : Memory) (a : Nat) :
    ∀ lo, Memory.wfFrom lo m = true → Memory.wfFrom lo (SMap.erase m a) = true := by
  induction m with
  | nil => intros; rfl
  | cons x l ih =>
    obtain ⟨k, c⟩ := x
    intro lo hw
    simp only [Memory.wfFrom, Bool.and_eq_true, decide_eq_true_eq] at hw
    obtain ⟨⟨h1, h2⟩, h3⟩ := hw
    simp only [SMap.erase]
    split
    · exact Memory.wfFrom_mono _ (by omega) h3
    · simp only [Memory.wfFrom, Bool.and_eq_true, decide_eq_true_eq]
      exact ⟨⟨h1, h2⟩, ih _ h3⟩

/-- What a memory in its one form holds with an address removed. -/
theorem Memory.get?_erase (m : Memory) (a x : Nat) : ∀ lo, Memory.wfFrom lo m = true →
    SMap.get? (SMap.erase m a) x = if x = a then none else SMap.get? m x := by
  induction m with
  | nil => intros; simp [SMap.erase, SMap.get?]
  | cons y l ih =>
    obtain ⟨k, c⟩ := y
    intro lo hw
    simp only [Memory.wfFrom, Bool.and_eq_true, decide_eq_true_eq] at hw
    simp only [SMap.erase]
    split
    · rename_i e
      subst e
      by_cases hx : x = k
      · subst hx
        simpa using Memory.get?_below l (x + 1) x (by omega) hw.2
      · simp [hx, SMap.get?, Ne.symm hx]
    · rename_i e
      simp only [SMap.get?]
      by_cases hx : k = x
      · subst hx
        simp [e]
      · simp only [hx, if_false]
        exact ih _ hw.2

/-- A write of a byte keeps the form. -/
theorem Memory.put_wf {m : Memory} (a : Nat) (b : Byte) (h : Memory.wf m = true) : Memory.wf (Memory.put m a b) = true := by
  unfold Memory.put
  split
  · exact Memory.erase_wfFrom _ _ _ h
  · exact Memory.set_wfFrom m a b (by assumption) 0 (by omega) h

/-- Writes of bytes keep the form. -/
theorem Memory.puts_wf (f : Nat → Nat) (g : Nat → Byte) (l : List Nat) :
    ∀ m : Memory, Memory.wf m = true → Memory.wf (l.foldl (fun m i => Memory.put m (f i) (g i)) m) = true := by
  induction l with
  | nil => intro m h; exact h
  | cons x l ih => intro m h; exact ih _ (Memory.put_wf _ _ h)

/-! ### The scratchpad -/

theorem Spad.writeGran_wf {sp : Spad} (g o : Nat) (bs : List (Byte × Bool)) (h : Memory.wf sp.bytes = true) :
    Memory.wf (sp.writeGran g o bs).bytes = true := Memory.puts_wf _ _ _ _ h

theorem Spad.writeFrom_wf (fuel : Nat) : ∀ (sp : Spad) (g o : Nat) (bs : List (Byte × Bool)),
    Memory.wf sp.bytes = true → Memory.wf (Spad.writeFrom fuel sp g o bs).bytes = true := by
  induction fuel with
  | zero => intro sp g o bs h; exact h
  | succ n ih =>
    intro sp g o bs h
    unfold Spad.writeFrom
    split
    · exact h
    · exact ih _ _ _ _ (Spad.writeGran_wf _ _ _ h)

/-- A scratchpad write keeps the form of its bytes. -/
theorem Spad.write_wf {sp : Spad} (addr : Nat) (bs : List (Byte × Bool)) (h : Memory.wf sp.bytes = true) :
    Memory.wf (sp.write addr bs).bytes = true := Spad.writeFrom_wf _ _ _ _ _ h

/-! ### Registers of a tile -/

/-- g0 reads as zero, poison clear (R53). -/
@[simp] theorem Tile.gr_zero (t : Tile) : t.gr 0 = {} := rfl

/-- A tile just written reads back; the others are as before. -/
@[simp] theorem State.tile_setTile (s : State) (n : Nat) (t : Tile) : (s.setTile n t).tile n = t := by
  simp [State.tile, State.setTile]

/-- The second of two replacements of a tile stands. -/
@[simp] theorem State.setTile_setTile (s : State) (n : Nat) (t u : Tile) : (s.setTile n t).setTile n u = s.setTile n u := by
  simp [State.setTile, SMap.set_set]

theorem State.tile_setTile_ne (s : State) {n m : Nat} (t : Tile) (h : m ≠ n) : (s.setTile n t).tile m = s.tile m := by
  simp [State.tile, State.setTile, SMap.get_set_ne _ _ _ h]

@[simp] theorem State.tile_modTile (s : State) (n : Nat) (f : Tile → Tile) : (s.modTile n f).tile n = f (s.tile n) := by
  simp [State.modTile]

theorem State.tile_modTile_ne (s : State) {n m : Nat} (f : Tile → Tile) (h : m ≠ n) :
    (s.modTile n f).tile m = s.tile m := State.tile_setTile_ne s _ h

@[simp] theorem State.row_modRow (s : State) (r : Nat) (f : Row → Row) : (s.modRow r f).row r = f (s.row r) := by
  simp [State.row, State.modRow]

theorem State.row_modRow_ne (s : State) {r q : Nat} (f : Row → Row) (h : q ≠ r) : (s.modRow r f).row q = s.row q := by
  simp [State.row, State.modRow, SMap.get_set_ne _ _ _ h]

end Sys2Proof.Machine
end

