-- ==== Sys2Proof/Laws/Hbm.lean ====
section
/-! SUPPORT. HBM: what each operation does to the stored bytes, and that every one keeps their one form. -/

namespace Sys2Proof.Machine

open Sys2Proof

/-- A unit's write keeps the form. -/
theorem Hbm.writeUnit_wf {h : Hbm} (k lo : Nat) (bs : List Byte) (p : Bool) (hw : Memory.wf h.bytes = true) :
    Memory.wf (h.writeUnit k lo bs p).bytes = true := Memory.puts_wf _ _ _ _ hw

/-! ### Operations that leave the stored bytes alone -/

@[simp] theorem State.wantMigration_bytes (s : State) (seg : Nat) : (s.wantMigration seg).hbm.bytes = s.hbm.bytes := by
  unfold State.wantMigration
  split <;> rfl

@[simp] theorem State.ueDetect_bytes (s : State) (seg : Nat) (r : HRow) (u : Nat) (m : Bool) :
    (s.ueDetect seg r u m).hbm.bytes = s.hbm.bytes := by
  unfold State.ueDetect
  cases m <;> exact State.wantMigration_bytes _ _

@[simp] theorem State.ceCount_bytes (s : State) (seg : Nat) (r : HRow) : (s.ceCount seg r).hbm.bytes = s.hbm.bytes := by
  unfold State.ceCount
  dsimp only
  split
  · exact State.wantMigration_bytes _ _
  · rfl

@[simp] theorem State.codeCheck_bytes (s : State) (seg : Nat) (r : HRow) (u : Nat) (m : Bool) :
    (s.codeCheck seg r u m).hbm.bytes = s.hbm.bytes := by
  unfold State.codeCheck
  dsimp only
  split
  · simp
  · split <;> simp

@[simp] theorem State.touchUnit_bytes (s : State) (unit : Nat) (m : Bool) :
    (s.touchUnit unit m).hbm.bytes = s.hbm.bytes := by
  unfold State.touchUnit
  dsimp only
  split <;> simp

/-- Folds of operations that leave a part of the state alone leave it alone. -/
theorem State.foldl_keep {α β : Type} (g : State → α) (f : State → β → State) (hf : ∀ s x, g (f s x) = g s)
    (l : List β) : ∀ s, g (l.foldl f s) = g s := by
  induction l with
  | nil => intro s; rfl
  | cons x l ih => intro s; rw [List.foldl_cons, ih, hf]

@[simp] theorem State.countUnmapped_hbm (s : State) (l : List Nat) : (s.countUnmapped l).hbm = s.hbm := by
  unfold State.countUnmapped
  refine State.foldl_keep (fun s => s.hbm) _ ?_ _ s
  intro t x
  rfl

@[simp] theorem State.countWp_hbm (s : State) (l : List Nat) : (s.countWp l).hbm = s.hbm := by
  unfold State.countWp
  refine State.foldl_keep (fun s => s.hbm) _ ?_ _ s
  intro t x
  rfl

/-- A read of a span leaves the stored bytes alone. -/
@[simp] theorem State.hbmTouch_bytes (s : State) (off len : Nat) (m : Bool) :
    (s.hbmTouch off len m).hbm.bytes = s.hbm.bytes := by
  unfold State.hbmTouch
  rw [State.countUnmapped_hbm]
  exact State.foldl_keep (fun s => s.hbm.bytes) _ (fun _ _ => State.touchUnit_bytes _ _ _) _ s

@[simp] theorem State.markGrans_hbm (s : State) (n : Nat) (ds : Detections) : (s.markGrans n ds).hbm = s.hbm := by
  unfold State.markGrans
  refine State.foldl_keep (fun s => s.hbm) _ ?_ _ s
  intro t x
  rfl

@[simp] theorem State.detect_hbm (s : State) (n : Nat) (ds : Detections) : (s.detect n ds).hbm = s.hbm :=
  State.markGrans_hbm _ _ _

/-! ### Operations that write -/

/-- A write of part of a unit keeps the form, at its place and at a migration's destination. -/
theorem State.storeUnit_wf {s : State} (unit lo : Nat) (bs : List (Byte × Bool)) (h : Memory.wf s.hbm.bytes = true) :
    Memory.wf (s.storeUnit unit lo bs).hbm.bytes = true := by
  have key : ∀ t : State, t.hbm.bytes = s.hbm.bytes → Memory.wf t.hbm.bytes = true := by
    intro t ht
    rw [ht]
    exact h
  unfold State.storeUnit
  dsimp only
  split
  · refine Hbm.writeUnit_wf _ _ _ _ (Hbm.writeUnit_wf _ _ _ _ (key _ ?_))
    split <;> simp
  · refine Hbm.writeUnit_wf _ _ _ _ (key _ ?_)
    split <;> simp

/-- A write of a span keeps the form. -/
theorem State.hbmWrite_wf {s : State} (off : Nat) (data : List (Byte × Bool)) (wp : Bool)
    (h : Memory.wf s.hbm.bytes = true) : Memory.wf (s.hbmWrite off data wp).hbm.bytes = true := by
  unfold State.hbmWrite
  simp only [State.countWp_hbm, State.countUnmapped_hbm]
  generalize unitSpan off data.length = l
  have : ∀ (l : List (Nat × Nat × Nat)) (a : State × List (Byte × Bool)), Memory.wf a.1.hbm.bytes = true →
      Memory.wf (l.foldl (fun (acc : State × List (Byte × Bool)) (u : Nat × Nat × Nat) =>
        (if entMapped (s.mapEntry (segOf u.1)) && !(wp && entWp (s.mapEntry (segOf u.1))) then
          acc.1.storeUnit u.1 u.2.1 (acc.2.take u.2.2) else acc.1, acc.2.drop u.2.2)) a).1.hbm.bytes = true := by
    intro l
    induction l with
    | nil => intro a ha; exact ha
    | cons u l ih =>
      intro a ha
      refine ih _ ?_
      dsimp only
      split
      · exact State.storeUnit_wf _ _ _ ha
      · exact ha
  exact this l _ h

/-! ### What the operations of HBM change at most -/

/-- Only HBM, the depots' registers and the reports on their way to base camp differ. -/
def State.HbmOnly (s u : State) : Prop := u = { s with hbm := u.hbm, depots := u.depots, reportsOut := u.reportsOut }

theorem State.HbmOnly.refl (s : State) : s.HbmOnly s := rfl

theorem State.HbmOnly.trans {s t u : State} (h : s.HbmOnly t) (k : t.HbmOnly u) : s.HbmOnly u := by
  unfold State.HbmOnly at *
  rw [k, h]

/-- A fold of operations that change no more changes no more. -/
theorem State.HbmOnly.fold {β : Type} (f : State → β → State) (hf : ∀ (s : State) (x : β), s.HbmOnly (f s x)) (l : List β) :
    ∀ s : State, s.HbmOnly (l.foldl f s) := by
  induction l with
  | nil => intro s; exact State.HbmOnly.refl s
  | cons x l ih => intro s; exact (hf s x).trans (ih _)

theorem State.HbmOnly.codeCheck (s : State) (seg : Nat) (r : HRow) (u : Nat) (m : Bool) : s.HbmOnly (s.codeCheck seg r u m) := by
  unfold State.HbmOnly State.codeCheck State.ueDetect State.ceCount State.wantMigration
  dsimp only
  split
  · cases m <;> simp only [if_true, if_false, Bool.false_eq_true] <;> split <;> rfl
  · split
    · split
      · split <;> rfl
      · rfl
    · rfl

theorem State.HbmOnly.touchUnit (s : State) (unit : Nat) (m : Bool) : s.HbmOnly (s.touchUnit unit m) := by
  unfold State.touchUnit
  dsimp only
  split
  · exact State.HbmOnly.codeCheck _ _ _ _ _
  · exact State.HbmOnly.refl s

theorem State.HbmOnly.countUnmapped (s : State) (l : List Nat) : s.HbmOnly (s.countUnmapped l) := by
  unfold State.countUnmapped
  refine State.HbmOnly.fold _ ?_ l s
  intro t x
  rfl

theorem State.HbmOnly.countWp (s : State) (l : List Nat) : s.HbmOnly (s.countWp l) := by
  unfold State.countWp
  refine State.HbmOnly.fold _ ?_ l s
  intro t x
  rfl

/-- A read of a span. -/
theorem State.HbmOnly.touch (s : State) (off len : Nat) (m : Bool) : s.HbmOnly (s.hbmTouch off len m) :=
  (State.HbmOnly.fold _ (fun _ _ => State.HbmOnly.touchUnit _ _ _) _ s).trans (State.HbmOnly.countUnmapped _ _)

theorem State.HbmOnly.storeUnit (s : State) (unit lo : Nat) (bs : List (Byte × Bool)) : s.HbmOnly (s.storeUnit unit lo bs) := by
  unfold State.storeUnit
  dsimp only
  split
  · exact rfl
  · exact (State.HbmOnly.codeCheck _ _ _ _ _).trans rfl

/-- A write of a span. -/
theorem State.HbmOnly.write (s : State) (off : Nat) (data : List (Byte × Bool)) (wp : Bool) : s.HbmOnly (s.hbmWrite off data wp) := by
  unfold State.hbmWrite
  refine State.HbmOnly.trans ?_ ((State.HbmOnly.countUnmapped _ _).trans (State.HbmOnly.countWp _ _))
  generalize unitSpan off data.length = l
  have : ∀ (l : List (Nat × Nat × Nat)) (a : State × List (Byte × Bool)), a.1.HbmOnly
      (l.foldl (fun (acc : State × List (Byte × Bool)) (u : Nat × Nat × Nat) =>
        (if entMapped (s.mapEntry (segOf u.1)) && !(wp && entWp (s.mapEntry (segOf u.1))) then
          acc.1.storeUnit u.1 u.2.1 (acc.2.take u.2.2) else acc.1, acc.2.drop u.2.2)) a).1 := by
    intro l
    induction l with
    | nil => intro a; exact State.HbmOnly.refl _
    | cons u l ih =>
      intro a
      refine State.HbmOnly.trans ?_ (ih _)
      dsimp only
      split
      · exact State.HbmOnly.storeUnit _ _ _ _
      · exact State.HbmOnly.refl _
  exact this l _

@[simp] theorem State.hbmTouch_fuses (s : State) (off len : Nat) (m : Bool) : (s.hbmTouch off len m).fuses = s.fuses := by
  rw [State.HbmOnly.touch s off len m]

end Sys2Proof.Machine
end

