-- ==== Sys2Proof/Laws/State.lean ====
section
/-! SUPPORT. What each named update of the state leaves: one equation for each field, true by unfolding. -/

namespace Sys2Proof.Machine

open Sys2Proof

/-! ### emit -/

@[simp] theorem State.emit_fuses (s : State) (o : Output) : (s.emit o).fuses = s.fuses := rfl
@[simp] theorem State.emit_tiles (s : State) (o : Output) : (s.emit o).tiles = s.tiles := rfl
@[simp] theorem State.emit_rows (s : State) (o : Output) : (s.emit o).rows = s.rows := rfl
@[simp] theorem State.emit_bqs (s : State) (o : Output) : (s.emit o).bqs = s.bqs := rfl
@[simp] theorem State.emit_eps (s : State) (o : Output) : (s.emit o).eps = s.eps := rfl
@[simp] theorem State.emit_gs (s : State) (o : Output) : (s.emit o).gs = s.gs := rfl
@[simp] theorem State.emit_sigDiscards (s : State) (o : Output) : (s.emit o).sigDiscards = s.sigDiscards := rfl
@[simp] theorem State.emit_hbm (s : State) (o : Output) : (s.emit o).hbm = s.hbm := rfl
@[simp] theorem State.emit_depots (s : State) (o : Output) : (s.emit o).depots = s.depots := rfl
@[simp] theorem State.emit_reds (s : State) (o : Output) : (s.emit o).reds = s.reds := rfl
@[simp] theorem State.emit_redSeq (s : State) (o : Output) : (s.emit o).redSeq = s.redSeq := rfl
@[simp] theorem State.emit_redBlocks (s : State) (o : Output) : (s.emit o).redBlocks = s.redBlocks := rfl
@[simp] theorem State.emit_redHeld (s : State) (o : Output) : (s.emit o).redHeld = s.redHeld := rfl
@[simp] theorem State.emit_outputs (s : State) (o : Output) : (s.emit o).outputs = s.outputs := rfl
@[simp] theorem State.emit_upds (s : State) (o : Output) : (s.emit o).upds = s.upds := rfl
@[simp] theorem State.emit_groups (s : State) (o : Output) : (s.emit o).groups = s.groups := rfl
@[simp] theorem State.emit_scheds (s : State) (o : Output) : (s.emit o).scheds = s.scheds := rfl
@[simp] theorem State.emit_updDone (s : State) (o : Output) : (s.emit o).updDone = s.updDone := rfl
@[simp] theorem State.emit_updTag (s : State) (o : Output) : (s.emit o).updTag = s.updTag := rfl
@[simp] theorem State.emit_formats (s : State) (o : Output) : (s.emit o).formats = s.formats := rfl
@[simp] theorem State.emit_cv (s : State) (o : Output) : (s.emit o).cv = s.cv := rfl
@[simp] theorem State.emit_ports (s : State) (o : Output) : (s.emit o).ports = s.ports := rfl
@[simp] theorem State.emit_chipmap (s : State) (o : Output) : (s.emit o).chipmap = s.chipmap := rfl
@[simp] theorem State.emit_clock (s : State) (o : Output) : (s.emit o).clock = s.clock := rfl
@[simp] theorem State.emit_power (s : State) (o : Output) : (s.emit o).power = s.power := rfl
@[simp] theorem State.emit_recov (s : State) (o : Output) : (s.emit o).recov = s.recov := rfl
@[simp] theorem State.emit_sec (s : State) (o : Output) : (s.emit o).sec = s.sec := rfl
@[simp] theorem State.emit_image (s : State) (o : Output) : (s.emit o).image = s.image := rfl
@[simp] theorem State.emit_tileMap (s : State) (o : Output) : (s.emit o).tileMap = s.tileMap := rfl
@[simp] theorem State.emit_loadCode (s : State) (o : Output) : (s.emit o).loadCode = s.loadCode := rfl
@[simp] theorem State.emit_loadWhere (s : State) (o : Output) : (s.emit o).loadWhere = s.loadWhere := rfl
@[simp] theorem State.emit_base (s : State) (o : Output) : (s.emit o).base = s.base := rfl
@[simp] theorem State.emit_tether (s : State) (o : Output) : (s.emit o).tether = s.tether := rfl
@[simp] theorem State.emit_hports (s : State) (o : Output) : (s.emit o).hports = s.hports := rfl
@[simp] theorem State.emit_qps (s : State) (o : Output) : (s.emit o).qps = s.qps := rfl
@[simp] theorem State.emit_senders (s : State) (o : Output) : (s.emit o).senders = s.senders := rfl
@[simp] theorem State.emit_rst (s : State) (o : Output) : (s.emit o).rst = s.rst := rfl
@[simp] theorem State.emit_pkg (s : State) (o : Output) : (s.emit o).pkg = s.pkg := rfl
@[simp] theorem State.emit_dev (s : State) (o : Output) : (s.emit o).dev = s.dev := rfl
@[simp] theorem State.emit_reason (s : State) (o : Output) : (s.emit o).reason = s.reason := rfl
@[simp] theorem State.emit_step (s : State) (o : Output) : (s.emit o).step = s.step := rfl
@[simp] theorem State.emit_arrived (s : State) (o : Output) : (s.emit o).arrived = s.arrived := rfl
@[simp] theorem State.emit_bcTag (s : State) (o : Output) : (s.emit o).bcTag = s.bcTag := rfl
@[simp] theorem State.emit_startAt (s : State) (o : Output) : (s.emit o).startAt = s.startAt := rfl
@[simp] theorem State.emit_rowsDue (s : State) (o : Output) : (s.emit o).rowsDue = s.rowsDue := rfl
@[simp] theorem State.emit_reports (s : State) (o : Output) : (s.emit o).reports = s.reports := rfl
@[simp] theorem State.emit_reportsNext (s : State) (o : Output) : (s.emit o).reportsNext = s.reportsNext := rfl
@[simp] theorem State.emit_reportsOut (s : State) (o : Output) : (s.emit o).reportsOut = s.reportsOut := rfl
@[simp] theorem State.emit_faultsOut (s : State) (o : Output) : (s.emit o).faultsOut = s.faultsOut := rfl
@[simp] theorem State.emit_net (s : State) (o : Output) : (s.emit o).net = s.net := rfl
@[simp] theorem State.emit_delivered (s : State) (o : Output) : (s.emit o).delivered = s.delivered := rfl
@[simp] theorem State.emit_stepReleases (s : State) (o : Output) : (s.emit o).stepReleases = s.stepReleases := rfl
@[simp] theorem State.emit_freeCtr (s : State) (o : Output) : (s.emit o).freeCtr = s.freeCtr := rfl
@[simp] theorem State.emit_out (s : State) (o : Output) : (s.emit o).out = o :: s.out := rfl
@[simp] theorem State.emit_pending (s : State) (o : Output) : (s.emit o).pending = s.pending := rfl

/-! ### setTile -/

@[simp] theorem State.setTile_fuses (s : State) (n : Nat) (t : Tile) : (s.setTile n t).fuses = s.fuses := rfl
@[simp] theorem State.setTile_tiles (s : State) (n : Nat) (t : Tile) : (s.setTile n t).tiles = s.tiles.set n t := rfl
@[simp] theorem State.setTile_rows (s : State) (n : Nat) (t : Tile) : (s.setTile n t).rows = s.rows := rfl
@[simp] theorem State.setTile_bqs (s : State) (n : Nat) (t : Tile) : (s.setTile n t).bqs = s.bqs := rfl
@[simp] theorem State.setTile_eps (s : State) (n : Nat) (t : Tile) : (s.setTile n t).eps = s.eps := rfl
@[simp] theorem State.setTile_gs (s : State) (n : Nat) (t : Tile) : (s.setTile n t).gs = s.gs := rfl
@[simp] theorem State.setTile_sigDiscards (s : State) (n : Nat) (t : Tile) : (s.setTile n t).sigDiscards = s.sigDiscards := rfl
@[simp] theorem State.setTile_hbm (s : State) (n : Nat) (t : Tile) : (s.setTile n t).hbm = s.hbm := rfl
@[simp] theorem State.setTile_depots (s : State) (n : Nat) (t : Tile) : (s.setTile n t).depots = s.depots := rfl
@[simp] theorem State.setTile_reds (s : State) (n : Nat) (t : Tile) : (s.setTile n t).reds = s.reds := rfl
@[simp] theorem State.setTile_redSeq (s : State) (n : Nat) (t : Tile) : (s.setTile n t).redSeq = s.redSeq := rfl
@[simp] theorem State.setTile_redBlocks (s : State) (n : Nat) (t : Tile) : (s.setTile n t).redBlocks = s.redBlocks := rfl
@[simp] theorem State.setTile_redHeld (s : State) (n : Nat) (t : Tile) : (s.setTile n t).redHeld = s.redHeld := rfl
@[simp] theorem State.setTile_outputs (s : State) (n : Nat) (t : Tile) : (s.setTile n t).outputs = s.outputs := rfl
@[simp] theorem State.setTile_upds (s : State) (n : Nat) (t : Tile) : (s.setTile n t).upds = s.upds := rfl
@[simp] theorem State.setTile_groups (s : State) (n : Nat) (t : Tile) : (s.setTile n t).groups = s.groups := rfl
@[simp] theorem State.setTile_scheds (s : State) (n : Nat) (t : Tile) : (s.setTile n t).scheds = s.scheds := rfl
@[simp] theorem State.setTile_updDone (s : State) (n : Nat) (t : Tile) : (s.setTile n t).updDone = s.updDone := rfl
@[simp] theorem State.setTile_updTag (s : State) (n : Nat) (t : Tile) : (s.setTile n t).updTag = s.updTag := rfl
@[simp] theorem State.setTile_formats (s : State) (n : Nat) (t : Tile) : (s.setTile n t).formats = s.formats := rfl
@[simp] theorem State.setTile_cv (s : State) (n : Nat) (t : Tile) : (s.setTile n t).cv = s.cv := rfl
@[simp] theorem State.setTile_ports (s : State) (n : Nat) (t : Tile) : (s.setTile n t).ports = s.ports := rfl
@[simp] theorem State.setTile_chipmap (s : State) (n : Nat) (t : Tile) : (s.setTile n t).chipmap = s.chipmap := rfl
@[simp] theorem State.setTile_clock (s : State) (n : Nat) (t : Tile) : (s.setTile n t).clock = s.clock := rfl
@[simp] theorem State.setTile_power (s : State) (n : Nat) (t : Tile) : (s.setTile n t).power = s.power := rfl
@[simp] theorem State.setTile_recov (s : State) (n : Nat) (t : Tile) : (s.setTile n t).recov = s.recov := rfl
@[simp] theorem State.setTile_sec (s : State) (n : Nat) (t : Tile) : (s.setTile n t).sec = s.sec := rfl
@[simp] theorem State.setTile_image (s : State) (n : Nat) (t : Tile) : (s.setTile n t).image = s.image := rfl
@[simp] theorem State.setTile_tileMap (s : State) (n : Nat) (t : Tile) : (s.setTile n t).tileMap = s.tileMap := rfl
@[simp] theorem State.setTile_loadCode (s : State) (n : Nat) (t : Tile) : (s.setTile n t).loadCode = s.loadCode := rfl
@[simp] theorem State.setTile_loadWhere (s : State) (n : Nat) (t : Tile) : (s.setTile n t).loadWhere = s.loadWhere := rfl
@[simp] theorem State.setTile_base (s : State) (n : Nat) (t : Tile) : (s.setTile n t).base = s.base := rfl
@[simp] theorem State.setTile_tether (s : State) (n : Nat) (t : Tile) : (s.setTile n t).tether = s.tether := rfl
@[simp] theorem State.setTile_hports (s : State) (n : Nat) (t : Tile) : (s.setTile n t).hports = s.hports := rfl
@[simp] theorem State.setTile_qps (s : State) (n : Nat) (t : Tile) : (s.setTile n t).qps = s.qps := rfl
@[simp] theorem State.setTile_senders (s : State) (n : Nat) (t : Tile) : (s.setTile n t).senders = s.senders := rfl
@[simp] theorem State.setTile_rst (s : State) (n : Nat) (t : Tile) : (s.setTile n t).rst = s.rst := rfl
@[simp] theorem State.setTile_pkg (s : State) (n : Nat) (t : Tile) : (s.setTile n t).pkg = s.pkg := rfl
@[simp] theorem State.setTile_dev (s : State) (n : Nat) (t : Tile) : (s.setTile n t).dev = s.dev := rfl
@[simp] theorem State.setTile_reason (s : State) (n : Nat) (t : Tile) : (s.setTile n t).reason = s.reason := rfl
@[simp] theorem State.setTile_step (s : State) (n : Nat) (t : Tile) : (s.setTile n t).step = s.step := rfl
@[simp] theorem State.setTile_arrived (s : State) (n : Nat) (t : Tile) : (s.setTile n t).arrived = s.arrived := rfl
@[simp] theorem State.setTile_bcTag (s : State) (n : Nat) (t : Tile) : (s.setTile n t).bcTag = s.bcTag := rfl
@[simp] theorem State.setTile_startAt (s : State) (n : Nat) (t : Tile) : (s.setTile n t).startAt = s.startAt := rfl
@[simp] theorem State.setTile_rowsDue (s : State) (n : Nat) (t : Tile) : (s.setTile n t).rowsDue = s.rowsDue := rfl
@[simp] theorem State.setTile_reports (s : State) (n : Nat) (t : Tile) : (s.setTile n t).reports = s.reports := rfl
@[simp] theorem State.setTile_reportsNext (s : State) (n : Nat) (t : Tile) : (s.setTile n t).reportsNext = s.reportsNext := rfl
@[simp] theorem State.setTile_reportsOut (s : State) (n : Nat) (t : Tile) : (s.setTile n t).reportsOut = s.reportsOut := rfl
@[simp] theorem State.setTile_faultsOut (s : State) (n : Nat) (t : Tile) : (s.setTile n t).faultsOut = s.faultsOut := rfl
@[simp] theorem State.setTile_net (s : State) (n : Nat) (t : Tile) : (s.setTile n t).net = s.net := rfl
@[simp] theorem State.setTile_delivered (s : State) (n : Nat) (t : Tile) : (s.setTile n t).delivered = s.delivered := rfl
@[simp] theorem State.setTile_stepReleases (s : State) (n : Nat) (t : Tile) : (s.setTile n t).stepReleases = s.stepReleases := rfl
@[simp] theorem State.setTile_freeCtr (s : State) (n : Nat) (t : Tile) : (s.setTile n t).freeCtr = s.freeCtr := rfl
@[simp] theorem State.setTile_out (s : State) (n : Nat) (t : Tile) : (s.setTile n t).out = s.out := rfl
@[simp] theorem State.setTile_pending (s : State) (n : Nat) (t : Tile) : (s.setTile n t).pending = s.pending := rfl

/-! ### modTile -/

@[simp] theorem State.modTile_fuses (s : State) (n : Nat) (f : Tile → Tile) : (s.modTile n f).fuses = s.fuses := rfl
@[simp] theorem State.modTile_tiles (s : State) (n : Nat) (f : Tile → Tile) : (s.modTile n f).tiles = s.tiles.set n (f (s.tile n)) := rfl
@[simp] theorem State.modTile_rows (s : State) (n : Nat) (f : Tile → Tile) : (s.modTile n f).rows = s.rows := rfl
@[simp] theorem State.modTile_bqs (s : State) (n : Nat) (f : Tile → Tile) : (s.modTile n f).bqs = s.bqs := rfl
@[simp] theorem State.modTile_eps (s : State) (n : Nat) (f : Tile → Tile) : (s.modTile n f).eps = s.eps := rfl
@[simp] theorem State.modTile_gs (s : State) (n : Nat) (f : Tile → Tile) : (s.modTile n f).gs = s.gs := rfl
@[simp] theorem State.modTile_sigDiscards (s : State) (n : Nat) (f : Tile → Tile) : (s.modTile n f).sigDiscards = s.sigDiscards := rfl
@[simp] theorem State.modTile_hbm (s : State) (n : Nat) (f : Tile → Tile) : (s.modTile n f).hbm = s.hbm := rfl
@[simp] theorem State.modTile_depots (s : State) (n : Nat) (f : Tile → Tile) : (s.modTile n f).depots = s.depots := rfl
@[simp] theorem State.modTile_reds (s : State) (n : Nat) (f : Tile → Tile) : (s.modTile n f).reds = s.reds := rfl
@[simp] theorem State.modTile_redSeq (s : State) (n : Nat) (f : Tile → Tile) : (s.modTile n f).redSeq = s.redSeq := rfl
@[simp] theorem State.modTile_redBlocks (s : State) (n : Nat) (f : Tile → Tile) : (s.modTile n f).redBlocks = s.redBlocks := rfl
@[simp] theorem State.modTile_redHeld (s : State) (n : Nat) (f : Tile → Tile) : (s.modTile n f).redHeld = s.redHeld := rfl
@[simp] theorem State.modTile_outputs (s : State) (n : Nat) (f : Tile → Tile) : (s.modTile n f).outputs = s.outputs := rfl
@[simp] theorem State.modTile_upds (s : State) (n : Nat) (f : Tile → Tile) : (s.modTile n f).upds = s.upds := rfl
@[simp] theorem State.modTile_groups (s : State) (n : Nat) (f : Tile → Tile) : (s.modTile n f).groups = s.groups := rfl
@[simp] theorem State.modTile_scheds (s : State) (n : Nat) (f : Tile → Tile) : (s.modTile n f).scheds = s.scheds := rfl
@[simp] theorem State.modTile_updDone (s : State) (n : Nat) (f : Tile → Tile) : (s.modTile n f).updDone = s.updDone := rfl
@[simp] theorem State.modTile_updTag (s : State) (n : Nat) (f : Tile → Tile) : (s.modTile n f).updTag = s.updTag := rfl
@[simp] theorem State.modTile_formats (s : State) (n : Nat) (f : Tile → Tile) : (s.modTile n f).formats = s.formats := rfl
@[simp] theorem State.modTile_cv (s : State) (n : Nat) (f : Tile → Tile) : (s.modTile n f).cv = s.cv := rfl
@[simp] theorem State.modTile_ports (s : State) (n : Nat) (f : Tile → Tile) : (s.modTile n f).ports = s.ports := rfl
@[simp] theorem State.modTile_chipmap (s : State) (n : Nat) (f : Tile → Tile) : (s.modTile n f).chipmap = s.chipmap := rfl
@[simp] theorem State.modTile_clock (s : State) (n : Nat) (f : Tile → Tile) : (s.modTile n f).clock = s.clock := rfl
@[simp] theorem State.modTile_power (s : State) (n : Nat) (f : Tile → Tile) : (s.modTile n f).power = s.power := rfl
@[simp] theorem State.modTile_recov (s : State) (n : Nat) (f : Tile → Tile) : (s.modTile n f).recov = s.recov := rfl
@[simp] theorem State.modTile_sec (s : State) (n : Nat) (f : Tile → Tile) : (s.modTile n f).sec = s.sec := rfl
@[simp] theorem State.modTile_image (s : State) (n : Nat) (f : Tile → Tile) : (s.modTile n f).image = s.image := rfl
@[simp] theorem State.modTile_tileMap (s : State) (n : Nat) (f : Tile → Tile) : (s.modTile n f).tileMap = s.tileMap := rfl
@[simp] theorem State.modTile_loadCode (s : State) (n : Nat) (f : Tile → Tile) : (s.modTile n f).loadCode = s.loadCode := rfl
@[simp] theorem State.modTile_loadWhere (s : State) (n : Nat) (f : Tile → Tile) : (s.modTile n f).loadWhere = s.loadWhere := rfl
@[simp] theorem State.modTile_base (s : State) (n : Nat) (f : Tile → Tile) : (s.modTile n f).base = s.base := rfl
@[simp] theorem State.modTile_tether (s : State) (n : Nat) (f : Tile → Tile) : (s.modTile n f).tether = s.tether := rfl
@[simp] theorem State.modTile_hports (s : State) (n : Nat) (f : Tile → Tile) : (s.modTile n f).hports = s.hports := rfl
@[simp] theorem State.modTile_qps (s : State) (n : Nat) (f : Tile → Tile) : (s.modTile n f).qps = s.qps := rfl
@[simp] theorem State.modTile_senders (s : State) (n : Nat) (f : Tile → Tile) : (s.modTile n f).senders = s.senders := rfl
@[simp] theorem State.modTile_rst (s : State) (n : Nat) (f : Tile → Tile) : (s.modTile n f).rst = s.rst := rfl
@[simp] theorem State.modTile_pkg (s : State) (n : Nat) (f : Tile → Tile) : (s.modTile n f).pkg = s.pkg := rfl
@[simp] theorem State.modTile_dev (s : State) (n : Nat) (f : Tile → Tile) : (s.modTile n f).dev = s.dev := rfl
@[simp] theorem State.modTile_reason (s : State) (n : Nat) (f : Tile → Tile) : (s.modTile n f).reason = s.reason := rfl
@[simp] theorem State.modTile_step (s : State) (n : Nat) (f : Tile → Tile) : (s.modTile n f).step = s.step := rfl
@[simp] theorem State.modTile_arrived (s : State) (n : Nat) (f : Tile → Tile) : (s.modTile n f).arrived = s.arrived := rfl
@[simp] theorem State.modTile_bcTag (s : State) (n : Nat) (f : Tile → Tile) : (s.modTile n f).bcTag = s.bcTag := rfl
@[simp] theorem State.modTile_startAt (s : State) (n : Nat) (f : Tile → Tile) : (s.modTile n f).startAt = s.startAt := rfl
@[simp] theorem State.modTile_rowsDue (s : State) (n : Nat) (f : Tile → Tile) : (s.modTile n f).rowsDue = s.rowsDue := rfl
@[simp] theorem State.modTile_reports (s : State) (n : Nat) (f : Tile → Tile) : (s.modTile n f).reports = s.reports := rfl
@[simp] theorem State.modTile_reportsNext (s : State) (n : Nat) (f : Tile → Tile) : (s.modTile n f).reportsNext = s.reportsNext := rfl
@[simp] theorem State.modTile_reportsOut (s : State) (n : Nat) (f : Tile → Tile) : (s.modTile n f).reportsOut = s.reportsOut := rfl
@[simp] theorem State.modTile_faultsOut (s : State) (n : Nat) (f : Tile → Tile) : (s.modTile n f).faultsOut = s.faultsOut := rfl
@[simp] theorem State.modTile_net (s : State) (n : Nat) (f : Tile → Tile) : (s.modTile n f).net = s.net := rfl
@[simp] theorem State.modTile_delivered (s : State) (n : Nat) (f : Tile → Tile) : (s.modTile n f).delivered = s.delivered := rfl
@[simp] theorem State.modTile_stepReleases (s : State) (n : Nat) (f : Tile → Tile) : (s.modTile n f).stepReleases = s.stepReleases := rfl
@[simp] theorem State.modTile_freeCtr (s : State) (n : Nat) (f : Tile → Tile) : (s.modTile n f).freeCtr = s.freeCtr := rfl
@[simp] theorem State.modTile_out (s : State) (n : Nat) (f : Tile → Tile) : (s.modTile n f).out = s.out := rfl
@[simp] theorem State.modTile_pending (s : State) (n : Nat) (f : Tile → Tile) : (s.modTile n f).pending = s.pending := rfl

/-! ### modRow -/

@[simp] theorem State.modRow_fuses (s : State) (r : Nat) (f : Row → Row) : (s.modRow r f).fuses = s.fuses := rfl
@[simp] theorem State.modRow_tiles (s : State) (r : Nat) (f : Row → Row) : (s.modRow r f).tiles = s.tiles := rfl
@[simp] theorem State.modRow_rows (s : State) (r : Nat) (f : Row → Row) : (s.modRow r f).rows = s.rows.set r (f (s.row r)) := rfl
@[simp] theorem State.modRow_bqs (s : State) (r : Nat) (f : Row → Row) : (s.modRow r f).bqs = s.bqs := rfl
@[simp] theorem State.modRow_eps (s : State) (r : Nat) (f : Row → Row) : (s.modRow r f).eps = s.eps := rfl
@[simp] theorem State.modRow_gs (s : State) (r : Nat) (f : Row → Row) : (s.modRow r f).gs = s.gs := rfl
@[simp] theorem State.modRow_sigDiscards (s : State) (r : Nat) (f : Row → Row) : (s.modRow r f).sigDiscards = s.sigDiscards := rfl
@[simp] theorem State.modRow_hbm (s : State) (r : Nat) (f : Row → Row) : (s.modRow r f).hbm = s.hbm := rfl
@[simp] theorem State.modRow_depots (s : State) (r : Nat) (f : Row → Row) : (s.modRow r f).depots = s.depots := rfl
@[simp] theorem State.modRow_reds (s : State) (r : Nat) (f : Row → Row) : (s.modRow r f).reds = s.reds := rfl
@[simp] theorem State.modRow_redSeq (s : State) (r : Nat) (f : Row → Row) : (s.modRow r f).redSeq = s.redSeq := rfl
@[simp] theorem State.modRow_redBlocks (s : State) (r : Nat) (f : Row → Row) : (s.modRow r f).redBlocks = s.redBlocks := rfl
@[simp] theorem State.modRow_redHeld (s : State) (r : Nat) (f : Row → Row) : (s.modRow r f).redHeld = s.redHeld := rfl
@[simp] theorem State.modRow_outputs (s : State) (r : Nat) (f : Row → Row) : (s.modRow r f).outputs = s.outputs := rfl
@[simp] theorem State.modRow_upds (s : State) (r : Nat) (f : Row → Row) : (s.modRow r f).upds = s.upds := rfl
@[simp] theorem State.modRow_groups (s : State) (r : Nat) (f : Row → Row) : (s.modRow r f).groups = s.groups := rfl
@[simp] theorem State.modRow_scheds (s : State) (r : Nat) (f : Row → Row) : (s.modRow r f).scheds = s.scheds := rfl
@[simp] theorem State.modRow_updDone (s : State) (r : Nat) (f : Row → Row) : (s.modRow r f).updDone = s.updDone := rfl
@[simp] theorem State.modRow_updTag (s : State) (r : Nat) (f : Row → Row) : (s.modRow r f).updTag = s.updTag := rfl
@[simp] theorem State.modRow_formats (s : State) (r : Nat) (f : Row → Row) : (s.modRow r f).formats = s.formats := rfl
@[simp] theorem State.modRow_cv (s : State) (r : Nat) (f : Row → Row) : (s.modRow r f).cv = s.cv := rfl
@[simp] theorem State.modRow_ports (s : State) (r : Nat) (f : Row → Row) : (s.modRow r f).ports = s.ports := rfl
@[simp] theorem State.modRow_chipmap (s : State) (r : Nat) (f : Row → Row) : (s.modRow r f).chipmap = s.chipmap := rfl
@[simp] theorem State.modRow_clock (s : State) (r : Nat) (f : Row → Row) : (s.modRow r f).clock = s.clock := rfl
@[simp] theorem State.modRow_power (s : State) (r : Nat) (f : Row → Row) : (s.modRow r f).power = s.power := rfl
@[simp] theorem State.modRow_recov (s : State) (r : Nat) (f : Row → Row) : (s.modRow r f).recov = s.recov := rfl
@[simp] theorem State.modRow_sec (s : State) (r : Nat) (f : Row → Row) : (s.modRow r f).sec = s.sec := rfl
@[simp] theorem State.modRow_image (s : State) (r : Nat) (f : Row → Row) : (s.modRow r f).image = s.image := rfl
@[simp] theorem State.modRow_tileMap (s : State) (r : Nat) (f : Row → Row) : (s.modRow r f).tileMap = s.tileMap := rfl
@[simp] theorem State.modRow_loadCode (s : State) (r : Nat) (f : Row → Row) : (s.modRow r f).loadCode = s.loadCode := rfl
@[simp] theorem State.modRow_loadWhere (s : State) (r : Nat) (f : Row → Row) : (s.modRow r f).loadWhere = s.loadWhere := rfl
@[simp] theorem State.modRow_base (s : State) (r : Nat) (f : Row → Row) : (s.modRow r f).base = s.base := rfl
@[simp] theorem State.modRow_tether (s : State) (r : Nat) (f : Row → Row) : (s.modRow r f).tether = s.tether := rfl
@[simp] theorem State.modRow_hports (s : State) (r : Nat) (f : Row → Row) : (s.modRow r f).hports = s.hports := rfl
@[simp] theorem State.modRow_qps (s : State) (r : Nat) (f : Row → Row) : (s.modRow r f).qps = s.qps := rfl
@[simp] theorem State.modRow_senders (s : State) (r : Nat) (f : Row → Row) : (s.modRow r f).senders = s.senders := rfl
@[simp] theorem State.modRow_rst (s : State) (r : Nat) (f : Row → Row) : (s.modRow r f).rst = s.rst := rfl
@[simp] theorem State.modRow_pkg (s : State) (r : Nat) (f : Row → Row) : (s.modRow r f).pkg = s.pkg := rfl
@[simp] theorem State.modRow_dev (s : State) (r : Nat) (f : Row → Row) : (s.modRow r f).dev = s.dev := rfl
@[simp] theorem State.modRow_reason (s : State) (r : Nat) (f : Row → Row) : (s.modRow r f).reason = s.reason := rfl
@[simp] theorem State.modRow_step (s : State) (r : Nat) (f : Row → Row) : (s.modRow r f).step = s.step := rfl
@[simp] theorem State.modRow_arrived (s : State) (r : Nat) (f : Row → Row) : (s.modRow r f).arrived = s.arrived := rfl
@[simp] theorem State.modRow_bcTag (s : State) (r : Nat) (f : Row → Row) : (s.modRow r f).bcTag = s.bcTag := rfl
@[simp] theorem State.modRow_startAt (s : State) (r : Nat) (f : Row → Row) : (s.modRow r f).startAt = s.startAt := rfl
@[simp] theorem State.modRow_rowsDue (s : State) (r : Nat) (f : Row → Row) : (s.modRow r f).rowsDue = s.rowsDue := rfl
@[simp] theorem State.modRow_reports (s : State) (r : Nat) (f : Row → Row) : (s.modRow r f).reports = s.reports := rfl
@[simp] theorem State.modRow_reportsNext (s : State) (r : Nat) (f : Row → Row) : (s.modRow r f).reportsNext = s.reportsNext := rfl
@[simp] theorem State.modRow_reportsOut (s : State) (r : Nat) (f : Row → Row) : (s.modRow r f).reportsOut = s.reportsOut := rfl
@[simp] theorem State.modRow_faultsOut (s : State) (r : Nat) (f : Row → Row) : (s.modRow r f).faultsOut = s.faultsOut := rfl
@[simp] theorem State.modRow_net (s : State) (r : Nat) (f : Row → Row) : (s.modRow r f).net = s.net := rfl
@[simp] theorem State.modRow_delivered (s : State) (r : Nat) (f : Row → Row) : (s.modRow r f).delivered = s.delivered := rfl
@[simp] theorem State.modRow_stepReleases (s : State) (r : Nat) (f : Row → Row) : (s.modRow r f).stepReleases = s.stepReleases := rfl
@[simp] theorem State.modRow_freeCtr (s : State) (r : Nat) (f : Row → Row) : (s.modRow r f).freeCtr = s.freeCtr := rfl
@[simp] theorem State.modRow_out (s : State) (r : Nat) (f : Row → Row) : (s.modRow r f).out = s.out := rfl
@[simp] theorem State.modRow_pending (s : State) (r : Nat) (f : Row → Row) : (s.modRow r f).pending = s.pending := rfl

/-! ### take -/

@[simp] theorem State.take_fuses (s : State) (n : Nat) (x : BSlot) : (s.take n x).fuses = s.fuses := rfl
@[simp] theorem State.take_tiles (s : State) (n : Nat) (x : BSlot) : (s.take n x).tiles = s.tiles.set n ((s.tile n).take x) := rfl
@[simp] theorem State.take_rows (s : State) (n : Nat) (x : BSlot) : (s.take n x).rows = s.rows := rfl
@[simp] theorem State.take_bqs (s : State) (n : Nat) (x : BSlot) : (s.take n x).bqs = s.bqs := rfl
@[simp] theorem State.take_eps (s : State) (n : Nat) (x : BSlot) : (s.take n x).eps = s.eps := rfl
@[simp] theorem State.take_gs (s : State) (n : Nat) (x : BSlot) : (s.take n x).gs = s.gs := rfl
@[simp] theorem State.take_sigDiscards (s : State) (n : Nat) (x : BSlot) : (s.take n x).sigDiscards = s.sigDiscards := rfl
@[simp] theorem State.take_hbm (s : State) (n : Nat) (x : BSlot) : (s.take n x).hbm = s.hbm := rfl
@[simp] theorem State.take_depots (s : State) (n : Nat) (x : BSlot) : (s.take n x).depots = s.depots := rfl
@[simp] theorem State.take_reds (s : State) (n : Nat) (x : BSlot) : (s.take n x).reds = s.reds := rfl
@[simp] theorem State.take_redSeq (s : State) (n : Nat) (x : BSlot) : (s.take n x).redSeq = s.redSeq := rfl
@[simp] theorem State.take_redBlocks (s : State) (n : Nat) (x : BSlot) : (s.take n x).redBlocks = s.redBlocks := rfl
@[simp] theorem State.take_redHeld (s : State) (n : Nat) (x : BSlot) : (s.take n x).redHeld = s.redHeld := rfl
@[simp] theorem State.take_outputs (s : State) (n : Nat) (x : BSlot) : (s.take n x).outputs = s.outputs := rfl
@[simp] theorem State.take_upds (s : State) (n : Nat) (x : BSlot) : (s.take n x).upds = s.upds := rfl
@[simp] theorem State.take_groups (s : State) (n : Nat) (x : BSlot) : (s.take n x).groups = s.groups := rfl
@[simp] theorem State.take_scheds (s : State) (n : Nat) (x : BSlot) : (s.take n x).scheds = s.scheds := rfl
@[simp] theorem State.take_updDone (s : State) (n : Nat) (x : BSlot) : (s.take n x).updDone = s.updDone := rfl
@[simp] theorem State.take_updTag (s : State) (n : Nat) (x : BSlot) : (s.take n x).updTag = s.updTag := rfl
@[simp] theorem State.take_formats (s : State) (n : Nat) (x : BSlot) : (s.take n x).formats = s.formats := rfl
@[simp] theorem State.take_cv (s : State) (n : Nat) (x : BSlot) : (s.take n x).cv = s.cv := rfl
@[simp] theorem State.take_ports (s : State) (n : Nat) (x : BSlot) : (s.take n x).ports = s.ports := rfl
@[simp] theorem State.take_chipmap (s : State) (n : Nat) (x : BSlot) : (s.take n x).chipmap = s.chipmap := rfl
@[simp] theorem State.take_clock (s : State) (n : Nat) (x : BSlot) : (s.take n x).clock = s.clock := rfl
@[simp] theorem State.take_power (s : State) (n : Nat) (x : BSlot) : (s.take n x).power = s.power := rfl
@[simp] theorem State.take_recov (s : State) (n : Nat) (x : BSlot) : (s.take n x).recov = s.recov := rfl
@[simp] theorem State.take_sec (s : State) (n : Nat) (x : BSlot) : (s.take n x).sec = s.sec := rfl
@[simp] theorem State.take_image (s : State) (n : Nat) (x : BSlot) : (s.take n x).image = s.image := rfl
@[simp] theorem State.take_tileMap (s : State) (n : Nat) (x : BSlot) : (s.take n x).tileMap = s.tileMap := rfl
@[simp] theorem State.take_loadCode (s : State) (n : Nat) (x : BSlot) : (s.take n x).loadCode = s.loadCode := rfl
@[simp] theorem State.take_loadWhere (s : State) (n : Nat) (x : BSlot) : (s.take n x).loadWhere = s.loadWhere := rfl
@[simp] theorem State.take_base (s : State) (n : Nat) (x : BSlot) : (s.take n x).base = s.base := rfl
@[simp] theorem State.take_tether (s : State) (n : Nat) (x : BSlot) : (s.take n x).tether = s.tether := rfl
@[simp] theorem State.take_hports (s : State) (n : Nat) (x : BSlot) : (s.take n x).hports = s.hports := rfl
@[simp] theorem State.take_qps (s : State) (n : Nat) (x : BSlot) : (s.take n x).qps = s.qps := rfl
@[simp] theorem State.take_senders (s : State) (n : Nat) (x : BSlot) : (s.take n x).senders = s.senders := rfl
@[simp] theorem State.take_rst (s : State) (n : Nat) (x : BSlot) : (s.take n x).rst = s.rst := rfl
@[simp] theorem State.take_pkg (s : State) (n : Nat) (x : BSlot) : (s.take n x).pkg = s.pkg := rfl
@[simp] theorem State.take_dev (s : State) (n : Nat) (x : BSlot) : (s.take n x).dev = s.dev := rfl
@[simp] theorem State.take_reason (s : State) (n : Nat) (x : BSlot) : (s.take n x).reason = s.reason := rfl
@[simp] theorem State.take_step (s : State) (n : Nat) (x : BSlot) : (s.take n x).step = s.step := rfl
@[simp] theorem State.take_arrived (s : State) (n : Nat) (x : BSlot) : (s.take n x).arrived = s.arrived := rfl
@[simp] theorem State.take_bcTag (s : State) (n : Nat) (x : BSlot) : (s.take n x).bcTag = s.bcTag := rfl
@[simp] theorem State.take_startAt (s : State) (n : Nat) (x : BSlot) : (s.take n x).startAt = s.startAt := rfl
@[simp] theorem State.take_rowsDue (s : State) (n : Nat) (x : BSlot) : (s.take n x).rowsDue = s.rowsDue := rfl
@[simp] theorem State.take_reports (s : State) (n : Nat) (x : BSlot) : (s.take n x).reports = s.reports := rfl
@[simp] theorem State.take_reportsNext (s : State) (n : Nat) (x : BSlot) : (s.take n x).reportsNext = s.reportsNext := rfl
@[simp] theorem State.take_reportsOut (s : State) (n : Nat) (x : BSlot) : (s.take n x).reportsOut = s.reportsOut := rfl
@[simp] theorem State.take_faultsOut (s : State) (n : Nat) (x : BSlot) : (s.take n x).faultsOut = s.faultsOut := rfl
@[simp] theorem State.take_net (s : State) (n : Nat) (x : BSlot) : (s.take n x).net = s.net := rfl
@[simp] theorem State.take_delivered (s : State) (n : Nat) (x : BSlot) : (s.take n x).delivered = s.delivered := rfl
@[simp] theorem State.take_stepReleases (s : State) (n : Nat) (x : BSlot) : (s.take n x).stepReleases = s.stepReleases := rfl
@[simp] theorem State.take_freeCtr (s : State) (n : Nat) (x : BSlot) : (s.take n x).freeCtr = s.freeCtr := rfl
@[simp] theorem State.take_out (s : State) (n : Nat) (x : BSlot) : (s.take n x).out = s.out := rfl
@[simp] theorem State.take_pending (s : State) (n : Nat) (x : BSlot) : (s.take n x).pending = s.pending := rfl

/-! ### mark -/

@[simp] theorem State.mark_fuses (s : State) (p : Place) : (s.mark p).fuses = s.fuses := rfl
@[simp] theorem State.mark_tiles (s : State) (p : Place) : (s.mark p).tiles = s.tiles := rfl
@[simp] theorem State.mark_rows (s : State) (p : Place) : (s.mark p).rows = s.rows := rfl
@[simp] theorem State.mark_bqs (s : State) (p : Place) : (s.mark p).bqs = s.bqs := rfl
@[simp] theorem State.mark_eps (s : State) (p : Place) : (s.mark p).eps = s.eps := rfl
@[simp] theorem State.mark_gs (s : State) (p : Place) : (s.mark p).gs = s.gs := rfl
@[simp] theorem State.mark_sigDiscards (s : State) (p : Place) : (s.mark p).sigDiscards = s.sigDiscards := rfl
@[simp] theorem State.mark_hbm (s : State) (p : Place) : (s.mark p).hbm = s.hbm := rfl
@[simp] theorem State.mark_depots (s : State) (p : Place) : (s.mark p).depots = s.depots := rfl
@[simp] theorem State.mark_reds (s : State) (p : Place) : (s.mark p).reds = s.reds := rfl
@[simp] theorem State.mark_redSeq (s : State) (p : Place) : (s.mark p).redSeq = s.redSeq := rfl
@[simp] theorem State.mark_redBlocks (s : State) (p : Place) : (s.mark p).redBlocks = s.redBlocks := rfl
@[simp] theorem State.mark_redHeld (s : State) (p : Place) : (s.mark p).redHeld = s.redHeld := rfl
@[simp] theorem State.mark_outputs (s : State) (p : Place) : (s.mark p).outputs = s.outputs := rfl
@[simp] theorem State.mark_upds (s : State) (p : Place) : (s.mark p).upds = s.upds := rfl
@[simp] theorem State.mark_groups (s : State) (p : Place) : (s.mark p).groups = s.groups := rfl
@[simp] theorem State.mark_scheds (s : State) (p : Place) : (s.mark p).scheds = s.scheds := rfl
@[simp] theorem State.mark_updDone (s : State) (p : Place) : (s.mark p).updDone = s.updDone := rfl
@[simp] theorem State.mark_updTag (s : State) (p : Place) : (s.mark p).updTag = s.updTag := rfl
@[simp] theorem State.mark_formats (s : State) (p : Place) : (s.mark p).formats = s.formats := rfl
@[simp] theorem State.mark_cv (s : State) (p : Place) : (s.mark p).cv = s.cv := rfl
@[simp] theorem State.mark_ports (s : State) (p : Place) : (s.mark p).ports = s.ports := rfl
@[simp] theorem State.mark_chipmap (s : State) (p : Place) : (s.mark p).chipmap = s.chipmap := rfl
@[simp] theorem State.mark_clock (s : State) (p : Place) : (s.mark p).clock = s.clock := rfl
@[simp] theorem State.mark_power (s : State) (p : Place) : (s.mark p).power = s.power := rfl
@[simp] theorem State.mark_recov (s : State) (p : Place) : (s.mark p).recov = s.recov := rfl
@[simp] theorem State.mark_sec (s : State) (p : Place) : (s.mark p).sec = s.sec := rfl
@[simp] theorem State.mark_image (s : State) (p : Place) : (s.mark p).image = s.image := rfl
@[simp] theorem State.mark_tileMap (s : State) (p : Place) : (s.mark p).tileMap = s.tileMap := rfl
@[simp] theorem State.mark_loadCode (s : State) (p : Place) : (s.mark p).loadCode = s.loadCode := rfl
@[simp] theorem State.mark_loadWhere (s : State) (p : Place) : (s.mark p).loadWhere = s.loadWhere := rfl
@[simp] theorem State.mark_base (s : State) (p : Place) : (s.mark p).base = s.base := rfl
@[simp] theorem State.mark_tether (s : State) (p : Place) : (s.mark p).tether = s.tether := rfl
@[simp] theorem State.mark_hports (s : State) (p : Place) : (s.mark p).hports = s.hports := rfl
@[simp] theorem State.mark_qps (s : State) (p : Place) : (s.mark p).qps = s.qps := rfl
@[simp] theorem State.mark_senders (s : State) (p : Place) : (s.mark p).senders = s.senders := rfl
@[simp] theorem State.mark_rst (s : State) (p : Place) : (s.mark p).rst = s.rst := rfl
@[simp] theorem State.mark_pkg (s : State) (p : Place) : (s.mark p).pkg = s.pkg := rfl
@[simp] theorem State.mark_dev (s : State) (p : Place) : (s.mark p).dev = s.dev := rfl
@[simp] theorem State.mark_reason (s : State) (p : Place) : (s.mark p).reason = s.reason := rfl
@[simp] theorem State.mark_step (s : State) (p : Place) : (s.mark p).step = s.step := rfl
@[simp] theorem State.mark_arrived (s : State) (p : Place) : (s.mark p).arrived = s.arrived := rfl
@[simp] theorem State.mark_bcTag (s : State) (p : Place) : (s.mark p).bcTag = s.bcTag := rfl
@[simp] theorem State.mark_startAt (s : State) (p : Place) : (s.mark p).startAt = s.startAt := rfl
@[simp] theorem State.mark_rowsDue (s : State) (p : Place) : (s.mark p).rowsDue = s.rowsDue := rfl
@[simp] theorem State.mark_reports (s : State) (p : Place) : (s.mark p).reports = s.reports := rfl
@[simp] theorem State.mark_reportsNext (s : State) (p : Place) : (s.mark p).reportsNext = s.reportsNext := rfl
@[simp] theorem State.mark_reportsOut (s : State) (p : Place) : (s.mark p).reportsOut = s.reportsOut ++ [⟨p, s.step⟩] := rfl
@[simp] theorem State.mark_faultsOut (s : State) (p : Place) : (s.mark p).faultsOut = s.faultsOut := rfl
@[simp] theorem State.mark_net (s : State) (p : Place) : (s.mark p).net = s.net := rfl
@[simp] theorem State.mark_delivered (s : State) (p : Place) : (s.mark p).delivered = s.delivered := rfl
@[simp] theorem State.mark_stepReleases (s : State) (p : Place) : (s.mark p).stepReleases = s.stepReleases := rfl
@[simp] theorem State.mark_freeCtr (s : State) (p : Place) : (s.mark p).freeCtr = s.freeCtr := rfl
@[simp] theorem State.mark_out (s : State) (p : Place) : (s.mark p).out = s.out := rfl
@[simp] theorem State.mark_pending (s : State) (p : Place) : (s.mark p).pending = s.pending := rfl

/-! ### modDepot -/

@[simp] theorem State.modDepot_fuses (s : State) (d : Nat) (f : Depot → Depot) : (s.modDepot d f).fuses = s.fuses := rfl
@[simp] theorem State.modDepot_tiles (s : State) (d : Nat) (f : Depot → Depot) : (s.modDepot d f).tiles = s.tiles := rfl
@[simp] theorem State.modDepot_rows (s : State) (d : Nat) (f : Depot → Depot) : (s.modDepot d f).rows = s.rows := rfl
@[simp] theorem State.modDepot_bqs (s : State) (d : Nat) (f : Depot → Depot) : (s.modDepot d f).bqs = s.bqs := rfl
@[simp] theorem State.modDepot_eps (s : State) (d : Nat) (f : Depot → Depot) : (s.modDepot d f).eps = s.eps := rfl
@[simp] theorem State.modDepot_gs (s : State) (d : Nat) (f : Depot → Depot) : (s.modDepot d f).gs = s.gs := rfl
@[simp] theorem State.modDepot_sigDiscards (s : State) (d : Nat) (f : Depot → Depot) : (s.modDepot d f).sigDiscards = s.sigDiscards := rfl
@[simp] theorem State.modDepot_hbm (s : State) (d : Nat) (f : Depot → Depot) : (s.modDepot d f).hbm = s.hbm := rfl
@[simp] theorem State.modDepot_depots (s : State) (d : Nat) (f : Depot → Depot) : (s.modDepot d f).depots = s.depots.set d (f (s.depot d)) := rfl
@[simp] theorem State.modDepot_reds (s : State) (d : Nat) (f : Depot → Depot) : (s.modDepot d f).reds = s.reds := rfl
@[simp] theorem State.modDepot_redSeq (s : State) (d : Nat) (f : Depot → Depot) : (s.modDepot d f).redSeq = s.redSeq := rfl
@[simp] theorem State.modDepot_redBlocks (s : State) (d : Nat) (f : Depot → Depot) : (s.modDepot d f).redBlocks = s.redBlocks := rfl
@[simp] theorem State.modDepot_redHeld (s : State) (d : Nat) (f : Depot → Depot) : (s.modDepot d f).redHeld = s.redHeld := rfl
@[simp] theorem State.modDepot_outputs (s : State) (d : Nat) (f : Depot → Depot) : (s.modDepot d f).outputs = s.outputs := rfl
@[simp] theorem State.modDepot_upds (s : State) (d : Nat) (f : Depot → Depot) : (s.modDepot d f).upds = s.upds := rfl
@[simp] theorem State.modDepot_groups (s : State) (d : Nat) (f : Depot → Depot) : (s.modDepot d f).groups = s.groups := rfl
@[simp] theorem State.modDepot_scheds (s : State) (d : Nat) (f : Depot → Depot) : (s.modDepot d f).scheds = s.scheds := rfl
@[simp] theorem State.modDepot_updDone (s : State) (d : Nat) (f : Depot → Depot) : (s.modDepot d f).updDone = s.updDone := rfl
@[simp] theorem State.modDepot_updTag (s : State) (d : Nat) (f : Depot → Depot) : (s.modDepot d f).updTag = s.updTag := rfl
@[simp] theorem State.modDepot_formats (s : State) (d : Nat) (f : Depot → Depot) : (s.modDepot d f).formats = s.formats := rfl
@[simp] theorem State.modDepot_cv (s : State) (d : Nat) (f : Depot → Depot) : (s.modDepot d f).cv = s.cv := rfl
@[simp] theorem State.modDepot_ports (s : State) (d : Nat) (f : Depot → Depot) : (s.modDepot d f).ports = s.ports := rfl
@[simp] theorem State.modDepot_chipmap (s : State) (d : Nat) (f : Depot → Depot) : (s.modDepot d f).chipmap = s.chipmap := rfl
@[simp] theorem State.modDepot_clock (s : State) (d : Nat) (f : Depot → Depot) : (s.modDepot d f).clock = s.clock := rfl
@[simp] theorem State.modDepot_power (s : State) (d : Nat) (f : Depot → Depot) : (s.modDepot d f).power = s.power := rfl
@[simp] theorem State.modDepot_recov (s : State) (d : Nat) (f : Depot → Depot) : (s.modDepot d f).recov = s.recov := rfl
@[simp] theorem State.modDepot_sec (s : State) (d : Nat) (f : Depot → Depot) : (s.modDepot d f).sec = s.sec := rfl
@[simp] theorem State.modDepot_image (s : State) (d : Nat) (f : Depot → Depot) : (s.modDepot d f).image = s.image := rfl
@[simp] theorem State.modDepot_tileMap (s : State) (d : Nat) (f : Depot → Depot) : (s.modDepot d f).tileMap = s.tileMap := rfl
@[simp] theorem State.modDepot_loadCode (s : State) (d : Nat) (f : Depot → Depot) : (s.modDepot d f).loadCode = s.loadCode := rfl
@[simp] theorem State.modDepot_loadWhere (s : State) (d : Nat) (f : Depot → Depot) : (s.modDepot d f).loadWhere = s.loadWhere := rfl
@[simp] theorem State.modDepot_base (s : State) (d : Nat) (f : Depot → Depot) : (s.modDepot d f).base = s.base := rfl
@[simp] theorem State.modDepot_tether (s : State) (d : Nat) (f : Depot → Depot) : (s.modDepot d f).tether = s.tether := rfl
@[simp] theorem State.modDepot_hports (s : State) (d : Nat) (f : Depot → Depot) : (s.modDepot d f).hports = s.hports := rfl
@[simp] theorem State.modDepot_qps (s : State) (d : Nat) (f : Depot → Depot) : (s.modDepot d f).qps = s.qps := rfl
@[simp] theorem State.modDepot_senders (s : State) (d : Nat) (f : Depot → Depot) : (s.modDepot d f).senders = s.senders := rfl
@[simp] theorem State.modDepot_rst (s : State) (d : Nat) (f : Depot → Depot) : (s.modDepot d f).rst = s.rst := rfl
@[simp] theorem State.modDepot_pkg (s : State) (d : Nat) (f : Depot → Depot) : (s.modDepot d f).pkg = s.pkg := rfl
@[simp] theorem State.modDepot_dev (s : State) (d : Nat) (f : Depot → Depot) : (s.modDepot d f).dev = s.dev := rfl
@[simp] theorem State.modDepot_reason (s : State) (d : Nat) (f : Depot → Depot) : (s.modDepot d f).reason = s.reason := rfl
@[simp] theorem State.modDepot_step (s : State) (d : Nat) (f : Depot → Depot) : (s.modDepot d f).step = s.step := rfl
@[simp] theorem State.modDepot_arrived (s : State) (d : Nat) (f : Depot → Depot) : (s.modDepot d f).arrived = s.arrived := rfl
@[simp] theorem State.modDepot_bcTag (s : State) (d : Nat) (f : Depot → Depot) : (s.modDepot d f).bcTag = s.bcTag := rfl
@[simp] theorem State.modDepot_startAt (s : State) (d : Nat) (f : Depot → Depot) : (s.modDepot d f).startAt = s.startAt := rfl
@[simp] theorem State.modDepot_rowsDue (s : State) (d : Nat) (f : Depot → Depot) : (s.modDepot d f).rowsDue = s.rowsDue := rfl
@[simp] theorem State.modDepot_reports (s : State) (d : Nat) (f : Depot → Depot) : (s.modDepot d f).reports = s.reports := rfl
@[simp] theorem State.modDepot_reportsNext (s : State) (d : Nat) (f : Depot → Depot) : (s.modDepot d f).reportsNext = s.reportsNext := rfl
@[simp] theorem State.modDepot_reportsOut (s : State) (d : Nat) (f : Depot → Depot) : (s.modDepot d f).reportsOut = s.reportsOut := rfl
@[simp] theorem State.modDepot_faultsOut (s : State) (d : Nat) (f : Depot → Depot) : (s.modDepot d f).faultsOut = s.faultsOut := rfl
@[simp] theorem State.modDepot_net (s : State) (d : Nat) (f : Depot → Depot) : (s.modDepot d f).net = s.net := rfl
@[simp] theorem State.modDepot_delivered (s : State) (d : Nat) (f : Depot → Depot) : (s.modDepot d f).delivered = s.delivered := rfl
@[simp] theorem State.modDepot_stepReleases (s : State) (d : Nat) (f : Depot → Depot) : (s.modDepot d f).stepReleases = s.stepReleases := rfl
@[simp] theorem State.modDepot_freeCtr (s : State) (d : Nat) (f : Depot → Depot) : (s.modDepot d f).freeCtr = s.freeCtr := rfl
@[simp] theorem State.modDepot_out (s : State) (d : Nat) (f : Depot → Depot) : (s.modDepot d f).out = s.out := rfl
@[simp] theorem State.modDepot_pending (s : State) (d : Nat) (f : Depot → Depot) : (s.modDepot d f).pending = s.pending := rfl

/-! ### modStack -/

@[simp] theorem State.modStack_fuses (s : State) (d k : Nat) (f : Stack → Stack) : (s.modStack d k f).fuses = s.fuses := rfl
@[simp] theorem State.modStack_tiles (s : State) (d k : Nat) (f : Stack → Stack) : (s.modStack d k f).tiles = s.tiles := rfl
@[simp] theorem State.modStack_rows (s : State) (d k : Nat) (f : Stack → Stack) : (s.modStack d k f).rows = s.rows := rfl
@[simp] theorem State.modStack_bqs (s : State) (d k : Nat) (f : Stack → Stack) : (s.modStack d k f).bqs = s.bqs := rfl
@[simp] theorem State.modStack_eps (s : State) (d k : Nat) (f : Stack → Stack) : (s.modStack d k f).eps = s.eps := rfl
@[simp] theorem State.modStack_gs (s : State) (d k : Nat) (f : Stack → Stack) : (s.modStack d k f).gs = s.gs := rfl
@[simp] theorem State.modStack_sigDiscards (s : State) (d k : Nat) (f : Stack → Stack) : (s.modStack d k f).sigDiscards = s.sigDiscards := rfl
@[simp] theorem State.modStack_hbm (s : State) (d k : Nat) (f : Stack → Stack) : (s.modStack d k f).hbm = s.hbm := rfl
@[simp] theorem State.modStack_reds (s : State) (d k : Nat) (f : Stack → Stack) : (s.modStack d k f).reds = s.reds := rfl
@[simp] theorem State.modStack_redSeq (s : State) (d k : Nat) (f : Stack → Stack) : (s.modStack d k f).redSeq = s.redSeq := rfl
@[simp] theorem State.modStack_redBlocks (s : State) (d k : Nat) (f : Stack → Stack) : (s.modStack d k f).redBlocks = s.redBlocks := rfl
@[simp] theorem State.modStack_redHeld (s : State) (d k : Nat) (f : Stack → Stack) : (s.modStack d k f).redHeld = s.redHeld := rfl
@[simp] theorem State.modStack_outputs (s : State) (d k : Nat) (f : Stack → Stack) : (s.modStack d k f).outputs = s.outputs := rfl
@[simp] theorem State.modStack_upds (s : State) (d k : Nat) (f : Stack → Stack) : (s.modStack d k f).upds = s.upds := rfl
@[simp] theorem State.modStack_groups (s : State) (d k : Nat) (f : Stack → Stack) : (s.modStack d k f).groups = s.groups := rfl
@[simp] theorem State.modStack_scheds (s : State) (d k : Nat) (f : Stack → Stack) : (s.modStack d k f).scheds = s.scheds := rfl
@[simp] theorem State.modStack_updDone (s : State) (d k : Nat) (f : Stack → Stack) : (s.modStack d k f).updDone = s.updDone := rfl
@[simp] theorem State.modStack_updTag (s : State) (d k : Nat) (f : Stack → Stack) : (s.modStack d k f).updTag = s.updTag := rfl
@[simp] theorem State.modStack_formats (s : State) (d k : Nat) (f : Stack → Stack) : (s.modStack d k f).formats = s.formats := rfl
@[simp] theorem State.modStack_cv (s : State) (d k : Nat) (f : Stack → Stack) : (s.modStack d k f).cv = s.cv := rfl
@[simp] theorem State.modStack_ports (s : State) (d k : Nat) (f : Stack → Stack) : (s.modStack d k f).ports = s.ports := rfl
@[simp] theorem State.modStack_chipmap (s : State) (d k : Nat) (f : Stack → Stack) : (s.modStack d k f).chipmap = s.chipmap := rfl
@[simp] theorem State.modStack_clock (s : State) (d k : Nat) (f : Stack → Stack) : (s.modStack d k f).clock = s.clock := rfl
@[simp] theorem State.modStack_power (s : State) (d k : Nat) (f : Stack → Stack) : (s.modStack d k f).power = s.power := rfl
@[simp] theorem State.modStack_recov (s : State) (d k : Nat) (f : Stack → Stack) : (s.modStack d k f).recov = s.recov := rfl
@[simp] theorem State.modStack_sec (s : State) (d k : Nat) (f : Stack → Stack) : (s.modStack d k f).sec = s.sec := rfl
@[simp] theorem State.modStack_image (s : State) (d k : Nat) (f : Stack → Stack) : (s.modStack d k f).image = s.image := rfl
@[simp] theorem State.modStack_tileMap (s : State) (d k : Nat) (f : Stack → Stack) : (s.modStack d k f).tileMap = s.tileMap := rfl
@[simp] theorem State.modStack_loadCode (s : State) (d k : Nat) (f : Stack → Stack) : (s.modStack d k f).loadCode = s.loadCode := rfl
@[simp] theorem State.modStack_loadWhere (s : State) (d k : Nat) (f : Stack → Stack) : (s.modStack d k f).loadWhere = s.loadWhere := rfl
@[simp] theorem State.modStack_base (s : State) (d k : Nat) (f : Stack → Stack) : (s.modStack d k f).base = s.base := rfl
@[simp] theorem State.modStack_tether (s : State) (d k : Nat) (f : Stack → Stack) : (s.modStack d k f).tether = s.tether := rfl
@[simp] theorem State.modStack_hports (s : State) (d k : Nat) (f : Stack → Stack) : (s.modStack d k f).hports = s.hports := rfl
@[simp] theorem State.modStack_qps (s : State) (d k : Nat) (f : Stack → Stack) : (s.modStack d k f).qps = s.qps := rfl
@[simp] theorem State.modStack_senders (s : State) (d k : Nat) (f : Stack → Stack) : (s.modStack d k f).senders = s.senders := rfl
@[simp] theorem State.modStack_rst (s : State) (d k : Nat) (f : Stack → Stack) : (s.modStack d k f).rst = s.rst := rfl
@[simp] theorem State.modStack_pkg (s : State) (d k : Nat) (f : Stack → Stack) : (s.modStack d k f).pkg = s.pkg := rfl
@[simp] theorem State.modStack_dev (s : State) (d k : Nat) (f : Stack → Stack) : (s.modStack d k f).dev = s.dev := rfl
@[simp] theorem State.modStack_reason (s : State) (d k : Nat) (f : Stack → Stack) : (s.modStack d k f).reason = s.reason := rfl
@[simp] theorem State.modStack_step (s : State) (d k : Nat) (f : Stack → Stack) : (s.modStack d k f).step = s.step := rfl
@[simp] theorem State.modStack_arrived (s : State) (d k : Nat) (f : Stack → Stack) : (s.modStack d k f).arrived = s.arrived := rfl
@[simp] theorem State.modStack_bcTag (s : State) (d k : Nat) (f : Stack → Stack) : (s.modStack d k f).bcTag = s.bcTag := rfl
@[simp] theorem State.modStack_startAt (s : State) (d k : Nat) (f : Stack → Stack) : (s.modStack d k f).startAt = s.startAt := rfl
@[simp] theorem State.modStack_rowsDue (s : State) (d k : Nat) (f : Stack → Stack) : (s.modStack d k f).rowsDue = s.rowsDue := rfl
@[simp] theorem State.modStack_reports (s : State) (d k : Nat) (f : Stack → Stack) : (s.modStack d k f).reports = s.reports := rfl
@[simp] theorem State.modStack_reportsNext (s : State) (d k : Nat) (f : Stack → Stack) : (s.modStack d k f).reportsNext = s.reportsNext := rfl
@[simp] theorem State.modStack_reportsOut (s : State) (d k : Nat) (f : Stack → Stack) : (s.modStack d k f).reportsOut = s.reportsOut := rfl
@[simp] theorem State.modStack_faultsOut (s : State) (d k : Nat) (f : Stack → Stack) : (s.modStack d k f).faultsOut = s.faultsOut := rfl
@[simp] theorem State.modStack_net (s : State) (d k : Nat) (f : Stack → Stack) : (s.modStack d k f).net = s.net := rfl
@[simp] theorem State.modStack_delivered (s : State) (d k : Nat) (f : Stack → Stack) : (s.modStack d k f).delivered = s.delivered := rfl
@[simp] theorem State.modStack_stepReleases (s : State) (d k : Nat) (f : Stack → Stack) : (s.modStack d k f).stepReleases = s.stepReleases := rfl
@[simp] theorem State.modStack_freeCtr (s : State) (d k : Nat) (f : Stack → Stack) : (s.modStack d k f).freeCtr = s.freeCtr := rfl
@[simp] theorem State.modStack_out (s : State) (d k : Nat) (f : Stack → Stack) : (s.modStack d k f).out = s.out := rfl
@[simp] theorem State.modStack_pending (s : State) (d k : Nat) (f : Stack → Stack) : (s.modStack d k f).pending = s.pending := rfl

/-! ### modPort -/

@[simp] theorem State.modPort_fuses (s : State) (p : Nat) (f : CvPort → CvPort) : (s.modPort p f).fuses = s.fuses := rfl
@[simp] theorem State.modPort_tiles (s : State) (p : Nat) (f : CvPort → CvPort) : (s.modPort p f).tiles = s.tiles := rfl
@[simp] theorem State.modPort_rows (s : State) (p : Nat) (f : CvPort → CvPort) : (s.modPort p f).rows = s.rows := rfl
@[simp] theorem State.modPort_bqs (s : State) (p : Nat) (f : CvPort → CvPort) : (s.modPort p f).bqs = s.bqs := rfl
@[simp] theorem State.modPort_eps (s : State) (p : Nat) (f : CvPort → CvPort) : (s.modPort p f).eps = s.eps := rfl
@[simp] theorem State.modPort_gs (s : State) (p : Nat) (f : CvPort → CvPort) : (s.modPort p f).gs = s.gs := rfl
@[simp] theorem State.modPort_sigDiscards (s : State) (p : Nat) (f : CvPort → CvPort) : (s.modPort p f).sigDiscards = s.sigDiscards := rfl
@[simp] theorem State.modPort_hbm (s : State) (p : Nat) (f : CvPort → CvPort) : (s.modPort p f).hbm = s.hbm := rfl
@[simp] theorem State.modPort_depots (s : State) (p : Nat) (f : CvPort → CvPort) : (s.modPort p f).depots = s.depots := rfl
@[simp] theorem State.modPort_reds (s : State) (p : Nat) (f : CvPort → CvPort) : (s.modPort p f).reds = s.reds := rfl
@[simp] theorem State.modPort_redSeq (s : State) (p : Nat) (f : CvPort → CvPort) : (s.modPort p f).redSeq = s.redSeq := rfl
@[simp] theorem State.modPort_redBlocks (s : State) (p : Nat) (f : CvPort → CvPort) : (s.modPort p f).redBlocks = s.redBlocks := rfl
@[simp] theorem State.modPort_redHeld (s : State) (p : Nat) (f : CvPort → CvPort) : (s.modPort p f).redHeld = s.redHeld := rfl
@[simp] theorem State.modPort_outputs (s : State) (p : Nat) (f : CvPort → CvPort) : (s.modPort p f).outputs = s.outputs := rfl
@[simp] theorem State.modPort_upds (s : State) (p : Nat) (f : CvPort → CvPort) : (s.modPort p f).upds = s.upds := rfl
@[simp] theorem State.modPort_groups (s : State) (p : Nat) (f : CvPort → CvPort) : (s.modPort p f).groups = s.groups := rfl
@[simp] theorem State.modPort_scheds (s : State) (p : Nat) (f : CvPort → CvPort) : (s.modPort p f).scheds = s.scheds := rfl
@[simp] theorem State.modPort_updDone (s : State) (p : Nat) (f : CvPort → CvPort) : (s.modPort p f).updDone = s.updDone := rfl
@[simp] theorem State.modPort_updTag (s : State) (p : Nat) (f : CvPort → CvPort) : (s.modPort p f).updTag = s.updTag := rfl
@[simp] theorem State.modPort_formats (s : State) (p : Nat) (f : CvPort → CvPort) : (s.modPort p f).formats = s.formats := rfl
@[simp] theorem State.modPort_cv (s : State) (p : Nat) (f : CvPort → CvPort) : (s.modPort p f).cv = s.cv := rfl
@[simp] theorem State.modPort_ports (s : State) (p : Nat) (f : CvPort → CvPort) : (s.modPort p f).ports = s.ports.set p (f (s.port p)) := rfl
@[simp] theorem State.modPort_chipmap (s : State) (p : Nat) (f : CvPort → CvPort) : (s.modPort p f).chipmap = s.chipmap := rfl
@[simp] theorem State.modPort_clock (s : State) (p : Nat) (f : CvPort → CvPort) : (s.modPort p f).clock = s.clock := rfl
@[simp] theorem State.modPort_power (s : State) (p : Nat) (f : CvPort → CvPort) : (s.modPort p f).power = s.power := rfl
@[simp] theorem State.modPort_recov (s : State) (p : Nat) (f : CvPort → CvPort) : (s.modPort p f).recov = s.recov := rfl
@[simp] theorem State.modPort_sec (s : State) (p : Nat) (f : CvPort → CvPort) : (s.modPort p f).sec = s.sec := rfl
@[simp] theorem State.modPort_image (s : State) (p : Nat) (f : CvPort → CvPort) : (s.modPort p f).image = s.image := rfl
@[simp] theorem State.modPort_tileMap (s : State) (p : Nat) (f : CvPort → CvPort) : (s.modPort p f).tileMap = s.tileMap := rfl
@[simp] theorem State.modPort_loadCode (s : State) (p : Nat) (f : CvPort → CvPort) : (s.modPort p f).loadCode = s.loadCode := rfl
@[simp] theorem State.modPort_loadWhere (s : State) (p : Nat) (f : CvPort → CvPort) : (s.modPort p f).loadWhere = s.loadWhere := rfl
@[simp] theorem State.modPort_base (s : State) (p : Nat) (f : CvPort → CvPort) : (s.modPort p f).base = s.base := rfl
@[simp] theorem State.modPort_tether (s : State) (p : Nat) (f : CvPort → CvPort) : (s.modPort p f).tether = s.tether := rfl
@[simp] theorem State.modPort_hports (s : State) (p : Nat) (f : CvPort → CvPort) : (s.modPort p f).hports = s.hports := rfl
@[simp] theorem State.modPort_qps (s : State) (p : Nat) (f : CvPort → CvPort) : (s.modPort p f).qps = s.qps := rfl
@[simp] theorem State.modPort_senders (s : State) (p : Nat) (f : CvPort → CvPort) : (s.modPort p f).senders = s.senders := rfl
@[simp] theorem State.modPort_rst (s : State) (p : Nat) (f : CvPort → CvPort) : (s.modPort p f).rst = s.rst := rfl
@[simp] theorem State.modPort_pkg (s : State) (p : Nat) (f : CvPort → CvPort) : (s.modPort p f).pkg = s.pkg := rfl
@[simp] theorem State.modPort_dev (s : State) (p : Nat) (f : CvPort → CvPort) : (s.modPort p f).dev = s.dev := rfl
@[simp] theorem State.modPort_reason (s : State) (p : Nat) (f : CvPort → CvPort) : (s.modPort p f).reason = s.reason := rfl
@[simp] theorem State.modPort_step (s : State) (p : Nat) (f : CvPort → CvPort) : (s.modPort p f).step = s.step := rfl
@[simp] theorem State.modPort_arrived (s : State) (p : Nat) (f : CvPort → CvPort) : (s.modPort p f).arrived = s.arrived := rfl
@[simp] theorem State.modPort_bcTag (s : State) (p : Nat) (f : CvPort → CvPort) : (s.modPort p f).bcTag = s.bcTag := rfl
@[simp] theorem State.modPort_startAt (s : State) (p : Nat) (f : CvPort → CvPort) : (s.modPort p f).startAt = s.startAt := rfl
@[simp] theorem State.modPort_rowsDue (s : State) (p : Nat) (f : CvPort → CvPort) : (s.modPort p f).rowsDue = s.rowsDue := rfl
@[simp] theorem State.modPort_reports (s : State) (p : Nat) (f : CvPort → CvPort) : (s.modPort p f).reports = s.reports := rfl
@[simp] theorem State.modPort_reportsNext (s : State) (p : Nat) (f : CvPort → CvPort) : (s.modPort p f).reportsNext = s.reportsNext := rfl
@[simp] theorem State.modPort_reportsOut (s : State) (p : Nat) (f : CvPort → CvPort) : (s.modPort p f).reportsOut = s.reportsOut := rfl
@[simp] theorem State.modPort_faultsOut (s : State) (p : Nat) (f : CvPort → CvPort) : (s.modPort p f).faultsOut = s.faultsOut := rfl
@[simp] theorem State.modPort_net (s : State) (p : Nat) (f : CvPort → CvPort) : (s.modPort p f).net = s.net := rfl
@[simp] theorem State.modPort_delivered (s : State) (p : Nat) (f : CvPort → CvPort) : (s.modPort p f).delivered = s.delivered := rfl
@[simp] theorem State.modPort_stepReleases (s : State) (p : Nat) (f : CvPort → CvPort) : (s.modPort p f).stepReleases = s.stepReleases := rfl
@[simp] theorem State.modPort_freeCtr (s : State) (p : Nat) (f : CvPort → CvPort) : (s.modPort p f).freeCtr = s.freeCtr := rfl
@[simp] theorem State.modPort_out (s : State) (p : Nat) (f : CvPort → CvPort) : (s.modPort p f).out = s.out := rfl
@[simp] theorem State.modPort_pending (s : State) (p : Nat) (f : CvPort → CvPort) : (s.modPort p f).pending = s.pending := rfl

/-! ### modHport -/

@[simp] theorem State.modHport_fuses (s : State) (h : Nat) (f : HPort → HPort) : (s.modHport h f).fuses = s.fuses := rfl
@[simp] theorem State.modHport_tiles (s : State) (h : Nat) (f : HPort → HPort) : (s.modHport h f).tiles = s.tiles := rfl
@[simp] theorem State.modHport_rows (s : State) (h : Nat) (f : HPort → HPort) : (s.modHport h f).rows = s.rows := rfl
@[simp] theorem State.modHport_bqs (s : State) (h : Nat) (f : HPort → HPort) : (s.modHport h f).bqs = s.bqs := rfl
@[simp] theorem State.modHport_eps (s : State) (h : Nat) (f : HPort → HPort) : (s.modHport h f).eps = s.eps := rfl
@[simp] theorem State.modHport_gs (s : State) (h : Nat) (f : HPort → HPort) : (s.modHport h f).gs = s.gs := rfl
@[simp] theorem State.modHport_sigDiscards (s : State) (h : Nat) (f : HPort → HPort) : (s.modHport h f).sigDiscards = s.sigDiscards := rfl
@[simp] theorem State.modHport_hbm (s : State) (h : Nat) (f : HPort → HPort) : (s.modHport h f).hbm = s.hbm := rfl
@[simp] theorem State.modHport_depots (s : State) (h : Nat) (f : HPort → HPort) : (s.modHport h f).depots = s.depots := rfl
@[simp] theorem State.modHport_reds (s : State) (h : Nat) (f : HPort → HPort) : (s.modHport h f).reds = s.reds := rfl
@[simp] theorem State.modHport_redSeq (s : State) (h : Nat) (f : HPort → HPort) : (s.modHport h f).redSeq = s.redSeq := rfl
@[simp] theorem State.modHport_redBlocks (s : State) (h : Nat) (f : HPort → HPort) : (s.modHport h f).redBlocks = s.redBlocks := rfl
@[simp] theorem State.modHport_redHeld (s : State) (h : Nat) (f : HPort → HPort) : (s.modHport h f).redHeld = s.redHeld := rfl
@[simp] theorem State.modHport_outputs (s : State) (h : Nat) (f : HPort → HPort) : (s.modHport h f).outputs = s.outputs := rfl
@[simp] theorem State.modHport_upds (s : State) (h : Nat) (f : HPort → HPort) : (s.modHport h f).upds = s.upds := rfl
@[simp] theorem State.modHport_groups (s : State) (h : Nat) (f : HPort → HPort) : (s.modHport h f).groups = s.groups := rfl
@[simp] theorem State.modHport_scheds (s : State) (h : Nat) (f : HPort → HPort) : (s.modHport h f).scheds = s.scheds := rfl
@[simp] theorem State.modHport_updDone (s : State) (h : Nat) (f : HPort → HPort) : (s.modHport h f).updDone = s.updDone := rfl
@[simp] theorem State.modHport_updTag (s : State) (h : Nat) (f : HPort → HPort) : (s.modHport h f).updTag = s.updTag := rfl
@[simp] theorem State.modHport_formats (s : State) (h : Nat) (f : HPort → HPort) : (s.modHport h f).formats = s.formats := rfl
@[simp] theorem State.modHport_cv (s : State) (h : Nat) (f : HPort → HPort) : (s.modHport h f).cv = s.cv := rfl
@[simp] theorem State.modHport_ports (s : State) (h : Nat) (f : HPort → HPort) : (s.modHport h f).ports = s.ports := rfl
@[simp] theorem State.modHport_chipmap (s : State) (h : Nat) (f : HPort → HPort) : (s.modHport h f).chipmap = s.chipmap := rfl
@[simp] theorem State.modHport_clock (s : State) (h : Nat) (f : HPort → HPort) : (s.modHport h f).clock = s.clock := rfl
@[simp] theorem State.modHport_power (s : State) (h : Nat) (f : HPort → HPort) : (s.modHport h f).power = s.power := rfl
@[simp] theorem State.modHport_recov (s : State) (h : Nat) (f : HPort → HPort) : (s.modHport h f).recov = s.recov := rfl
@[simp] theorem State.modHport_sec (s : State) (h : Nat) (f : HPort → HPort) : (s.modHport h f).sec = s.sec := rfl
@[simp] theorem State.modHport_image (s : State) (h : Nat) (f : HPort → HPort) : (s.modHport h f).image = s.image := rfl
@[simp] theorem State.modHport_tileMap (s : State) (h : Nat) (f : HPort → HPort) : (s.modHport h f).tileMap = s.tileMap := rfl
@[simp] theorem State.modHport_loadCode (s : State) (h : Nat) (f : HPort → HPort) : (s.modHport h f).loadCode = s.loadCode := rfl
@[simp] theorem State.modHport_loadWhere (s : State) (h : Nat) (f : HPort → HPort) : (s.modHport h f).loadWhere = s.loadWhere := rfl
@[simp] theorem State.modHport_base (s : State) (h : Nat) (f : HPort → HPort) : (s.modHport h f).base = s.base := rfl
@[simp] theorem State.modHport_tether (s : State) (h : Nat) (f : HPort → HPort) : (s.modHport h f).tether = s.tether := rfl
@[simp] theorem State.modHport_hports (s : State) (h : Nat) (f : HPort → HPort) : (s.modHport h f).hports = s.hports.set h (f (s.hport h)) := rfl
@[simp] theorem State.modHport_qps (s : State) (h : Nat) (f : HPort → HPort) : (s.modHport h f).qps = s.qps := rfl
@[simp] theorem State.modHport_senders (s : State) (h : Nat) (f : HPort → HPort) : (s.modHport h f).senders = s.senders := rfl
@[simp] theorem State.modHport_rst (s : State) (h : Nat) (f : HPort → HPort) : (s.modHport h f).rst = s.rst := rfl
@[simp] theorem State.modHport_pkg (s : State) (h : Nat) (f : HPort → HPort) : (s.modHport h f).pkg = s.pkg := rfl
@[simp] theorem State.modHport_dev (s : State) (h : Nat) (f : HPort → HPort) : (s.modHport h f).dev = s.dev := rfl
@[simp] theorem State.modHport_reason (s : State) (h : Nat) (f : HPort → HPort) : (s.modHport h f).reason = s.reason := rfl
@[simp] theorem State.modHport_step (s : State) (h : Nat) (f : HPort → HPort) : (s.modHport h f).step = s.step := rfl
@[simp] theorem State.modHport_arrived (s : State) (h : Nat) (f : HPort → HPort) : (s.modHport h f).arrived = s.arrived := rfl
@[simp] theorem State.modHport_bcTag (s : State) (h : Nat) (f : HPort → HPort) : (s.modHport h f).bcTag = s.bcTag := rfl
@[simp] theorem State.modHport_startAt (s : State) (h : Nat) (f : HPort → HPort) : (s.modHport h f).startAt = s.startAt := rfl
@[simp] theorem State.modHport_rowsDue (s : State) (h : Nat) (f : HPort → HPort) : (s.modHport h f).rowsDue = s.rowsDue := rfl
@[simp] theorem State.modHport_reports (s : State) (h : Nat) (f : HPort → HPort) : (s.modHport h f).reports = s.reports := rfl
@[simp] theorem State.modHport_reportsNext (s : State) (h : Nat) (f : HPort → HPort) : (s.modHport h f).reportsNext = s.reportsNext := rfl
@[simp] theorem State.modHport_reportsOut (s : State) (h : Nat) (f : HPort → HPort) : (s.modHport h f).reportsOut = s.reportsOut := rfl
@[simp] theorem State.modHport_faultsOut (s : State) (h : Nat) (f : HPort → HPort) : (s.modHport h f).faultsOut = s.faultsOut := rfl
@[simp] theorem State.modHport_net (s : State) (h : Nat) (f : HPort → HPort) : (s.modHport h f).net = s.net := rfl
@[simp] theorem State.modHport_delivered (s : State) (h : Nat) (f : HPort → HPort) : (s.modHport h f).delivered = s.delivered := rfl
@[simp] theorem State.modHport_stepReleases (s : State) (h : Nat) (f : HPort → HPort) : (s.modHport h f).stepReleases = s.stepReleases := rfl
@[simp] theorem State.modHport_freeCtr (s : State) (h : Nat) (f : HPort → HPort) : (s.modHport h f).freeCtr = s.freeCtr := rfl
@[simp] theorem State.modHport_out (s : State) (h : Nat) (f : HPort → HPort) : (s.modHport h f).out = s.out := rfl
@[simp] theorem State.modHport_pending (s : State) (h : Nat) (f : HPort → HPort) : (s.modHport h f).pending = s.pending := rfl

/-! ### land -/

@[simp] theorem State.land_fuses (s : State) (p : NetPkt) : (s.land p).fuses = s.fuses := rfl
@[simp] theorem State.land_tiles (s : State) (p : NetPkt) : (s.land p).tiles = s.tiles := rfl
@[simp] theorem State.land_rows (s : State) (p : NetPkt) : (s.land p).rows = s.rows := rfl
@[simp] theorem State.land_bqs (s : State) (p : NetPkt) : (s.land p).bqs = s.bqs := rfl
@[simp] theorem State.land_eps (s : State) (p : NetPkt) : (s.land p).eps = s.eps := rfl
@[simp] theorem State.land_gs (s : State) (p : NetPkt) : (s.land p).gs = s.gs := rfl
@[simp] theorem State.land_sigDiscards (s : State) (p : NetPkt) : (s.land p).sigDiscards = s.sigDiscards := rfl
@[simp] theorem State.land_hbm (s : State) (p : NetPkt) : (s.land p).hbm = s.hbm := rfl
@[simp] theorem State.land_depots (s : State) (p : NetPkt) : (s.land p).depots = s.depots := rfl
@[simp] theorem State.land_reds (s : State) (p : NetPkt) : (s.land p).reds = s.reds := rfl
@[simp] theorem State.land_redSeq (s : State) (p : NetPkt) : (s.land p).redSeq = s.redSeq := rfl
@[simp] theorem State.land_redBlocks (s : State) (p : NetPkt) : (s.land p).redBlocks = s.redBlocks := rfl
@[simp] theorem State.land_redHeld (s : State) (p : NetPkt) : (s.land p).redHeld = s.redHeld := rfl
@[simp] theorem State.land_outputs (s : State) (p : NetPkt) : (s.land p).outputs = s.outputs := rfl
@[simp] theorem State.land_upds (s : State) (p : NetPkt) : (s.land p).upds = s.upds := rfl
@[simp] theorem State.land_groups (s : State) (p : NetPkt) : (s.land p).groups = s.groups := rfl
@[simp] theorem State.land_scheds (s : State) (p : NetPkt) : (s.land p).scheds = s.scheds := rfl
@[simp] theorem State.land_updDone (s : State) (p : NetPkt) : (s.land p).updDone = s.updDone := rfl
@[simp] theorem State.land_updTag (s : State) (p : NetPkt) : (s.land p).updTag = s.updTag := rfl
@[simp] theorem State.land_formats (s : State) (p : NetPkt) : (s.land p).formats = s.formats := rfl
@[simp] theorem State.land_cv (s : State) (p : NetPkt) : (s.land p).cv = s.cv := rfl
@[simp] theorem State.land_ports (s : State) (p : NetPkt) : (s.land p).ports = s.ports := rfl
@[simp] theorem State.land_chipmap (s : State) (p : NetPkt) : (s.land p).chipmap = s.chipmap := rfl
@[simp] theorem State.land_clock (s : State) (p : NetPkt) : (s.land p).clock = s.clock := rfl
@[simp] theorem State.land_power (s : State) (p : NetPkt) : (s.land p).power = s.power := rfl
@[simp] theorem State.land_recov (s : State) (p : NetPkt) : (s.land p).recov = s.recov := rfl
@[simp] theorem State.land_sec (s : State) (p : NetPkt) : (s.land p).sec = s.sec := rfl
@[simp] theorem State.land_image (s : State) (p : NetPkt) : (s.land p).image = s.image := rfl
@[simp] theorem State.land_tileMap (s : State) (p : NetPkt) : (s.land p).tileMap = s.tileMap := rfl
@[simp] theorem State.land_loadCode (s : State) (p : NetPkt) : (s.land p).loadCode = s.loadCode := rfl
@[simp] theorem State.land_loadWhere (s : State) (p : NetPkt) : (s.land p).loadWhere = s.loadWhere := rfl
@[simp] theorem State.land_base (s : State) (p : NetPkt) : (s.land p).base = s.base := rfl
@[simp] theorem State.land_tether (s : State) (p : NetPkt) : (s.land p).tether = s.tether := rfl
@[simp] theorem State.land_hports (s : State) (p : NetPkt) : (s.land p).hports = s.hports := rfl
@[simp] theorem State.land_qps (s : State) (p : NetPkt) : (s.land p).qps = s.qps := rfl
@[simp] theorem State.land_senders (s : State) (p : NetPkt) : (s.land p).senders = s.senders := rfl
@[simp] theorem State.land_rst (s : State) (p : NetPkt) : (s.land p).rst = s.rst := rfl
@[simp] theorem State.land_pkg (s : State) (p : NetPkt) : (s.land p).pkg = s.pkg := rfl
@[simp] theorem State.land_dev (s : State) (p : NetPkt) : (s.land p).dev = s.dev := rfl
@[simp] theorem State.land_reason (s : State) (p : NetPkt) : (s.land p).reason = s.reason := rfl
@[simp] theorem State.land_step (s : State) (p : NetPkt) : (s.land p).step = s.step := rfl
@[simp] theorem State.land_arrived (s : State) (p : NetPkt) : (s.land p).arrived = s.arrived := rfl
@[simp] theorem State.land_bcTag (s : State) (p : NetPkt) : (s.land p).bcTag = s.bcTag := rfl
@[simp] theorem State.land_startAt (s : State) (p : NetPkt) : (s.land p).startAt = s.startAt := rfl
@[simp] theorem State.land_rowsDue (s : State) (p : NetPkt) : (s.land p).rowsDue = s.rowsDue := rfl
@[simp] theorem State.land_reports (s : State) (p : NetPkt) : (s.land p).reports = s.reports := rfl
@[simp] theorem State.land_reportsNext (s : State) (p : NetPkt) : (s.land p).reportsNext = s.reportsNext := rfl
@[simp] theorem State.land_reportsOut (s : State) (p : NetPkt) : (s.land p).reportsOut = s.reportsOut := rfl
@[simp] theorem State.land_faultsOut (s : State) (p : NetPkt) : (s.land p).faultsOut = s.faultsOut := rfl
@[simp] theorem State.land_net (s : State) (p : NetPkt) : (s.land p).net = s.net.erase p := rfl
@[simp] theorem State.land_delivered (s : State) (p : NetPkt) : (s.land p).delivered = s.delivered := rfl
@[simp] theorem State.land_stepReleases (s : State) (p : NetPkt) : (s.land p).stepReleases = s.stepReleases := rfl
@[simp] theorem State.land_freeCtr (s : State) (p : NetPkt) : (s.land p).freeCtr = s.freeCtr := rfl
@[simp] theorem State.land_out (s : State) (p : NetPkt) : (s.land p).out = s.out := rfl
@[simp] theorem State.land_pending (s : State) (p : NetPkt) : (s.land p).pending = s.pending := rfl

/-! ### took -/

@[simp] theorem State.took_fuses (s : State) (f : Rec → Bool) : (s.took f).fuses = s.fuses := rfl
@[simp] theorem State.took_tiles (s : State) (f : Rec → Bool) : (s.took f).tiles = s.tiles := rfl
@[simp] theorem State.took_rows (s : State) (f : Rec → Bool) : (s.took f).rows = s.rows := rfl
@[simp] theorem State.took_bqs (s : State) (f : Rec → Bool) : (s.took f).bqs = s.bqs := rfl
@[simp] theorem State.took_eps (s : State) (f : Rec → Bool) : (s.took f).eps = s.eps := rfl
@[simp] theorem State.took_gs (s : State) (f : Rec → Bool) : (s.took f).gs = s.gs := rfl
@[simp] theorem State.took_sigDiscards (s : State) (f : Rec → Bool) : (s.took f).sigDiscards = s.sigDiscards := rfl
@[simp] theorem State.took_hbm (s : State) (f : Rec → Bool) : (s.took f).hbm = s.hbm := rfl
@[simp] theorem State.took_depots (s : State) (f : Rec → Bool) : (s.took f).depots = s.depots := rfl
@[simp] theorem State.took_reds (s : State) (f : Rec → Bool) : (s.took f).reds = s.reds := rfl
@[simp] theorem State.took_redSeq (s : State) (f : Rec → Bool) : (s.took f).redSeq = s.redSeq := rfl
@[simp] theorem State.took_redBlocks (s : State) (f : Rec → Bool) : (s.took f).redBlocks = s.redBlocks := rfl
@[simp] theorem State.took_redHeld (s : State) (f : Rec → Bool) : (s.took f).redHeld = s.redHeld := rfl
@[simp] theorem State.took_outputs (s : State) (f : Rec → Bool) : (s.took f).outputs = s.outputs := rfl
@[simp] theorem State.took_upds (s : State) (f : Rec → Bool) : (s.took f).upds = s.upds := rfl
@[simp] theorem State.took_groups (s : State) (f : Rec → Bool) : (s.took f).groups = s.groups := rfl
@[simp] theorem State.took_scheds (s : State) (f : Rec → Bool) : (s.took f).scheds = s.scheds := rfl
@[simp] theorem State.took_updDone (s : State) (f : Rec → Bool) : (s.took f).updDone = s.updDone := rfl
@[simp] theorem State.took_updTag (s : State) (f : Rec → Bool) : (s.took f).updTag = s.updTag := rfl
@[simp] theorem State.took_formats (s : State) (f : Rec → Bool) : (s.took f).formats = s.formats := rfl
@[simp] theorem State.took_cv (s : State) (f : Rec → Bool) : (s.took f).cv = s.cv := rfl
@[simp] theorem State.took_ports (s : State) (f : Rec → Bool) : (s.took f).ports = s.ports := rfl
@[simp] theorem State.took_chipmap (s : State) (f : Rec → Bool) : (s.took f).chipmap = s.chipmap := rfl
@[simp] theorem State.took_clock (s : State) (f : Rec → Bool) : (s.took f).clock = s.clock := rfl
@[simp] theorem State.took_power (s : State) (f : Rec → Bool) : (s.took f).power = s.power := rfl
@[simp] theorem State.took_recov (s : State) (f : Rec → Bool) : (s.took f).recov = s.recov := rfl
@[simp] theorem State.took_sec (s : State) (f : Rec → Bool) : (s.took f).sec = s.sec := rfl
@[simp] theorem State.took_image (s : State) (f : Rec → Bool) : (s.took f).image = s.image := rfl
@[simp] theorem State.took_tileMap (s : State) (f : Rec → Bool) : (s.took f).tileMap = s.tileMap := rfl
@[simp] theorem State.took_loadCode (s : State) (f : Rec → Bool) : (s.took f).loadCode = s.loadCode := rfl
@[simp] theorem State.took_loadWhere (s : State) (f : Rec → Bool) : (s.took f).loadWhere = s.loadWhere := rfl
@[simp] theorem State.took_base (s : State) (f : Rec → Bool) : (s.took f).base = s.base := rfl
@[simp] theorem State.took_tether (s : State) (f : Rec → Bool) : (s.took f).tether = s.tether := rfl
@[simp] theorem State.took_hports (s : State) (f : Rec → Bool) : (s.took f).hports = s.hports := rfl
@[simp] theorem State.took_qps (s : State) (f : Rec → Bool) : (s.took f).qps = s.qps := rfl
@[simp] theorem State.took_senders (s : State) (f : Rec → Bool) : (s.took f).senders = s.senders := rfl
@[simp] theorem State.took_rst (s : State) (f : Rec → Bool) : (s.took f).rst = s.rst := rfl
@[simp] theorem State.took_pkg (s : State) (f : Rec → Bool) : (s.took f).pkg = s.pkg := rfl
@[simp] theorem State.took_dev (s : State) (f : Rec → Bool) : (s.took f).dev = s.dev := rfl
@[simp] theorem State.took_reason (s : State) (f : Rec → Bool) : (s.took f).reason = s.reason := rfl
@[simp] theorem State.took_step (s : State) (f : Rec → Bool) : (s.took f).step = s.step := rfl
@[simp] theorem State.took_arrived (s : State) (f : Rec → Bool) : (s.took f).arrived = s.arrived := rfl
@[simp] theorem State.took_bcTag (s : State) (f : Rec → Bool) : (s.took f).bcTag = s.bcTag := rfl
@[simp] theorem State.took_startAt (s : State) (f : Rec → Bool) : (s.took f).startAt = s.startAt := rfl
@[simp] theorem State.took_rowsDue (s : State) (f : Rec → Bool) : (s.took f).rowsDue = s.rowsDue := rfl
@[simp] theorem State.took_reports (s : State) (f : Rec → Bool) : (s.took f).reports = s.reports := rfl
@[simp] theorem State.took_reportsNext (s : State) (f : Rec → Bool) : (s.took f).reportsNext = s.reportsNext := rfl
@[simp] theorem State.took_reportsOut (s : State) (f : Rec → Bool) : (s.took f).reportsOut = s.reportsOut := rfl
@[simp] theorem State.took_faultsOut (s : State) (f : Rec → Bool) : (s.took f).faultsOut = s.faultsOut := rfl
@[simp] theorem State.took_net (s : State) (f : Rec → Bool) : (s.took f).net = s.net := rfl
@[simp] theorem State.took_stepReleases (s : State) (f : Rec → Bool) : (s.took f).stepReleases = s.stepReleases := rfl
@[simp] theorem State.took_freeCtr (s : State) (f : Rec → Bool) : (s.took f).freeCtr = s.freeCtr := rfl
@[simp] theorem State.took_out (s : State) (f : Rec → Bool) : (s.took f).out = s.out := rfl
@[simp] theorem State.took_pending (s : State) (f : Rec → Bool) : (s.took f).pending = s.pending := rfl

/-! ### A tile: fly, flags and take -/

@[simp] theorem Tile.fly_st (t : Tile) (lat : Nat) (e : Effect) : (t.fly lat e).st = t.st := rfl
@[simp] theorem Tile.fly_ctrlPoison (t : Tile) (lat : Nat) (e : Effect) : (t.fly lat e).ctrlPoison = t.ctrlPoison := rfl
@[simp] theorem Tile.fly_imemParity (t : Tile) (lat : Nat) (e : Effect) : (t.fly lat e).imemParity = t.imemParity := rfl
@[simp] theorem Tile.fly_old (t : Tile) (lat : Nat) (e : Effect) : (t.fly lat e).old = t.old := rfl
@[simp] theorem Tile.fly_half (t : Tile) (lat : Nat) (e : Effect) : (t.fly lat e).half = t.half := rfl
@[simp] theorem Tile.fly_pc (t : Tile) (lat : Nat) (e : Effect) : (t.fly lat e).pc = t.pc := rfl
@[simp] theorem Tile.fly_lastPc (t : Tile) (lat : Nat) (e : Effect) : (t.fly lat e).lastPc = t.lastPc := rfl
@[simp] theorem Tile.fly_ctl (t : Tile) (lat : Nat) (e : Effect) : (t.fly lat e).ctl = t.ctl := rfl
@[simp] theorem Tile.fly_bubble (t : Tile) (lat : Nat) (e : Effect) : (t.fly lat e).bubble = t.bubble := rfl
@[simp] theorem Tile.fly_used (t : Tile) (lat : Nat) (e : Effect) : (t.fly lat e).used = t.used := rfl
@[simp] theorem Tile.fly_loops (t : Tile) (lat : Nat) (e : Effect) : (t.fly lat e).loops = t.loops := rfl
@[simp] theorem Tile.fly_cyc (t : Tile) (lat : Nat) (e : Effect) : (t.fly lat e).cyc = t.cyc := rfl
@[simp] theorem Tile.fly_flight (t : Tile) (lat : Nat) (e : Effect) : (t.fly lat e).flight = t.flight ++ [⟨t.cyc + lat, e⟩] := rfl
@[simp] theorem Tile.fly_reqR (t : Tile) (lat : Nat) (e : Effect) : (t.fly lat e).reqR = t.reqR := rfl
@[simp] theorem Tile.fly_reqW (t : Tile) (lat : Nat) (e : Effect) : (t.fly lat e).reqW = t.reqW := rfl
@[simp] theorem Tile.fly_bankHold (t : Tile) (lat : Nat) (e : Effect) : (t.fly lat e).bankHold = t.bankHold := rfl
@[simp] theorem Tile.fly_bHold (t : Tile) (lat : Nat) (e : Effect) : (t.fly lat e).bHold = t.bHold := rfl
@[simp] theorem Tile.fly_holdBank (t : Tile) (lat : Nat) (e : Effect) : (t.fly lat e).holdBank = t.holdBank := rfl
@[simp] theorem Tile.fly_holdWait (t : Tile) (lat : Nat) (e : Effect) : (t.fly lat e).holdWait = t.holdWait := rfl
@[simp] theorem Tile.fly_holdBoundary (t : Tile) (lat : Nat) (e : Effect) : (t.fly lat e).holdBoundary = t.holdBoundary := rfl
@[simp] theorem Tile.fly_slipStep (t : Tile) (lat : Nat) (e : Effect) : (t.fly lat e).slipStep = t.slipStep := rfl
@[simp] theorem Tile.fly_slipBase (t : Tile) (lat : Nat) (e : Effect) : (t.fly lat e).slipBase = t.slipBase := rfl
@[simp] theorem Tile.fly_winStreams (t : Tile) (lat : Nat) (e : Effect) : (t.fly lat e).winStreams = t.winStreams := rfl
@[simp] theorem Tile.fly_winChains (t : Tile) (lat : Nat) (e : Effect) : (t.fly lat e).winChains = t.winChains := rfl
@[simp] theorem Tile.fly_g (t : Tile) (lat : Nat) (e : Effect) : (t.fly lat e).g = t.g := rfl
@[simp] theorem Tile.fly_lc (t : Tile) (lat : Nat) (e : Effect) : (t.fly lat e).lc = t.lc := rfl
@[simp] theorem Tile.fly_v (t : Tile) (lat : Nat) (e : Effect) : (t.fly lat e).v = t.v := rfl
@[simp] theorem Tile.fly_k (t : Tile) (lat : Nat) (e : Effect) : (t.fly lat e).k = t.k := rfl
@[simp] theorem Tile.fly_acc (t : Tile) (lat : Nat) (e : Effect) : (t.fly lat e).acc = t.acc := rfl
@[simp] theorem Tile.fly_sb (t : Tile) (lat : Nat) (e : Effect) : (t.fly lat e).sb = t.sb := rfl
@[simp] theorem Tile.fly_fills (t : Tile) (lat : Nat) (e : Effect) : (t.fly lat e).fills = t.fills := rfl
@[simp] theorem Tile.fly_f (t : Tile) (lat : Nat) (e : Effect) : (t.fly lat e).f = t.f := rfl
@[simp] theorem Tile.fly_imem (t : Tile) (lat : Nat) (e : Effect) : (t.fly lat e).imem = t.imem := rfl
@[simp] theorem Tile.fly_imemBad (t : Tile) (lat : Nat) (e : Effect) : (t.fly lat e).imemBad = t.imemBad := rfl
@[simp] theorem Tile.fly_curves (t : Tile) (lat : Nat) (e : Effect) : (t.fly lat e).curves = t.curves := rfl
@[simp] theorem Tile.fly_spad (t : Tile) (lat : Nat) (e : Effect) : (t.fly lat e).spad = t.spad := rfl
@[simp] theorem Tile.fly_arith (t : Tile) (lat : Nat) (e : Effect) : (t.fly lat e).arith = t.arith := rfl
@[simp] theorem Tile.fly_spadParity (t : Tile) (lat : Nat) (e : Effect) : (t.fly lat e).spadParity = t.spadParity := rfl
@[simp] theorem Tile.fly_spadPoisonIn (t : Tile) (lat : Nat) (e : Effect) : (t.fly lat e).spadPoisonIn = t.spadPoisonIn := rfl
@[simp] theorem Tile.fly_errAddrValid (t : Tile) (lat : Nat) (e : Effect) : (t.fly lat e).errAddrValid = t.errAddrValid := rfl
@[simp] theorem Tile.fly_errAddr (t : Tile) (lat : Nat) (e : Effect) : (t.fly lat e).errAddr = t.errAddr := rfl
@[simp] theorem Tile.fly_errNow (t : Tile) (lat : Nat) (e : Effect) : (t.fly lat e).errNow = t.errNow := rfl
@[simp] theorem Tile.fly_hash (t : Tile) (lat : Nat) (e : Effect) : (t.fly lat e).hash = t.hash := rfl
@[simp] theorem Tile.fly_ldq (t : Tile) (lat : Nat) (e : Effect) : (t.fly lat e).ldq = t.ldq := rfl
@[simp] theorem Tile.fly_stq (t : Tile) (lat : Nat) (e : Effect) : (t.fly lat e).stq = t.stq := rfl
@[simp] theorem Tile.fly_engBadDesc (t : Tile) (lat : Nat) (e : Effect) : (t.fly lat e).engBadDesc = t.engBadDesc := rfl
@[simp] theorem Tile.fly_engQovf (t : Tile) (lat : Nat) (e : Effect) : (t.fly lat e).engQovf = t.engQovf := rfl
@[simp] theorem Tile.fly_engNoRoute (t : Tile) (lat : Nat) (e : Effect) : (t.fly lat e).engNoRoute = t.engNoRoute := rfl
@[simp] theorem Tile.fly_engCtrlDiscard (t : Tile) (lat : Nat) (e : Effect) : (t.fly lat e).engCtrlDiscard = t.engCtrlDiscard := rfl
@[simp] theorem Tile.fly_engForeign (t : Tile) (lat : Nat) (e : Effect) : (t.fly lat e).engForeign = t.engForeign := rfl
@[simp] theorem Tile.fly_engLengthClamp (t : Tile) (lat : Nat) (e : Effect) : (t.fly lat e).engLengthClamp = t.engLengthClamp := rfl
@[simp] theorem Tile.fly_engMisalign (t : Tile) (lat : Nat) (e : Effect) : (t.fly lat e).engMisalign = t.engMisalign := rfl
@[simp] theorem Tile.fly_engStray (t : Tile) (lat : Nat) (e : Effect) : (t.fly lat e).engStray = t.engStray := rfl
@[simp] theorem Tile.fly_parityCount (t : Tile) (lat : Nat) (e : Effect) : (t.fly lat e).parityCount = t.parityCount := rfl
@[simp] theorem Tile.fly_ldDone (t : Tile) (lat : Nat) (e : Effect) : (t.fly lat e).ldDone = t.ldDone := rfl
@[simp] theorem Tile.fly_stDone (t : Tile) (lat : Nat) (e : Effect) : (t.fly lat e).stDone = t.stDone := rfl
@[simp] theorem Tile.fly_ldBytes (t : Tile) (lat : Nat) (e : Effect) : (t.fly lat e).ldBytes = t.ldBytes := rfl
@[simp] theorem Tile.fly_stBytes (t : Tile) (lat : Nat) (e : Effect) : (t.fly lat e).stBytes = t.stBytes := rfl
@[simp] theorem Tile.fly_strayRows (t : Tile) (lat : Nat) (e : Effect) : (t.fly lat e).strayRows = t.strayRows := rfl
@[simp] theorem Tile.fly_tollWait (t : Tile) (lat : Nat) (e : Effect) : (t.fly lat e).tollWait = t.tollWait := rfl
@[simp] theorem Tile.fly_inboundBytes (t : Tile) (lat : Nat) (e : Effect) : (t.fly lat e).inboundBytes = t.inboundBytes := rfl
@[simp] theorem Tile.fly_sems (t : Tile) (lat : Nat) (e : Effect) : (t.fly lat e).sems = t.sems := rfl
@[simp] theorem Tile.fly_rtarget (t : Tile) (lat : Nat) (e : Effect) : (t.fly lat e).rtarget = t.rtarget := rfl
@[simp] theorem Tile.fly_syncNoRoute (t : Tile) (lat : Nat) (e : Effect) : (t.fly lat e).syncNoRoute = t.syncNoRoute := rfl
@[simp] theorem Tile.fly_syncReaderGone (t : Tile) (lat : Nat) (e : Effect) : (t.fly lat e).syncReaderGone = t.syncReaderGone := rfl
@[simp] theorem Tile.fly_syncSemUnf (t : Tile) (lat : Nat) (e : Effect) : (t.fly lat e).syncSemUnf = t.syncSemUnf := rfl
@[simp] theorem Tile.fly_syncSemOvf (t : Tile) (lat : Nat) (e : Effect) : (t.fly lat e).syncSemOvf = t.syncSemOvf := rfl
@[simp] theorem Tile.fly_syncWdogToll (t : Tile) (lat : Nat) (e : Effect) : (t.fly lat e).syncWdogToll = t.syncWdogToll := rfl
@[simp] theorem Tile.fly_syncWdogSy (t : Tile) (lat : Nat) (e : Effect) : (t.fly lat e).syncWdogSy = t.syncWdogSy := rfl
@[simp] theorem Tile.fly_wdogLimit (t : Tile) (lat : Nat) (e : Effect) : (t.fly lat e).wdogLimit = t.wdogLimit := rfl
@[simp] theorem Tile.fly_syCount (t : Tile) (lat : Nat) (e : Effect) : (t.fly lat e).syCount = t.syCount := rfl
@[simp] theorem Tile.fly_tollCount (t : Tile) (lat : Nat) (e : Effect) : (t.fly lat e).tollCount = t.tollCount := rfl
@[simp] theorem Tile.fly_syHold (t : Tile) (lat : Nat) (e : Effect) : (t.fly lat e).syHold = t.syHold := rfl
@[simp] theorem Tile.fly_belaySent (t : Tile) (lat : Nat) (e : Effect) : (t.fly lat e).belaySent = t.belaySent := rfl
@[simp] theorem Tile.fly_bp (t : Tile) (lat : Nat) (e : Effect) : (t.fly lat e).bp = t.bp := rfl
@[simp] theorem Tile.fly_ch (t : Tile) (lat : Nat) (e : Effect) : (t.fly lat e).ch = t.ch := rfl
@[simp] theorem Tile.fly_oc (t : Tile) (lat : Nat) (e : Effect) : (t.fly lat e).oc = t.oc := rfl
@[simp] theorem Tile.fly_lastRecv (t : Tile) (lat : Nat) (e : Effect) : (t.fly lat e).lastRecv = t.lastRecv := rfl
@[simp] theorem Tile.fly_crossings (t : Tile) (lat : Nat) (e : Effect) : (t.fly lat e).crossings = t.crossings := rfl

@[simp] theorem Tile.flags_st (t : Tile) (f : ArithFlags) : (t.flags f).st = t.st := rfl
@[simp] theorem Tile.flags_ctrlPoison (t : Tile) (f : ArithFlags) : (t.flags f).ctrlPoison = t.ctrlPoison := rfl
@[simp] theorem Tile.flags_imemParity (t : Tile) (f : ArithFlags) : (t.flags f).imemParity = t.imemParity := rfl
@[simp] theorem Tile.flags_old (t : Tile) (f : ArithFlags) : (t.flags f).old = t.old := rfl
@[simp] theorem Tile.flags_half (t : Tile) (f : ArithFlags) : (t.flags f).half = t.half := rfl
@[simp] theorem Tile.flags_pc (t : Tile) (f : ArithFlags) : (t.flags f).pc = t.pc := rfl
@[simp] theorem Tile.flags_lastPc (t : Tile) (f : ArithFlags) : (t.flags f).lastPc = t.lastPc := rfl
@[simp] theorem Tile.flags_ctl (t : Tile) (f : ArithFlags) : (t.flags f).ctl = t.ctl := rfl
@[simp] theorem Tile.flags_bubble (t : Tile) (f : ArithFlags) : (t.flags f).bubble = t.bubble := rfl
@[simp] theorem Tile.flags_used (t : Tile) (f : ArithFlags) : (t.flags f).used = t.used := rfl
@[simp] theorem Tile.flags_loops (t : Tile) (f : ArithFlags) : (t.flags f).loops = t.loops := rfl
@[simp] theorem Tile.flags_cyc (t : Tile) (f : ArithFlags) : (t.flags f).cyc = t.cyc := rfl
@[simp] theorem Tile.flags_flight (t : Tile) (f : ArithFlags) : (t.flags f).flight = t.flight := rfl
@[simp] theorem Tile.flags_reqR (t : Tile) (f : ArithFlags) : (t.flags f).reqR = t.reqR := rfl
@[simp] theorem Tile.flags_reqW (t : Tile) (f : ArithFlags) : (t.flags f).reqW = t.reqW := rfl
@[simp] theorem Tile.flags_bankHold (t : Tile) (f : ArithFlags) : (t.flags f).bankHold = t.bankHold := rfl
@[simp] theorem Tile.flags_bHold (t : Tile) (f : ArithFlags) : (t.flags f).bHold = t.bHold := rfl
@[simp] theorem Tile.flags_holdBank (t : Tile) (f : ArithFlags) : (t.flags f).holdBank = t.holdBank := rfl
@[simp] theorem Tile.flags_holdWait (t : Tile) (f : ArithFlags) : (t.flags f).holdWait = t.holdWait := rfl
@[simp] theorem Tile.flags_holdBoundary (t : Tile) (f : ArithFlags) : (t.flags f).holdBoundary = t.holdBoundary := rfl
@[simp] theorem Tile.flags_slipStep (t : Tile) (f : ArithFlags) : (t.flags f).slipStep = t.slipStep := rfl
@[simp] theorem Tile.flags_slipBase (t : Tile) (f : ArithFlags) : (t.flags f).slipBase = t.slipBase := rfl
@[simp] theorem Tile.flags_winStreams (t : Tile) (f : ArithFlags) : (t.flags f).winStreams = t.winStreams := rfl
@[simp] theorem Tile.flags_winChains (t : Tile) (f : ArithFlags) : (t.flags f).winChains = t.winChains := rfl
@[simp] theorem Tile.flags_g (t : Tile) (f : ArithFlags) : (t.flags f).g = t.g := rfl
@[simp] theorem Tile.flags_lc (t : Tile) (f : ArithFlags) : (t.flags f).lc = t.lc := rfl
@[simp] theorem Tile.flags_v (t : Tile) (f : ArithFlags) : (t.flags f).v = t.v := rfl
@[simp] theorem Tile.flags_k (t : Tile) (f : ArithFlags) : (t.flags f).k = t.k := rfl
@[simp] theorem Tile.flags_acc (t : Tile) (f : ArithFlags) : (t.flags f).acc = t.acc := rfl
@[simp] theorem Tile.flags_sb (t : Tile) (f : ArithFlags) : (t.flags f).sb = t.sb := rfl
@[simp] theorem Tile.flags_fills (t : Tile) (f : ArithFlags) : (t.flags f).fills = t.fills := rfl
@[simp] theorem Tile.flags_f (t : Tile) (f : ArithFlags) : (t.flags f).f = t.f := rfl
@[simp] theorem Tile.flags_imem (t : Tile) (f : ArithFlags) : (t.flags f).imem = t.imem := rfl
@[simp] theorem Tile.flags_imemBad (t : Tile) (f : ArithFlags) : (t.flags f).imemBad = t.imemBad := rfl
@[simp] theorem Tile.flags_curves (t : Tile) (f : ArithFlags) : (t.flags f).curves = t.curves := rfl
@[simp] theorem Tile.flags_spad (t : Tile) (f : ArithFlags) : (t.flags f).spad = t.spad := rfl
@[simp] theorem Tile.flags_arith (t : Tile) (f : ArithFlags) : (t.flags f).arith = t.arith.join f := rfl
@[simp] theorem Tile.flags_spadParity (t : Tile) (f : ArithFlags) : (t.flags f).spadParity = t.spadParity := rfl
@[simp] theorem Tile.flags_spadPoisonIn (t : Tile) (f : ArithFlags) : (t.flags f).spadPoisonIn = t.spadPoisonIn := rfl
@[simp] theorem Tile.flags_errAddrValid (t : Tile) (f : ArithFlags) : (t.flags f).errAddrValid = t.errAddrValid := rfl
@[simp] theorem Tile.flags_errAddr (t : Tile) (f : ArithFlags) : (t.flags f).errAddr = t.errAddr := rfl
@[simp] theorem Tile.flags_errNow (t : Tile) (f : ArithFlags) : (t.flags f).errNow = t.errNow := rfl
@[simp] theorem Tile.flags_hash (t : Tile) (f : ArithFlags) : (t.flags f).hash = t.hash := rfl
@[simp] theorem Tile.flags_ldq (t : Tile) (f : ArithFlags) : (t.flags f).ldq = t.ldq := rfl
@[simp] theorem Tile.flags_stq (t : Tile) (f : ArithFlags) : (t.flags f).stq = t.stq := rfl
@[simp] theorem Tile.flags_engBadDesc (t : Tile) (f : ArithFlags) : (t.flags f).engBadDesc = t.engBadDesc := rfl
@[simp] theorem Tile.flags_engQovf (t : Tile) (f : ArithFlags) : (t.flags f).engQovf = t.engQovf := rfl
@[simp] theorem Tile.flags_engNoRoute (t : Tile) (f : ArithFlags) : (t.flags f).engNoRoute = t.engNoRoute := rfl
@[simp] theorem Tile.flags_engCtrlDiscard (t : Tile) (f : ArithFlags) : (t.flags f).engCtrlDiscard = t.engCtrlDiscard := rfl
@[simp] theorem Tile.flags_engForeign (t : Tile) (f : ArithFlags) : (t.flags f).engForeign = t.engForeign := rfl
@[simp] theorem Tile.flags_engLengthClamp (t : Tile) (f : ArithFlags) : (t.flags f).engLengthClamp = t.engLengthClamp := rfl
@[simp] theorem Tile.flags_engMisalign (t : Tile) (f : ArithFlags) : (t.flags f).engMisalign = t.engMisalign := rfl
@[simp] theorem Tile.flags_engStray (t : Tile) (f : ArithFlags) : (t.flags f).engStray = t.engStray := rfl
@[simp] theorem Tile.flags_parityCount (t : Tile) (f : ArithFlags) : (t.flags f).parityCount = t.parityCount := rfl
@[simp] theorem Tile.flags_ldDone (t : Tile) (f : ArithFlags) : (t.flags f).ldDone = t.ldDone := rfl
@[simp] theorem Tile.flags_stDone (t : Tile) (f : ArithFlags) : (t.flags f).stDone = t.stDone := rfl
@[simp] theorem Tile.flags_ldBytes (t : Tile) (f : ArithFlags) : (t.flags f).ldBytes = t.ldBytes := rfl
@[simp] theorem Tile.flags_stBytes (t : Tile) (f : ArithFlags) : (t.flags f).stBytes = t.stBytes := rfl
@[simp] theorem Tile.flags_strayRows (t : Tile) (f : ArithFlags) : (t.flags f).strayRows = t.strayRows := rfl
@[simp] theorem Tile.flags_tollWait (t : Tile) (f : ArithFlags) : (t.flags f).tollWait = t.tollWait := rfl
@[simp] theorem Tile.flags_inboundBytes (t : Tile) (f : ArithFlags) : (t.flags f).inboundBytes = t.inboundBytes := rfl
@[simp] theorem Tile.flags_sems (t : Tile) (f : ArithFlags) : (t.flags f).sems = t.sems := rfl
@[simp] theorem Tile.flags_rtarget (t : Tile) (f : ArithFlags) : (t.flags f).rtarget = t.rtarget := rfl
@[simp] theorem Tile.flags_syncNoRoute (t : Tile) (f : ArithFlags) : (t.flags f).syncNoRoute = t.syncNoRoute := rfl
@[simp] theorem Tile.flags_syncReaderGone (t : Tile) (f : ArithFlags) : (t.flags f).syncReaderGone = t.syncReaderGone := rfl
@[simp] theorem Tile.flags_syncSemUnf (t : Tile) (f : ArithFlags) : (t.flags f).syncSemUnf = t.syncSemUnf := rfl
@[simp] theorem Tile.flags_syncSemOvf (t : Tile) (f : ArithFlags) : (t.flags f).syncSemOvf = t.syncSemOvf := rfl
@[simp] theorem Tile.flags_syncWdogToll (t : Tile) (f : ArithFlags) : (t.flags f).syncWdogToll = t.syncWdogToll := rfl
@[simp] theorem Tile.flags_syncWdogSy (t : Tile) (f : ArithFlags) : (t.flags f).syncWdogSy = t.syncWdogSy := rfl
@[simp] theorem Tile.flags_wdogLimit (t : Tile) (f : ArithFlags) : (t.flags f).wdogLimit = t.wdogLimit := rfl
@[simp] theorem Tile.flags_syCount (t : Tile) (f : ArithFlags) : (t.flags f).syCount = t.syCount := rfl
@[simp] theorem Tile.flags_tollCount (t : Tile) (f : ArithFlags) : (t.flags f).tollCount = t.tollCount := rfl
@[simp] theorem Tile.flags_syHold (t : Tile) (f : ArithFlags) : (t.flags f).syHold = t.syHold := rfl
@[simp] theorem Tile.flags_belaySent (t : Tile) (f : ArithFlags) : (t.flags f).belaySent = t.belaySent := rfl
@[simp] theorem Tile.flags_bp (t : Tile) (f : ArithFlags) : (t.flags f).bp = t.bp := rfl
@[simp] theorem Tile.flags_ch (t : Tile) (f : ArithFlags) : (t.flags f).ch = t.ch := rfl
@[simp] theorem Tile.flags_oc (t : Tile) (f : ArithFlags) : (t.flags f).oc = t.oc := rfl
@[simp] theorem Tile.flags_lastRecv (t : Tile) (f : ArithFlags) : (t.flags f).lastRecv = t.lastRecv := rfl
@[simp] theorem Tile.flags_crossings (t : Tile) (f : ArithFlags) : (t.flags f).crossings = t.crossings := rfl

@[simp] theorem Tile.take_st (t : Tile) (x : BSlot) : (t.take x).st = t.st := rfl
@[simp] theorem Tile.take_ctrlPoison (t : Tile) (x : BSlot) : (t.take x).ctrlPoison = t.ctrlPoison := rfl
@[simp] theorem Tile.take_imemParity (t : Tile) (x : BSlot) : (t.take x).imemParity = t.imemParity := rfl
@[simp] theorem Tile.take_old (t : Tile) (x : BSlot) : (t.take x).old = t.old := rfl
@[simp] theorem Tile.take_half (t : Tile) (x : BSlot) : (t.take x).half = t.half := rfl
@[simp] theorem Tile.take_pc (t : Tile) (x : BSlot) : (t.take x).pc = t.pc := rfl
@[simp] theorem Tile.take_lastPc (t : Tile) (x : BSlot) : (t.take x).lastPc = t.lastPc := rfl
@[simp] theorem Tile.take_ctl (t : Tile) (x : BSlot) : (t.take x).ctl = t.ctl := rfl
@[simp] theorem Tile.take_bubble (t : Tile) (x : BSlot) : (t.take x).bubble = t.bubble := rfl
@[simp] theorem Tile.take_used (t : Tile) (x : BSlot) : (t.take x).used = x :: t.used := rfl
@[simp] theorem Tile.take_loops (t : Tile) (x : BSlot) : (t.take x).loops = t.loops := rfl
@[simp] theorem Tile.take_cyc (t : Tile) (x : BSlot) : (t.take x).cyc = t.cyc := rfl
@[simp] theorem Tile.take_flight (t : Tile) (x : BSlot) : (t.take x).flight = t.flight := rfl
@[simp] theorem Tile.take_reqR (t : Tile) (x : BSlot) : (t.take x).reqR = t.reqR := rfl
@[simp] theorem Tile.take_reqW (t : Tile) (x : BSlot) : (t.take x).reqW = t.reqW := rfl
@[simp] theorem Tile.take_bankHold (t : Tile) (x : BSlot) : (t.take x).bankHold = t.bankHold := rfl
@[simp] theorem Tile.take_bHold (t : Tile) (x : BSlot) : (t.take x).bHold = t.bHold := rfl
@[simp] theorem Tile.take_holdBank (t : Tile) (x : BSlot) : (t.take x).holdBank = t.holdBank := rfl
@[simp] theorem Tile.take_holdWait (t : Tile) (x : BSlot) : (t.take x).holdWait = t.holdWait := rfl
@[simp] theorem Tile.take_holdBoundary (t : Tile) (x : BSlot) : (t.take x).holdBoundary = t.holdBoundary := rfl
@[simp] theorem Tile.take_slipStep (t : Tile) (x : BSlot) : (t.take x).slipStep = t.slipStep := rfl
@[simp] theorem Tile.take_slipBase (t : Tile) (x : BSlot) : (t.take x).slipBase = t.slipBase := rfl
@[simp] theorem Tile.take_winStreams (t : Tile) (x : BSlot) : (t.take x).winStreams = t.winStreams := rfl
@[simp] theorem Tile.take_winChains (t : Tile) (x : BSlot) : (t.take x).winChains = t.winChains := rfl
@[simp] theorem Tile.take_g (t : Tile) (x : BSlot) : (t.take x).g = t.g := rfl
@[simp] theorem Tile.take_lc (t : Tile) (x : BSlot) : (t.take x).lc = t.lc := rfl
@[simp] theorem Tile.take_v (t : Tile) (x : BSlot) : (t.take x).v = t.v := rfl
@[simp] theorem Tile.take_k (t : Tile) (x : BSlot) : (t.take x).k = t.k := rfl
@[simp] theorem Tile.take_acc (t : Tile) (x : BSlot) : (t.take x).acc = t.acc := rfl
@[simp] theorem Tile.take_sb (t : Tile) (x : BSlot) : (t.take x).sb = t.sb := rfl
@[simp] theorem Tile.take_fills (t : Tile) (x : BSlot) : (t.take x).fills = t.fills := rfl
@[simp] theorem Tile.take_f (t : Tile) (x : BSlot) : (t.take x).f = t.f := rfl
@[simp] theorem Tile.take_imem (t : Tile) (x : BSlot) : (t.take x).imem = t.imem := rfl
@[simp] theorem Tile.take_imemBad (t : Tile) (x : BSlot) : (t.take x).imemBad = t.imemBad := rfl
@[simp] theorem Tile.take_curves (t : Tile) (x : BSlot) : (t.take x).curves = t.curves := rfl
@[simp] theorem Tile.take_spad (t : Tile) (x : BSlot) : (t.take x).spad = t.spad := rfl
@[simp] theorem Tile.take_arith (t : Tile) (x : BSlot) : (t.take x).arith = t.arith := rfl
@[simp] theorem Tile.take_spadParity (t : Tile) (x : BSlot) : (t.take x).spadParity = t.spadParity := rfl
@[simp] theorem Tile.take_spadPoisonIn (t : Tile) (x : BSlot) : (t.take x).spadPoisonIn = t.spadPoisonIn := rfl
@[simp] theorem Tile.take_errAddrValid (t : Tile) (x : BSlot) : (t.take x).errAddrValid = t.errAddrValid := rfl
@[simp] theorem Tile.take_errAddr (t : Tile) (x : BSlot) : (t.take x).errAddr = t.errAddr := rfl
@[simp] theorem Tile.take_errNow (t : Tile) (x : BSlot) : (t.take x).errNow = t.errNow := rfl
@[simp] theorem Tile.take_hash (t : Tile) (x : BSlot) : (t.take x).hash = t.hash := rfl
@[simp] theorem Tile.take_ldq (t : Tile) (x : BSlot) : (t.take x).ldq = t.ldq := rfl
@[simp] theorem Tile.take_stq (t : Tile) (x : BSlot) : (t.take x).stq = t.stq := rfl
@[simp] theorem Tile.take_engBadDesc (t : Tile) (x : BSlot) : (t.take x).engBadDesc = t.engBadDesc := rfl
@[simp] theorem Tile.take_engQovf (t : Tile) (x : BSlot) : (t.take x).engQovf = t.engQovf := rfl
@[simp] theorem Tile.take_engNoRoute (t : Tile) (x : BSlot) : (t.take x).engNoRoute = t.engNoRoute := rfl
@[simp] theorem Tile.take_engCtrlDiscard (t : Tile) (x : BSlot) : (t.take x).engCtrlDiscard = t.engCtrlDiscard := rfl
@[simp] theorem Tile.take_engForeign (t : Tile) (x : BSlot) : (t.take x).engForeign = t.engForeign := rfl
@[simp] theorem Tile.take_engLengthClamp (t : Tile) (x : BSlot) : (t.take x).engLengthClamp = t.engLengthClamp := rfl
@[simp] theorem Tile.take_engMisalign (t : Tile) (x : BSlot) : (t.take x).engMisalign = t.engMisalign := rfl
@[simp] theorem Tile.take_engStray (t : Tile) (x : BSlot) : (t.take x).engStray = t.engStray := rfl
@[simp] theorem Tile.take_parityCount (t : Tile) (x : BSlot) : (t.take x).parityCount = t.parityCount := rfl
@[simp] theorem Tile.take_ldDone (t : Tile) (x : BSlot) : (t.take x).ldDone = t.ldDone := rfl
@[simp] theorem Tile.take_stDone (t : Tile) (x : BSlot) : (t.take x).stDone = t.stDone := rfl
@[simp] theorem Tile.take_ldBytes (t : Tile) (x : BSlot) : (t.take x).ldBytes = t.ldBytes := rfl
@[simp] theorem Tile.take_stBytes (t : Tile) (x : BSlot) : (t.take x).stBytes = t.stBytes := rfl
@[simp] theorem Tile.take_strayRows (t : Tile) (x : BSlot) : (t.take x).strayRows = t.strayRows := rfl
@[simp] theorem Tile.take_tollWait (t : Tile) (x : BSlot) : (t.take x).tollWait = t.tollWait := rfl
@[simp] theorem Tile.take_inboundBytes (t : Tile) (x : BSlot) : (t.take x).inboundBytes = t.inboundBytes := rfl
@[simp] theorem Tile.take_sems (t : Tile) (x : BSlot) : (t.take x).sems = t.sems := rfl
@[simp] theorem Tile.take_rtarget (t : Tile) (x : BSlot) : (t.take x).rtarget = t.rtarget := rfl
@[simp] theorem Tile.take_syncNoRoute (t : Tile) (x : BSlot) : (t.take x).syncNoRoute = t.syncNoRoute := rfl
@[simp] theorem Tile.take_syncReaderGone (t : Tile) (x : BSlot) : (t.take x).syncReaderGone = t.syncReaderGone := rfl
@[simp] theorem Tile.take_syncSemUnf (t : Tile) (x : BSlot) : (t.take x).syncSemUnf = t.syncSemUnf := rfl
@[simp] theorem Tile.take_syncSemOvf (t : Tile) (x : BSlot) : (t.take x).syncSemOvf = t.syncSemOvf := rfl
@[simp] theorem Tile.take_syncWdogToll (t : Tile) (x : BSlot) : (t.take x).syncWdogToll = t.syncWdogToll := rfl
@[simp] theorem Tile.take_syncWdogSy (t : Tile) (x : BSlot) : (t.take x).syncWdogSy = t.syncWdogSy := rfl
@[simp] theorem Tile.take_wdogLimit (t : Tile) (x : BSlot) : (t.take x).wdogLimit = t.wdogLimit := rfl
@[simp] theorem Tile.take_syCount (t : Tile) (x : BSlot) : (t.take x).syCount = t.syCount := rfl
@[simp] theorem Tile.take_tollCount (t : Tile) (x : BSlot) : (t.take x).tollCount = t.tollCount := rfl
@[simp] theorem Tile.take_syHold (t : Tile) (x : BSlot) : (t.take x).syHold = t.syHold := rfl
@[simp] theorem Tile.take_belaySent (t : Tile) (x : BSlot) : (t.take x).belaySent = t.belaySent := rfl
@[simp] theorem Tile.take_bp (t : Tile) (x : BSlot) : (t.take x).bp = t.bp := rfl
@[simp] theorem Tile.take_ch (t : Tile) (x : BSlot) : (t.take x).ch = t.ch := rfl
@[simp] theorem Tile.take_oc (t : Tile) (x : BSlot) : (t.take x).oc = t.oc := rfl
@[simp] theorem Tile.take_lastRecv (t : Tile) (x : BSlot) : (t.take x).lastRecv = t.lastRecv := rfl
@[simp] theorem Tile.take_crossings (t : Tile) (x : BSlot) : (t.take x).crossings = t.crossings := rfl

end Sys2Proof.Machine
end

