-- ==== Sys2Proof/Tests/Slice0.lean ====
section
/-! SUPPORT. The model's own tests: ill-formed commands are refused, each statement's hypotheses are met somewhere, and
small steps give what the spec's tables and worked cases say. -/

namespace Sys2Proof.Tests

open Sys2Proof Sys2Proof.Machine

set_option Elab.async false

/-! ### Helpers: one tile in RUN, one port, one field changed -/

/-- A tile at the head of a bundle. -/
def rt : Tile := { st := .run }

/-- Physical tile 0 in that state, all else at reset. -/
def on (t : Tile) : State := State.reset.setTile 0 t

/-- Scalar fields D, A, B, X and IMM. -/
def sc (d a b : BitVec 5) (x : BitVec 9) (imm : BitVec 32) : ScF := ⟨d, a, b, x, imm⟩

/-- A vector slot with vD, vA, vB, all lanes. -/
def ve (vd va vb : BitVec 5) (sub : BitVec 6) (imm : BitVec 32) : VeF := ⟨vd, va, vb, 0, 0, 0, 0, 0, 0, 0, sub, imm⟩

/-- A matrix slot. -/
def mx (acc : BitVec 2) (row : BitVec 7) : MxF := ⟨acc, 0, 0, 0, 0, 0, 0, 0, row, 0, 0⟩

/-- A load or store slot. -/
def ls (imm : BitVec 13) : LsF := ⟨0, 0, 0, 0, 0, 0, 0, imm⟩

/-- A tile with two scalar registers. -/
def rg (a b : W64) : Tile := { rt with g := [(1, ⟨a, false⟩), (2, ⟨b, false⟩)] }

/-! ### Ill-formed commands are refused (R61, R84, R95, R121, R147) -/

theorem test_wf_add : scOk 0x01 (sc 3 1 2 0 0) = true ∧ tileOk 199 = true := by decide
theorem test_wf_tile : Instr.wf (.add 200 (sc 3 1 2 0 0)) = false := by decide
theorem test_wf_scalar_unused_imm : Instr.wf (.add 0 (sc 3 1 2 0 1)) = false := by decide
theorem test_wf_scalar_unused_b : Instr.wf (.addi 0 (sc 3 1 2 0 1)) = false := by decide
theorem test_wf_scalar_unused_d : Instr.wf (.ret 0 (sc 3 1 0 0 0)) = false := by decide
theorem test_wf_scalar_shift : Instr.wf (.shli 0 (sc 3 1 0 0 64)) = false := by decide
theorem test_wf_scalar_x : Instr.wf (.mul 0 (sc 3 1 2 1 0)) = false := by decide
theorem test_wf_matrix_unused : Instr.wf (.mxFill 0 (mx 1 0)) = false := by decide
theorem test_wf_vector_unused : Instr.wf (.vneg 0 (ve 1 2 3 0 0)) = false := by decide
theorem test_wf_vector_sub : Instr.wf (.vldexp 0 (ve 1 2 3 1 0)) = false := by decide
theorem test_wf_vector_mask : Instr.wf (.kand 0 (ve 8 2 3 0 0)) = false := by decide
theorem test_wf_load_toll : Instr.wf (.ld 0 { ls 1 with tv := 1 }) = false := by decide
theorem test_wf_store_post : Instr.wf (.stPost 0 (ls 0)) = false ∧ Instr.wf (.stPost 0 (ls 256)) = false := by decide
theorem test_wf_sync_zero : Instr.wf (.sig 0 ⟨0, 0⟩) = false := by decide
theorem test_wf_write : Instr.wf (.inboundWrite ⟨0, 200, 0, []⟩) = false := by decide
theorem test_wf_signal : Instr.wf (.remoteSignal ⟨none, 0, 0⟩) = false := by decide
theorem test_wf_arrival : Instr.wf (.belayArrival 0 4) = false := by decide
theorem test_wf_message : Instr.wf (.messageDelivery ⟨none, 0, 0, 0, false, 0, 0, []⟩) = false := by decide
theorem test_wf_channel : Instr.wf (.padSkip 0 16) = false := by decide
theorem test_wf_row : Instr.wf (.programStart 8) = false := by decide
theorem test_wf_endpoint : Instr.wf (.partnerRst 37) = false := by decide
theorem test_wf_point : Instr.wf (.freqRecord 8 0) = false ∧ Instr.wf (.ceiling 0 8) = false := by decide
theorem test_wf_port : Instr.wf (.portEnable 16) = false := by decide
theorem test_wf_scrub : Instr.wf (.scrub 0 1) = false ∧ Instr.wf (.scrub 4 0) = false := by decide
theorem test_wf_stack : Instr.wf (.rowRetire 0 5) = false := by decide
theorem test_wf_trip : Instr.wf (.thermalTrip 0) = false := by decide
theorem test_wf_register : Instr.wf (.registerWrite .host (2 ^ 32) []) = false := by decide
theorem test_wf_nonce : Instr.wf (.discover 0 []) = false := by decide
theorem test_wf_host_port : Instr.wf (.telemetry ⟨8, 0⟩) = false ∧ Instr.wf (.pfcFrame 8 0) = false := by decide

/-! ### The hypotheses of the statements are met: steps and slots -/

theorem witness_IdleTick : State.reset.pending = [] ∧ State.reset.clocksRun = true ∧ State.reset.clock.trim = 0
    ∧ State.reset.clock.gtcRes = 0 ∧ State.reset.cv.primary ≠ 2
    ∧ ({ State.reset with pkg := { State.reset.pkg with thermtrip := true } } : State).clocksRun = false := by decide

theorem witness_MemoryReadAfterWrite : Memory.wf [(0, 1), (2 ^ 41 - 1, 255)] = true := by decide

theorem witness_StepKeepsMemoryForm : Memory.wf State.reset.hbm.bytes = true ∧ ∃ t, step State.reset = .next t :=
  ⟨by decide, _, rfl⟩

theorem witness_SlotFrame : slotTile (.add 0 (sc 31 1 2 0 0)) = some 0
    ∧ ∃ t, execAdd 0 (sc 31 1 2 0 0) (on rt) = .next t := ⟨rfl, _, rfl⟩

theorem witness_ZeroRegister : (31 : BitVec 5) ≠ 0 ∧ (1 : BitVec 5) ≠ 31 := by decide

theorem witness_CommitLayout : 65535 < 2 ^ 16 ∧ 2 ^ 32 - 1 < 2 ^ 32 ∧ 2 ^ 64 - 1 < 2 ^ 64 := by decide

theorem witness_ScalarIntegerResults : (on (rg 5 0)).mayIssue 0 .sc = true ∧ (((on (rg 5 0)).take 0 .sc).tile 0).gv 2 = 0
    ∧ (((on (rg 5 0)).take 0 .sc).tile 0).gv 1 ≠ 0 := by decide

theorem witness_LeadingZeros : (0x8000000000000000 : W64).getLsbD 63 = true ∧ (1 : W64).getLsbD 0 = true
    ∧ ∀ j, 63 < j → (0x8000000000000000 : W64).getLsbD j = false :=
  ⟨by decide, by decide, fun _ h => BitVec.getLsbD_of_ge _ _ h⟩

theorem witness_ScalarFloatResults : (on rt).mayIssue 0 .sc = true := by decide

theorem witness_ScalarScratchpadResults : (on (rg (2 ^ 21 - 1) 0)).mayIssue 0 .sc = true := by decide

theorem witness_BranchResults : (on (rg 4096 0)).mayIssue 0 .sc = true
    ∧ ((((on (rg 4096 0)).take 0 .sc).tile 0).gv 2).toNat / 4096 = (((on (rg 4096 0)).take 0 .sc).tile 0).half.toNat
    ∧ ((((on (rg 4096 0)).take 0 .sc).tile 0).gv 1).toNat / 4096 ≠ (((on (rg 4096 0)).take 0 .sc).tile 0).half.toNat := by decide

/-- The loops of R70's clauses: a count, a zero count with no mark, and a zero count whose last bundle ends an outer loop. -/
def outer : Tile := { rt with loops := [⟨0, 1, 2, 2⟩], imem := [(1, BitVec.ofNat 384 262144)] }

theorem witness_LoopAndSwapResults : (on { rt with lc := [(0, ⟨2, 0⟩)] }).mayIssue 0 .sc = true
    ∧ ((((on { rt with lc := [(0, ⟨2, 0⟩)] }).take 0 .sc).tile 0).lcr 0).count.toNat ≠ 0
    ∧ (on rt).mayIssue 0 .sc = true ∧ ((((on rt).take 0 .sc).tile 0).lcr 0).count.toNat = 0
    ∧ (let t := ((on rt).take 0 .sc).tile 0; lendGo t (t.marksAt (t.pc.toNat + 1)) t.loops = ([], none))
    ∧ (on outer).mayIssue 0 .sc = true ∧ ((((on outer).take 0 .sc).tile 0).lcr 3).count.toNat = 0
    ∧ (let t := ((on outer).take 0 .sc).tile 0
       lendGo t (t.marksAt (t.pc.toNat + 1)) t.loops = ([⟨0, 1, 2, 2⟩], some (0, 1, 1))) := by decide

theorem witness_CounterAndNopResults : (on rt).mayIssue 0 .sc = true ∧ (on rt).mayIssue 0 .mx = true ∧ (on rt).mayIssue 0 .ve = true
    ∧ (on rt).mayIssue 0 .ld = true ∧ (on rt).mayIssue 0 .st = true ∧ (on rt).mayIssue 0 .sy = true := by decide

/-- A tile whose format registers name code 1, the table's code 20, a code without a table and code 3. -/
def fm : Tile := { rt with f := [(0, 1), (1, 20), (2, 31), (3, 3)], spad := { bytes := [(0, 0x80)] } }

/-- The header of a table of 6-bit elements in blocks of 16 with E4M3 scales (R32). -/
def tab : SMap (List Byte) := [(20, [0, 0x62, 0x14, 0])]

/-- That tile on a chip with that table installed. -/
def tabbed : State := { on fm with formats := tab }

theorem witness_MatrixResults : tabbed.mayIssue 0 .mx = true
    ∧ (let t := (tabbed.take 0 .mx).tile 0
       mxFmt tabbed.formats (t.fr 0) ≠ none ∧ mxFmt tabbed.formats (t.fr 2) = none
       ∧ t.streamPlan tabbed.formats { mx 3 127 with f := 2 } = none
       ∧ fmtBad tabbed.formats (t.fr 3) = false ∧ fmtBad tabbed.formats (t.fr 2) = true) := by decide

theorem witness_MatrixResults_stream : tabbed.mayIssue 0 .mx = true ∧ ∃ p, ((tabbed.take 0 .mx).tile 0).streamPlan tabbed.formats (mx 3 127) = some p
    ∧ ((tabbed.take 0 .mx).tile 0).streamBad (mx 3 127) p = false := ⟨by decide, _, rfl, by decide⟩

theorem witness_MatrixResults_scale : ∃ p, ((tabbed.take 0 .mx).tile 0).streamPlan tabbed.formats { mx 3 127 with f := 1 } = some p
    ∧ ((tabbed.take 0 .mx).tile 0).streamBad { mx 3 127 with f := 1 } p = true := ⟨_, rfl, by decide⟩

theorem witness_VectorArithmeticResults : (on rt).mayIssue 0 .ve = true := by decide

theorem witness_VectorMoveResults : (on rt).mayIssue 0 .ve = true ∧ (0 : Nat) < 128 ∧ (0 : Nat) ≠ (127 : BitVec 32).toNat % 128 := by
  decide

theorem witness_VectorConversionResults : tabbed.mayIssue 0 .ve = true
    ∧ (let t := (tabbed.take 0 .ve).tile 0
       fmtBad tabbed.formats (t.fr 0) = false ∧ fmtCode (t.fr 0) = 1 ∧ 2 < fmtCode (t.fr 3) ∧ fmtBad tabbed.formats (t.fr 3) = false
       ∧ fmtBad tabbed.formats (t.fr 2) = true) ∧ ∃ L fl, packRow tabbed.formats 3 Lanes.zero (drawsFrom (tabbed.draws 0) 3 0 128) false = (L, fl) :=
  ⟨by decide, by decide, _, _, rfl⟩

theorem witness_VectorConversionResults_scale : ∃ b, fmtBlock [] (fm.fr 3) = some b
    ∧ ∀ g, g < 128 / b.block → b.badScale (packedBlock b (fm.vr 1).bytes g).2.1.toNat = false :=
  ⟨fixedFormat 3, by unfold fmtBlock; rw [show fmtCode (fm.fr 3) = 3 by decide]; simp [bfmt?], fun g _ => by simp [BFmt.badScale, fixedFormat]⟩

theorem witness_ReductionResults : (on rt).mayIssue 0 .ve = true := by decide

theorem witness_IntegerReductionIsTheSum : (List.replicate 128 (0xFFFFFFFF : W32)).length = 128 :=
  List.length_replicate

/-- Lane 127 selected, and lane 127 beyond those selected below it (R96, R99). -/
theorem witness_PermuteResults : (on rt).mayIssue 0 .ve = true ∧ ((((on rt).take 0 .ve).tile 0).lanesOf (ve 1 2 3 0 0)).getLsbD 127 = true
    ∧ (let sel := (((on rt).take 0 .ve).tile 0).lanesOf { ve 1 2 3 0 0 with km := 1 }
       ((List.range 128).filter fun j => sel.getLsbD j).length ≤ 127) := by
  decide

theorem witness_MaskResults : (on rt).mayIssue 0 .ve = true := by decide

/-- A tile with an armed exporting crossing of this cycle, and one with an importing crossing. -/
def crossW : Tile := { rt with crossings := [⟨0, 0, 0, true, 0, 0, some 0⟩] }
def crossR : Tile := { rt with crossings := [⟨0, 0, 0, false, 0, 0, some 0⟩] }

/-- Their slot full. -/
def full0 : SMap BQueue := [(0, { slots := [(0, { full := true })] })]

theorem witness_VectorMemoryResults : (on rt).mayIssue 0 .ve = true
    ∧ ((on rt).tile 0).crossing false (ve 1 2 3 0 0) = none ∧ ((on rt).tile 0).crossing true (ve 1 2 3 0 0) = none := by decide

theorem witness_VectorMemoryResults_crossing : (on crossW).mayIssue 0 .ve = true ∧ (on crossR).mayIssue 0 .ve = true
    ∧ ((on crossW).tile 0).crossing true (ve 1 2 3 0 0) = some ⟨0, 0, 0, true, 0, 0, some 0⟩
    ∧ ((on crossR).tile 0).crossing false (ve 1 2 3 0 0) = some ⟨0, 0, 0, false, 0, 0, some 0⟩
    ∧ (((on crossW).bq 0).slot 0).full = false ∧ (((on crossR).bq 0).slot 0).full = false
    ∧ ((({ on crossW with bqs := full0 } : State).bq 0).slot 0).full = true ∧ ((({ on crossR with bqs := full0 } : State).bq 0).slot 0).full = true
    ∧ ({ on crossW with bqs := full0 } : State).mayIssue 0 .ve = true ∧ ({ on crossR with bqs := full0 } : State).mayIssue 0 .ve = true := by
  decide

/-! ### The hypotheses of the statements are met: engines, semaphores, channels -/

/-- A load command and a store command of an earlier cycle. -/
def ldc : EngCmd := { kind := .ld, sv := false, sem := 0, imm := 1 }
def stc : EngCmd := { kind := .st, sv := false, sem := 0, imm := 1 }

/-- Tile 0 with one command at the head of a queue, and a sound stream descriptor at scratchpad address 0 (R130). -/
def ldT (c : EngCmd) : Tile := { rt with ldq := [c], spad := { bytes := [(16, 1), (20, 1), (28, 1), (63, 1)] } }
def stT (c : EngCmd) : Tile := { rt with stq := [c], spad := { bytes := [(16, 1), (20, 1), (28, 1), (63, 1)] } }

/-- An image with one TILE_CODE section of one bundle for logical tile 0. -/
def img : Image := { sections := [⟨1, 0, 0, 0, 0, 0, 0, 0, List.replicate 48 1⟩], rows := 8 }

/-- That image installed, with logical tile 0 on physical tile 0 and logical tile 1 on physical tile 199. -/
def mapped (t : Tile) : State := { on t with image := some img, tileMap := [0, 199] }

/-- The same with a queue of port 5 from logical tile 0's engine and slots to position 1 (R268). -/
def routed (t : Tile) : State := { mapped t with ports :=
  [(5, { qtab := [⟨0, 0, false, 1, 64⟩, ⟨1, 0, false, 1, 64⟩], tables := [⟨0, 1023, [⟨1, false, 0⟩, ⟨1, false, 1⟩], []⟩], cur := some 0 })] }

/-- Both kinds of store queue: empty, and one that ends with a `send` of this cycle (R149). -/
theorem witness_EnqueueResults : (on rt).mayIssue 0 .ld = true ∧ (on rt).mayIssue 0 .st = true ∧ (on rt).mayIssue 0 .sy = true
    ∧ (((on rt).take 0 .st).tile 0).stq.getLast? = none
    ∧ (on (stT { stc with kind := .send, fresh := true })).mayIssue 0 .st = true
    ∧ ((((on (stT { stc with kind := .send, fresh := true })).take 0 .st).tile 0).stq = [] ++ [{ stc with kind := .send, fresh := true }])
    ∧ (((on (stT { stc with kind := .send, fresh := true })).take 0 .st).tile 0).stq.length < 512 ∧ EngKind.st ≠ .send := by decide

theorem witness_EngineTargetResults_read : (0 : W64).toNat / 2 ^ 41 % 65536 = (mapped rt).position ∧ (0 : W64).toNat / 2 ^ 61 = 0
    ∧ (0x0000020000000000 : W64).toNat / 2 ^ 41 % 65536 ≠ (mapped rt).position
    ∧ (0x2000000000200000 : W64).toNat / 2 ^ 41 % 65536 = (mapped rt).position ∧ (0x2000000000200000 : W64).toNat / 2 ^ 61 = 1
    ∧ (mapped rt).physicalOf ((0x2000000000200000 : W64).toNat % 2 ^ 41 / 2 ^ 21) = some 199
    ∧ (mapped rt).physicalOf ((0x2000000000400000 : W64).toNat % 2 ^ 41 / 2 ^ 21) = none
    ∧ (0x400000003E000000 : W64).toNat / 2 ^ 61 = 2
    ∧ (securityWindow ((0x400000003E000000 : W64).toNat % 2 ^ 41) || securityWindow ((0x400000003E000000 : W64).toNat % 2 ^ 41 + 4 - 1)) = true
    ∧ (securityWindow ((0x400000003DFFFFFC : W64).toNat % 2 ^ 41) || securityWindow ((0x400000003DFFFFFC : W64).toNat % 2 ^ 41 + 4 - 1)) = false := by
  decide

theorem witness_EngineTargetResults_write : (mapped rt).physicalOf ((0x2000000000000000 : W64).toNat % 2 ^ 41 / 2 ^ 21) = some 0
    ∧ (mapped rt).physicalOf ((0x2000000000200000 : W64).toNat % 2 ^ 41 / 2 ^ 21) = some 199 ∧ (199 : Nat) ≠ 0
    ∧ (mapped rt).sendScheduled 0 (((mapped rt).logicalOf 0).getD 0) 1 (.write ⟨0, 0x0000020000000000, []⟩) = none
    ∧ ((routed rt).sendScheduled 0 (((routed rt).logicalOf 0).getD 0) 1 (.write ⟨0, 0x0000020000000000, []⟩)).isSome = true
    ∧ (mapped rt).route? 0 (((mapped rt).logicalOf 0).getD 0) 1 = none ∧ (routed rt).route? 0 (((routed rt).logicalOf 0).getD 0) 1 ≠ none
    ∧ (0x1000_0000 + 0 * 0x10_0000 ≤ 0x100F_FFFC ∧ 0x100F_FFFC + 4 ≤ 0x1000_0000 + 0 * 0x10_0000 + 0x10_0000)
    ∧ 0x0FFF_FFFC < 0x1000_0000 + 0 * 0x10_0000 ∧ 0x1000_0000 + 0 * 0x10_0000 + 0x10_0000 < 0x100F_FFFE + 4 := by decide

/-- A stream's row inside its table and one beyond it (R131). -/
def dsc : StrmDesc := strmDesc ((ldT ldc).spad.read 0 64)

theorem witness_EngineTargetResults_row : (0 + 2 ^ 32 - dsc.bias) % 2 ^ 32 < dsc.tlen ∧ dsc.tlen ≤ (1 + 2 ^ 32 - dsc.bias) % 2 ^ 32
    ∧ dsc.isrc = 0 := by decide

theorem witness_LoadEngineResults : ((on (ldT ldc)).tile 0).ldq = [ldc] ∧ ((on (ldT ldc)).tile 0).ready ldc ldc.kind = true
    ∧ ldc.dead = false ∧ ldc.length.1 ≠ 0 ∧ gaBad (ldc.b &&& ~~~3) = false
    ∧ (let c := { ldc with imm := 0 }; ((on (ldT c)).tile 0).ready c c.kind = true) ∧ ({ ldc with imm := 0 } : EngCmd).length.1 = 0
    ∧ (let c := { ldc with b := 3 <<< 61 }; ((on (ldT c)).tile 0).ready c c.kind = true)
    ∧ gaBad (({ ldc with b := 3 <<< 61 } : EngCmd).b &&& ~~~3) = true := by decide

/-- A dead command of each kind of the load queue (R122). -/
theorem witness_LoadEngineResults_dead : ∀ k ∈ [EngKind.ld, .ldStrm, .ldOvl],
    ((on (ldT { ldc with kind := k, dead := true })).tile 0).ready { ldc with kind := k, dead := true } k = true := by decide

/-- A stream whose descriptor is not read yet: a sound one, a bad one, one whose table lies at a reserved address, and a
stream under way. -/
def ldS : EngCmd := { ldc with kind := .ldStrm }

theorem witness_LoadEngineResults_stream : ((on (ldT ldS)).tile 0).ldq = [ldS] ∧ ((on (ldT ldS)).tile 0).ready ldS ldS.kind = true
    ∧ ldS.desc = none ∧ dsc.bad = false ∧ ldS.rows dsc ≠ 0 ∧ dsc.badAddress = false
    ∧ (strmDesc (((on { rt with ldq := [ldS] }).tile 0).spad.read 0 64)).bad = true
    ∧ (let t : Tile := { rt with ldq := [ldS], spad := { bytes := [(7, 0x60), (16, 1), (20, 1), (28, 1), (63, 1)] } }
       let d := strmDesc (((on t).tile 0).spad.read 0 64)
       ((on t).tile 0).ready ldS ldS.kind = true ∧ d.bad = false ∧ ldS.rows d ≠ 0 ∧ d.badAddress = true)
    ∧ (let c : EngCmd := { ldS with desc := some dsc }
       ((on (ldT c)).tile 0).ready c c.kind = true ∧ c.desc = some dsc ∧ c.rows dsc ≠ 0) := by decide

theorem witness_LoadEngineResults_overlay : ((mapped (ldT { ldc with kind := .ldOvl, imm := 0 })).tile 0).ready
      { ldc with kind := .ldOvl, imm := 0 } .ldOvl = true
    ∧ (mapped rt).image = some img ∧ (mapped rt).logicalOf 0 = some 0 ∧ (img.sectionFor 1 0 0).isSome = true := by decide

theorem witness_LoadEngineResults_overlay_bytes :
    ∃ x, img.sectionFor 1 (0 % 4096) 0 = some x ∧ 0 < ((mapped rt).overlayBytes img x).length / 48 := ⟨_, rfl, by decide⟩

theorem witness_StoreEngineResults : ((on (stT stc)).tile 0).stq = [stc] ∧ ((on (stT stc)).tile 0).ready stc stc.kind = true ∧ stc.waiting = 0
    ∧ stc.dead = false ∧ stc.length.1 ≠ 0 ∧ stc.tv = false ∧ gaBad (stc.b &&& ~~~3) = false
    ∧ (gaMove (stc.b &&& ~~~3) (64 * stc.row)).toNat / 2 ^ 41 % 65536 = (on (stT stc)).position
    ∧ (gaMove (stc.b &&& ~~~3) (64 * stc.row)).toNat / 2 ^ 61 = 0
    ∧ (let c := { stc with imm := 0 }; ((on (stT c)).tile 0).ready c c.kind = true) ∧ ({ stc with imm := 0 } : EngCmd).length.1 = 0
    ∧ (let c := { stc with b := 3 <<< 61 }; ((on (stT c)).tile 0).ready c c.kind = true)
    ∧ gaBad (({ stc with b := 3 <<< 61 } : EngCmd).b &&& ~~~3) = true := by decide

/-- A dead command of each kind of the store queue, and a post (R122, R137). -/
theorem witness_StoreEngineResults_dead : ∀ k ∈ [EngKind.st, .stStrm, .stPost, .send], ∀ d ∈ [true, false],
    ((on (stT { stc with kind := k, dead := d })).tile 0).ready { stc with kind := k, dead := d } k = true
    ∧ refChip ({ stc with kind := k, dead := d } : EngCmd).b = (on (stT { stc with kind := k, dead := d })).position := by decide

/-- A store with TV, without and with the tolls of its semaphore. -/
theorem witness_StoreEngineResults_tolls : (let c := { stc with tv := true }
       ((on (stT c)).tile 0).ready c c.kind = true ∧ c.tolls = 0 ∧ ((on (stT c)).tile 0).tollsIn c.toll < (c.length.1 + 63) / 64
       ∧ (c.length.1 + 63) / 64 ≤ ((on { stT c with sems := [(0, { value := 1 })] }).tile 0).tollsIn c.toll
       ∧ ((on { stT c with sems := [(0, { value := 1 })] }).tile 0).ready c c.kind = true)
    ∧ (let c := { stc with tv := true, tolls := 1 }; ((on (stT c)).tile 0).ready c c.kind = true) := by decide

theorem witness_StoreEngineResults_lands :
    ∃ u, State.engineWrite (on (stT stc)) 0 (0 : W64) (List.replicate 64 (1, false)) false = .next u := ⟨_, rfl⟩

theorem witness_StoreEngineResults_faults :
    ∃ e, State.engineWrite (on (stT stc)) 0 (0x2000020000000000 : W64) (List.replicate 64 (1, false)) false = .fault e := ⟨_, rfl⟩

/-- A storing stream: its descriptor not read, and a row under way within its table, beyond it, and with TV. -/
def stS : EngCmd := { stc with kind := .stStrm }

theorem witness_StoreEngineResults_stream : ((on (stT stS)).tile 0).ready stS stS.kind = true ∧ stS.desc = none
    ∧ dsc.bad = false ∧ stS.rows dsc ≠ 0 ∧ dsc.badAddress = false ∧ dsc.isrc = 0 ∧ dsc.runits ≠ 0
    ∧ (strmDesc (((on { rt with stq := [stS] }).tile 0).spad.read 0 64)).bad = true
    ∧ (let d := strmDesc (({ bytes := [(7, 0x60), (16, 1), (20, 1), (28, 1), (63, 1)] } : Spad).read 0 64)
       d.bad = false ∧ stS.rows d ≠ 0 ∧ d.badAddress = true)
    ∧ (let c : EngCmd := { stS with desc := some dsc }
       ((on (stT c)).tile 0).ready c c.kind = true ∧ (c.row + 2 ^ 32 - dsc.bias) % 2 ^ 32 < dsc.tlen
       ∧ (gaMove dsc.tbase 0).toNat / 2 ^ 41 % 65536 = (on (stT c)).position ∧ (gaMove dsc.tbase 0).toNat / 2 ^ 61 = 0)
    ∧ (let c : EngCmd := { stS with desc := some dsc, row := 1 }
       ((on (stT c)).tile 0).ready c c.kind = true ∧ dsc.tlen ≤ (c.row + 2 ^ 32 - dsc.bias) % 2 ^ 32)
    ∧ (let c : EngCmd := { stS with desc := some dsc, tv := true }
       ((on (stT c)).tile 0).ready c c.kind = true ∧ c.tolls = 0 ∧ ((on (stT c)).tile 0).tollsIn c.toll < dsc.runits
       ∧ dsc.runits ≤ ((on { stT c with sems := [(0, { value := 1 })] }).tile 0).tollsIn c.toll) := by decide

/-- A `send` of one entry through port 0: broken, without tolls, with them in its semaphore, and with its toll taken. -/
def snd : EngCmd := { kind := .send, sv := false, sem := 0, len := 1 }

theorem witness_StoreEngineResults_send : (∀ o ∈ [({ broken := true } : OPort), { size := 4 }],
      ((on { stT snd with oc := [(0, o)] }).tile 0).ready snd snd.kind = true ∧ snd.tolls = 0)
    ∧ (let t := (on { stT snd with oc := [(0, { broken := true })] }).tile 0; (t.oc.get snd.oc {}).broken = true)
    ∧ (let t := (on { stT snd with oc := [(0, { size := 4 })] }).tile 0
       (t.oc.get snd.oc {}).broken = false ∧ t.tollsIn (t.oc.get snd.oc {}).toll < ((t.oc.get snd.oc {}).plan snd.len).1)
    ∧ (let t := (on { stT snd with oc := [(0, { size := 4 })], sems := [(0, { value := 1 })] }).tile 0
       t.ready snd snd.kind = true ∧ snd.len ≠ 0 ∧ ((t.oc.get snd.oc {}).plan snd.len).1 ≤ t.tollsIn (t.oc.get snd.oc {}).toll)
    ∧ (let c := { snd with tolls := 1 }
       ((on (stT c)).tile 0).ready c c.kind = true ∧ (((on (stT c)).tile 0).oc.get c.oc {}).chip = (on (stT c)).position) := by decide

/-- A command that waits for one toll, with the semaphore at 0 and at 1, and a send that waits on a broken port. -/
def wtg : EngCmd := { stc with tv := true, waiting := 1 }

theorem witness_CompletionResults : ((on (stT wtg)).tile 0).st ≠ .fault ∧ ((on (stT wtg)).tile 0).stq = [wtg] ∧ 0 < wtg.waiting
    ∧ ((stT wtg).tollsIn 0) < wtg.waiting ∧ wtg.waiting ≤ ({ stT wtg with sems := [(0, { value := 1 })] } : Tile).tollsIn 0
    ∧ ¬ (wtg.kind = .send ∧ ((stT wtg).oc.get wtg.oc {}).broken = true)
    ∧ (let c := { snd with waiting := 1 }
       ((on { stT c with oc := [(0, { broken := true })] }).tile 0).stq = [c]
       ∧ (((on { stT c with oc := [(0, { broken := true })] }).tile 0).oc.get c.oc {}).broken = true)
    ∧ ((on (ldT { ldc with done := true })).tile 0).ldq = [{ ldc with done := true }]
    ∧ ((on (stT { stc with done := true })).tile 0).stq = [{ stc with done := true }]
    ∧ (on (stT { stc with done := true })).storesLanded 0 = true := by decide

theorem witness_SemaphoreArithmetic : ({ value := 0xFFFF } : Sem).value ≤ 0xFFFF ∧ rt.inCycle = true
    ∧ ({ rt with st := .idle } : Tile).inCycle = false ∧ (62 : Nat) ≠ 63 := by decide

/-- Tile 0 with a belay port that is bound to belay 7 of this chip, one bound to another chip, a poisoned g3 and a
reference to chip 1 in g4. -/
def bpT : Tile := { rt with bp := [(0, { valid := true, index := 7 }), (2, { valid := true, chip := 1 })],
                            g := [(3, ⟨0, true⟩), (4, ⟨0x0000010000000000, false⟩)] }

theorem witness_SemaphoreResults : ((on rt).tile 0).atHead = true ∧ (on rt).mayIssue 0 .sy = true
    ∧ (((on { rt with sems := [(0, { value := 63 })] }).tile 0).atHead = true
      ∧ 63 ≤ (((on { rt with sems := [(0, { value := 63 })] }).tile 0).sem 0).value) ∧ (((on rt).tile 0).sem 0).value < 1 := by decide

theorem witness_SemaphoreResults_remote : (mapped bpT).mayIssue 0 .sy = true ∧ (routed bpT).mayIssue 0 .sy = true
    ∧ bpT.gp 3 = true ∧ bpT.gp 1 = false ∧ bpT.gp 4 = false
    ∧ refChip (bpT.gv 1) = (mapped bpT).position ∧ refChip (bpT.gv 4) ≠ (mapped bpT).position
    ∧ (mapped bpT).sendScheduled 1 0 (refChip (bpT.gv 4)) (.signal ⟨0, 1, bpT.gv 4⟩) = none
    ∧ ((routed bpT).sendScheduled 1 0 (refChip (bpT.gv 4)) (.signal ⟨0, 1, bpT.gv 4⟩)).isSome = true
    ∧ (bpT.bp.get 1 {}).valid = false ∧ (bpT.bp.get 0 {}).valid = true ∧ (bpT.bp.get 0 {}).chip = (mapped bpT).position
    ∧ (bpT.bp.get 2 {}).valid = true ∧ (bpT.bp.get 2 {}).chip ≠ (mapped bpT).position
    ∧ (mapped bpT).sendScheduled 1 0 1 (.arrive ⟨0, 0, 0x4000010000000000⟩) = none
    ∧ ((routed bpT).sendScheduled 1 0 1 (.arrive ⟨0, 0, 0x4000010000000000⟩)).isSome = true := by decide

/-- Port 0 is released, and one whose last arrival is not. -/
def bpW : Tile := { rt with bp := [(0, { valid := true, tag := 0, rel := 0 })], belaySent := true }

theorem witness_BelayResults : ((on bpT).tile 0).atHead = true ∧ (((on bpT).tile 0).bp.get 0 {}).released = true
    ∧ ((on bpW).tile 0).atHead = true ∧ (((on bpW).tile 0).bp.get 0 {}).released = false ∧ ((on bpW).tile 0).belaySent = true
    ∧ (let u := { bpT with belaySent := true }
       ((on u).tile 0).atHead = true ∧ ((on u).tile 0).belaySent = true ∧ (((on u).tile 0).bp.get 0 {}).released = true)
    ∧ ((on bpT).tile 0).belaySent = false ∧ ((on bpT).tile 0).syHold = false
    ∧ ((((on bpT).arrivePort 0 0).tile 0).bp.get 0 {}).released = false
    ∧ (let u := { bpT with bp := [(0, { valid := true, index := 7, rel := 1 })] }
       ((on u).tile 0).atHead = true ∧ ((((on u).arrivePort 0 0).tile 0).bp.get 0 {}).released = true) := by decide

/-- Tile 0 with a staged message in channel 15 and in channel 2. -/
def rcv : Tile := { rt with ch := [(2, { staged := some ⟨0, 0, 1, []⟩ }), (15, { staged := some ⟨0, 0, 1, []⟩ })],
                            lastRecv := some 14 }

theorem witness_ReceiveResults : ((on rcv).tile 0).atHead = true ∧ ((on rt).tile 0).atHead = true
    ∧ (((on rcv).tile 0).ch.get 2 {}).staged = some ⟨0, 0, 1, []⟩ ∧ (((on rcv).tile 0).ch.get 15 {}).staged = some ⟨0, 0, 1, []⟩
    ∧ (((on rcv).tile 0).lastRecv).elim 0 (fun c => (c + 1) % 16) = 15
    ∧ (∀ d, d < 16 → (0x8004 : BitVec 16).getLsbD d = true → (((on rcv).tile 0).ch.get d {}).staged ≠ none →
        (2 + 16 - 0) % 16 ≤ (d + 16 - 0) % 16 ∧ (15 + 16 - 15) % 16 ≤ (d + 16 - 15) % 16)
    ∧ (∀ c, c < 16 → (0x8004 : BitVec 16).getLsbD c = true → (((on rt).tile 0).ch.get c {}).staged = none) := by decide

theorem witness_ReceiveResults_ring :
    ((on { rt with ch := [(15, { size := 4, items := [.message 0 1 0] })] }).tile 0).ringHead 15 = some (.message 0 1 0)
    ∧ ((on { rt with ch := [(15, { size := 4, items := [.pad 3] })] }).tile 0).ringHead 15 = some (.pad 3)
    ∧ ((on { rt with ch := [(15, { size := 4, items := [.duplicate 3 1] })] }).tile 0).ringHead 15 = some (.duplicate 3 1)
    ∧ (4 : Nat) ≠ 0 := by decide

/-- A global semaphore 4095 that counts, and a belay 7 of two children in generation 0. -/
def gsS : State := { mapped rt with gs := [(7, { mode := .belay, count := 2 }), (4095, { mode := .counter })] }

theorem witness_InboundResults : State.reset.mayLand (.write ⟨0, 199, 0, []⟩) = true
    ∧ State.reset.mayLand (.signal ⟨some 0, 0, 1⟩) = true ∧ State.reset.mayLand (.msg ⟨some 200, 0, 0, 0, false, 0, 0, []⟩) = true := by decide

/-- Each clause of `SignalDone`: logical tile 1's semaphore 63, counter 4095, and every ground for a discard. -/
theorem witness_SignalDone : refClean 0x000000000001003F = true ∧ refKind 0x000000000001003F = 0
    ∧ gsS.physicalOf (refTile 0x000000000001003F) = some 199
    ∧ refClean 0x4000000000000FFF = true ∧ refKind 0x4000000000000FFF = 1 ∧ (gsS.gsem (refIndex 0x4000000000000FFF)).mode = .counter
    ∧ refClean 0x0000000000000040 = false ∧ 2 ≤ refKind 0x8000000000000000
    ∧ refKind 0x0000000000020000 = 0 ∧ gsS.physicalOf (refTile 0x0000000000020000) = none
    ∧ refKind 0x4000000000000007 = 1 ∧ (gsS.gsem (refIndex 0x4000000000000007)).mode ≠ .counter := by decide

/-- Each clause of `ArrivalDone` at belay 7: the generation's first and last arrival, the next generation's, one beyond,
one in OVERRUN, and one at no belay. -/
theorem witness_ArrivalDone : refClean 0x4000000000000007 = true ∧ refKind 0x4000000000000007 = 1
    ∧ (gsS.gsem (refIndex 0x4000000000000007)).mode = .belay ∧ (gsS.gsem 7).overrun = false ∧ (gsS.gsem 7).fwd = false
    ∧ BitVec.ofNat 2 0 = (gsS.gsem 7).gen ∧ (gsS.gsem 7).value + 1 ≠ (gsS.gsem 7).count
    ∧ ({ mode := .belay, count := 2, value := 1 } : GSem).value + 1 = ({ mode := .belay, count := 2, value := 1 } : GSem).count
    ∧ BitVec.ofNat 2 1 = (gsS.gsem 7).gen + 1 ∧ BitVec.ofNat 2 3 ≠ (gsS.gsem 7).gen ∧ BitVec.ofNat 2 3 ≠ (gsS.gsem 7).gen + 1
    ∧ ({ mode := .belay, overrun := true } : GSem).overrun = true ∧ (gsS.gsem (refIndex 0x4000000000000FFF)).mode ≠ .belay := by decide

/-- Each clause of `MessageDone`: no tile, no valid channel, a valid one, and a late and a timely sequence number. -/
theorem witness_MessageDone : gsS.physicalOf 2 = none ∧ gsS.physicalOf 0 = some 0 ∧ ((gsS.tile 0).ch.get 15 {}).valid = false
    ∧ (((mapped { rt with ch := [(15, { valid := true, size := 4 })] }).tile 0).ch.get 15 {}).valid = true
    ∧ 32768 ≤ (65535 + 65536 - (0 : BitVec 16).toNat) % 65536 ∧ ¬ 32768 ≤ (32767 + 65536 - (0 : BitVec 16).toNat) % 65536 := by decide

theorem witness_BundleEndResults : (on rt).mayIssue 0 .stop = true ∧ (on rt).mayIssue 0 .lend = true ∧ ((on rt).tile 0).inIssue = true
    ∧ 0 < ((on { rt with bankHold := 3 }).tile 0).bankHold
    ∧ (let t := ((on rt).take 0 .lend).tile 0; lendGo t 0 t.loops = ([], none))
    ∧ (on outer).mayIssue 0 .lend = true
    ∧ (let t := ((on outer).take 0 .lend).tile 0; lendGo t 1 t.loops = ([⟨0, 1, 2, 2⟩], some (0, 1, 1))) := by decide

/-- The two ends of a cycle: no bank is asked for twice, and a word is read and written in one cycle. -/
theorem witness_BundleEndResults_banks : stallCycles rt.hash rt.reqR rt.reqW = 0
    ∧ ∃ t : Tile, t.st = .run ∧ stallCycles t.hash t.reqR t.reqW ≠ 0 :=
  ⟨by decide, { rt with reqR := [5], reqW := [5] }, rfl, by decide⟩

/-- Tile 0 after STOP with nothing in flight. -/
def stp : Tile := { rt with ctl := .stopped, bubble := true }

/-- A running chip with that tile its only one, or the second one still in RUN. -/
def stops : State := { on stp with tileMap := [0], dev := .running }

theorem witness_TileStateResults : ((on stp).tile 0).drained = true ∧ ((on stp).tile 0).bHold = false ∧ ((on stp).tile 0).ldq = []
    ∧ ((on stp).tile 0).stq = [] ∧ (on stp).dev ≠ .running ∧ (stops.tile 0).drained = true ∧ stops.dev = .running
    ∧ (stops.setTile 0 { (stops.tile 0).endRow with st := .done }).allDone = true
    ∧ (({ stops with tileMap := [0, 1] } : State).setTile 0 { (stops.tile 0).endRow with st := .done }).allDone = false
    ∧ ((on { stp with ldq := [ldc] }).tile 0).ldq ≠ [] ∧ ((on { stp with ldq := [ldc] }).tile 0).drained = true
    ∧ ((on rt).tile 0).st = .run ∧ ((on rt).tile 0).bubble = false
    ∧ ((on { rt with syHold := true, syCount := 2 ^ 28 }).tile 0).wdogDue false = true
    ∧ ((on { stT wtg with tollCount := 2 ^ 28 }).tile 0).wdogDue true = true := by decide

/-- A row held by tile 175's import for as long as the watchdog allows. -/
def heldRow : State := { mapped rt with
  image := some { img with wdog := 4 }, rows := [(7, { holds := [⟨175, 0, 0, 0, true⟩], holdCount := 16 })] }

theorem witness_TileStateResults_boundary : heldRow.image = some { img with wdog := 4 } ∧ (heldRow.row 7).holds ≠ []
    ∧ ({ img with wdog := 4 } : Image).wdog ≠ 0 ∧ 2 ^ ({ img with wdog := 4 } : Image).wdog ≤ (heldRow.row 7).holdCount
    ∧ ⟨175, 0, 0, 0, true⟩ ∈ (heldRow.row 7).holds ∧ heldRow.notReady ⟨175, 0, 0, 0, true⟩ = true
    ∧ ((heldRow.setTile 199 { rt with bHold := true }).tile (25 * 7 + 24)).bHold = true ∧ (heldRow.tile (25 * 7)).bHold = false := by decide

/-- A crossing endpoint in each of its states (R223). -/
def crossEps : State := { State.reset with eps := [(0, { st := .down }), (1, { st := .rejoin }), (2, { st := .partnerDown })] }

theorem witness_TileStateResults_endpoints : (crossEps.endpoint 36).st = .up ∧ (crossEps.endpoint 0).st = .down
    ∧ (crossEps.endpoint 1).st = .rejoin ∧ (crossEps.endpoint 2).st = .partnerDown := by decide

/-! ### The hypotheses of the statements are met: Caravan, depots, clocks, base camp -/

/-- Port 15 in some state, all else at reset. -/
def pt (x : CvPort) : State := { State.reset with ports := [(15, x)] }

def cap (lo hi : Nat) : CapFlit := ⟨true, lo, hi, 0, 15, 1, 0, [], []⟩

/-- A slot with nothing in it but its header, and that slot kept for retry, lost. -/
def idle0 : Slot := ⟨0, 0, 0, 0, 0, 0, 0, 0⟩
def lost0 (sends : Nat) : RetryItem := { slot := idle0, lost := true, sends := sends, queue := 0, firstAt := 0, sent := [0] }

theorem witness_LinkResults : ((pt { enable := true }).port 15).st = .down ∧ ((pt { enable := true }).port 15).enable = true
    ∧ ((pt { enable := true }).port 15).retryWait = false
    ∧ ((pt { st := .train }).port 15).st = .train ∧ ((pt { st := .caps }).port 15).st = .caps ∧ (pt { st := .caps }).image = none
    ∧ (cap 1 1).magicOk = true ∧ (cap 1 1).minver ≤ 1 ∧ 1 ≤ (cap 1 1).maxver ∧ (cap 2 3).magicOk = true ∧ ¬ ((cap 2 3).minver ≤ 1 ∧ 1 ≤ (cap 2 3).maxver)
    ∧ ((pt { st := .align }).port 15).st = .align ∧ (640 ≤ 640 ∧ 640 < 641)
    ∧ ((pt {}).port 15).st ≠ .up ∧ ((pt { st := .up }).port 15).st = .up := by decide

/-- The eighth transmission of a flit, the 2,048th slot after its first, and the watchdog's shortest time. -/
theorem witness_LinkResults_fails : (∃ i ∈ ((pt { st := .up, retry := [lost0 8] }).port 15).retry, 8 ≤ i.sends ∨ i.firstAt + 2048 ≤ 0)
    ∧ (∃ i ∈ ((pt { st := .up, retry := [lost0 1] }).port 15).retry, 8 ≤ i.sends ∨ i.firstAt + 2048 ≤ 2048)
    ∧ ((pt { st := .up, wdogLog2 := 1 }).port 15).wdogSlots = some 1024 ∧ ((pt { st := .up, wdogLog2 := 63 }).port 15).wdogSlots = some (2 ^ 24)
    ∧ 0 + 1024 ≤ ({ pt { st := .up, wdogLog2 := 1 } with cv := { slotCount := 1024 } } : State).cv.slotCount := by decide

/-- A closed port with one table: slot 0 scheduled for queue 0, slack from slot 1; and one flit in queue 0. -/
def flit1 : QFlit := { kind := 1, flit := 0 }
def up1 : CvPort :=
  { st := .up, open_ := false, cur := some 0, tables := [⟨0, 1, [⟨1, false, 0⟩, ⟨1, false, 0⟩], [⟨2, 15, 0, 0⟩]⟩],
    qtab := [⟨0, 0, false, 1, 1⟩], queues := [(0, [flit1])] }

/-- The same port in the table's dynamic slot 15, with a BROKEN record waiting. -/
def dyn1 : Routed := ⟨true, 1, 0, 64, .broken 0 0 0⟩
def at_ (n : Nat) (x : CvPort) : State := { pt x with cv := { slotCount := n } }

theorem witness_SlotResults : ((pt { st := .caps }).port 15).st = .caps ∧ ((pt { st := .align }).port 15).st = .align
    ∧ ((pt { st := .up, open_ := false }).port 15).st = .up ∧ (pt { st := .up, open_ := false }).slotClass 15 (0 % 1024) = .empty
    ∧ ((pt up1).port 15).st = .up ∧ (pt up1).rst.warm = false ∧ (pt up1).slotClass 15 ((pt up1).cv.slotCount % 1024) = .scheduled 0 false
    ∧ ((pt up1).port 15).retry.length < 2048 ∧ ((pt up1).port 15).queues.get 0 [] = [flit1]
    ∧ ((pt { up1 with queues := [] }).port 15).queues.get 0 [] = []
    ∧ (pt { up1 with queues := [] }).slotClass 15 (0 % 1024) = .scheduled 0 false := by decide +kernel

theorem witness_SlotResults_dynamic : (at_ 15 { up1 with dynq := [dyn1] }).slotClass 15 (15 % 1024) = .dynamic
    ∧ ((at_ 15 { up1 with dynq := [dyn1] }).port 15).noSlack = false ∧ ((at_ 15 { up1 with dynq := [dyn1] }).port 15).dynOut = []
    ∧ pickDyn ((at_ 15 { up1 with dynq := [dyn1] }).port 15).dynq = some (dyn1, [])
    ∧ (at_ 15 { up1 with dynOut := [flit1] }).slotClass 15 (15 % 1024) = .dynamic ∧ ((at_ 15 { up1 with dynOut := [flit1] }).port 15).dynOut = [flit1]
    ∧ ((at_ 15 { up1 with dynOut := [flit1] }).port 15).noSlack = false
    ∧ pickDyn (((at_ 15 { up1 with dynOut := [flit1] }).port 15).dynq.filter fun r => decide (recPriority r.body = 0)) = none := by decide +kernel

theorem witness_SlotResults_head (s : State) : ∃ f rest, recFlits (s.stampWaypoint 15 dyn1) = f :: rest := ⟨_, _, rfl⟩

theorem witness_SlotResults_slack : (at_ 1 { up1 with retry := [lost0 1] }).slotClass 15 (1 % 1024) = .slack
    ∧ ((at_ 1 { up1 with retry := [lost0 1] }).port 15).firstLost = some (lost0 1) ∧ ((at_ 1 { up1 with retry := [lost0 1] }).port 15).firstIdle = none
    ∧ (at_ 1 { up1 with idleAns := [0] }).slotClass 15 (1 % 1024) = .slack ∧ ((at_ 1 { up1 with idleAns := [0] }).port 15).firstLost = none
    ∧ ((at_ 1 { up1 with idleAns := [0] }).port 15).firstIdle = some 0
    ∧ ({ up1 with queues := [], offers := [(0, [flit1])] } : CvPort).offers.get 0 [] = [flit1]
    ∧ ({ up1 with queues := [] } : CvPort).room 0 = true ∧ ({ up1 with offers := [(0, [flit1])] } : CvPort).offers.get 0 [] = [flit1]
    ∧ up1.room 0 = false := by decide +kernel

/-- The answers due: none, a good slot, and a bad one before a good one. -/
theorem witness_SlotResults_answers : ([] : List (Nat × Bool)).find? (·.2) = none ∧ [(3, false)].find? (·.2) = none
    ∧ [(3, false)].getLast? = some (3, false) ∧ [(3, true), (4, false)].find? (·.2) = some (3, true) := by decide

/-- Slots in: the port's states, a head and a body flit, and what the port holds of them: taken before, a poisoned head, a
body flit to forward that must wait behind one missing, with room in its queue and without. -/
def head0 : Slot := { idle0 with kind := 1 }
def body0 : Slot := { idle0 with kind := 2 }

theorem witness_SlotResults_receive : ((pt up1).port 15).st = .up ∧ (pt up1).rst.warm = false ∧ head0.kind = 1 ∧ body0.kind = 2
    ∧ ({ idle0 with kind := 3 } : Slot).kind = 3
    ∧ ((pt up1).port 15).countOf 0 0 = 0 ∧ 0 ∈ ((pt { up1 with taken := [0] }).port 15).taken ∧ 0 ∉ ((pt up1).port 15).taken
    ∧ ((pt up1).port 15).reorder = [] ∧ ({ head0 with psn := 15 } : Slot).psn ≠ 0
    ∧ (pt up1).rxEntry 15 body0.tbl body0.slot = some ⟨2, 15, 0, 0⟩ ∧ (⟨2, 15, 0, 0⟩ : RxEntry).action ≠ 1
    ∧ (pt up1).mustWait 15 0 0 = false ∧ ((pt up1).port 15).wraps = [] ∧ twinOf 15 = none
    ∧ ((pt { up1 with queues := [] }).port 15).room 0 = true ∧ ((pt up1).port 15).room 0 = false := by decide

/-- With the transmission before missing, the flit of slot 1 waits. -/
def late1 : CvPort := { up1 with rxCount := 1, missing := [0],
                                 tables := [⟨0, 1, [⟨1, false, 0⟩], [⟨2, 15, 0, 0⟩, ⟨2, 15, 0, 0⟩]⟩] }

theorem witness_SlotResults_waits : ((pt late1).port 15).countOf 0 1 = 1 ∧ 1 ∉ ((pt late1).port 15).taken ∧ ((pt late1).port 15).reorder = []
    ∧ (pt late1).rxEntry 15 0 1 = some ⟨2, 15, 0, 0⟩ ∧ (pt late1).mustWait 15 1 0 = true := by decide

/-- A port without a twin, and one whose twin has not failed (R262, R282). -/
theorem witness_SlotResults_twin : twinOf 0 = some 8 ∧ ((pt {}).port 8).st ≠ .failed := by decide

/-- Depot 3's segment 3 in the map with a protect bit or none, and unmapped. -/
def mapAt (e : W64) : State := { State.reset with hbm := { map := [(0, e)] } }

theorem witness_DeliveredRecordResults_write : State.reset.mayAct (.write ⟨0, 0, []⟩) = true ∧ isCommit ⟨0, 0, [⟨[], false⟩]⟩ = false
    ∧ (0 : W64).toNat / 2 ^ 61 = 0 ∧ (List.replicate 64 (255 : Byte)).length = 64 ∧ (0 : W64).toNat % 2 ^ 41 % 64 = 0
    ∧ Memory.wf State.reset.hbm.bytes = true
    ∧ (let e := (mapAt (BitVec.ofNat 64 (2 ^ 62))).mapEntry (segOf 0); entState e = 1 ∧ entWp e = false ∧ entMapped e = true)
    ∧ entMapped (State.reset.mapEntry (segOf 0)) = false
    ∧ (let e := (mapAt (BitVec.ofNat 64 (2 ^ 62 + 2 ^ 61))).mapEntry (segOf 0); entMapped e = true ∧ entWp e = true)
    ∧ (0x2000000000200000 : W64).toNat / 2 ^ 61 = 1 ∧ (mapped rt).physicalOf ((0x2000000000200000 : W64).toNat % 2 ^ 41 / spadBytes) = some 199
    ∧ 2 ≤ (0x4000000000000000 : W64).toNat / 2 ^ 61 ∧ State.reset.physicalOf ((0x2000000000200000 : W64).toNat % 2 ^ 41 / spadBytes) = none := by
  decide

theorem witness_DeliveredRecordResults : State.reset.mayAct (.post ⟨0, 1, 0⟩) = true ∧ State.reset.mayAct (.signal ⟨0, 1, 0⟩) = true
    ∧ State.reset.mayAct (.arrive ⟨0, 0, 0⟩) = true ∧ State.reset.mayAct (.msg ⟨0, 0, 0, false, 0, 0, 0, 0, 0, []⟩) = true
    ∧ State.reset.mayAct (.broken 0 0 0) = true := by decide

/-- A release to a port of a tile, one that reaches none, and one for a belay that has forwarded generation 0. -/
def fwd7 : State := { State.reset with gs := [(7, { mode := .belay, count := 2, fwd := true })] }

theorem witness_DeliveredRecordResults_release : State.reset.mayAct (.release ⟨true, 0, 0⟩) = true
    ∧ (mapped rt).physicalOf (refTile 0) = some 0 ∧ State.reset.physicalOf (refTile 0) = none
    ∧ (let g := fwd7.gsem (refIndex 0x4000000000000007)
       g.mode = .belay ∧ g.overrun = false ∧ g.fwd = true ∧ BitVec.ofNat 2 1 = g.gen + 1)
    ∧ ¬ ((State.reset.gsem (refIndex 0x4000000000000007)).mode = .belay) := by decide

/-- Port 0's partner reports its port 7 failed, which is port 1's; the flit's original slot was slot 0 of port 1. -/
def detours (x : CvPort) : State := { State.reset with ports := [(0, { pPort := 3 }), (1, { x with pPort := 7 }), (15, { up1 with queues := [] })] }

theorem witness_DeliveredRecordResults_detour : (detours {}).detouredPort 0 9 = none ∧ (detours up1).detouredPort 0 7 = some 1
    ∧ ((detours up1).port 1).countOf 0 0 = 0 ∧ 0 ∈ ((detours { up1 with taken := [0] }).port 1).taken
    ∧ 0 ∉ ((detours up1).port 1).taken ∧ ((detours up1).port 1).reorder = [] ∧ ((detours up1).port 1).wraps = []
    ∧ twinOf 1 = some 9 ∧ ((detours up1).port 9).st ≠ .failed ∧ body0.kind = 2
    ∧ (detours up1).rxEntry 1 0 0 = some ⟨2, 15, 0, 0⟩ ∧ (⟨2, 15, 0, 0⟩ : RxEntry).action ≠ 1 ∧ ((detours up1).port 15).room 0 = true := by decide

/-- A SWITCH of the team 0 to the alternate 1. -/
def swt : RecSwitch := { team := 0, epoch := 1, alt := 1, flush := false, instant := 0 }
def swtR : Routed := ⟨true, 0, 0, 64, .switch swt⟩

theorem witness_SwitchResults : swt.team * 256 + swt.epoch ∉ State.reset.cv.seen
    ∧ ({ State.reset with delivered := [swtR] } : State).delivered.find? (fun x => decide (x.body = .switch swt)) = some swtR
    ∧ State.reset.image = none ∧ swt.team * 256 + swt.epoch ∈ ({ State.reset with cv := { seen := [1] } } : State).cv.seen
    ∧ 1 < swtR.ttl ∧ (15 : Nat) ≠ 14 ∧ ((pt { st := .up }).port 15).st = .up
    ∧ ({ pt { st := .up } with image := some img } : State).image.isSome = true ∧ 15 < 16
    ∧ ({ State.reset with cv := { pending := some swt } } : State).cv.pending = some swt
    ∧ swt.instant ≤ State.reset.stamp.toNat ∧ State.reset.cv.slotCount % 1024 = 0 ∧ swt.flush = false
    ∧ State.reset.cv.waiting = [] ∧ ({ swt with flush := true } : RecSwitch).flush = true ∧ ({ swt with flush := true } : RecSwitch).alt ≠ 255
    ∧ ({ State.reset with cv := { switchLeg := some 0, slotCount := 4096 } } : State).cv.switchLeg = some 0
    ∧ 0 + 4 ≤ ({ State.reset with cv := { switchLeg := some 0, slotCount := 4096 } } : State).cv.slotCount / 1024 := by decide

/-- Segment 3 mapped to stack 4, channel 31, row 4,204 of depot 3; `mg` says how far its migration has come. -/
def ent3 : W64 := BitVec.ofNat 64 (2 ^ 62 + 4 * 2 ^ 18 + 31 * 2 ^ 13 + 4204)
def seg3 : State := { State.reset with hbm := { map := [(3, ent3)] } }

def mig3 (units : Nat) (sw : Bool) : State :=
  { seg3 with depots := [(3, { hbmStacks := [(4, { mig := some ⟨3, ⟨4, 31, 4204⟩, ⟨0, 0, 4205⟩, units, sw⟩ })] })] }

/-- The same segment with an uncorrectable unit, its last. -/
def bad3 : State := { seg3 with hbm := { seg3.hbm with ue := SMap.mark [] (unitKey 3 ⟨4, 31, 4204⟩ 8191) true } }

theorem witness_DepotResults : entMapped (seg3.mapEntry 3) = true ∧ 3 % 4 = 3
    ∧ unitsIn seg3.hbm.ue (rowKey 3 (entRow (seg3.mapEntry 3))) = [] ∧ unitsIn seg3.hbm.ce (rowKey 3 (entRow (seg3.mapEntry 3))) = []
    ∧ entMapped (bad3.mapEntry 3) = true ∧ unitsIn bad3.hbm.ue (rowKey 3 (entRow (bad3.mapEntry 3))) = [8191]
    ∧ unitsIn bad3.hbm.ce (rowKey 3 (entRow (bad3.mapEntry 3))) = [] ∧ entState (bad3.mapEntry 3) = 1
    ∧ entState (seg3.mapEntry 3) = 1 ∧ entRow (seg3.mapEntry 3) = ⟨4, 31, 4204⟩ ∧ ((seg3.depot 3).stack 4).mig = none
    ∧ (((mig3 8191 false).depot 3).stack 4).mig = some ⟨3, ⟨4, 31, 4204⟩, ⟨0, 0, 4205⟩, 8191, false⟩ ∧ 8191 < 8192
    ∧ Memory.wf (mig3 8191 false).hbm.bytes = true
    ∧ (((mig3 8192 false).depot 3).stack 4).mig = some ⟨3, ⟨4, 31, 4204⟩, ⟨0, 0, 4205⟩, 8192, false⟩
    ∧ (mig3 8192 false).hbm.heldReply = none
    ∧ (((mig3 8192 true).depot 3).stack 4).mig = some ⟨3, ⟨4, 31, 4204⟩, ⟨0, 0, 4205⟩, 8192, true⟩
    ∧ ({ seg3 with base := { dormas := true } } : State).base.dormas = true
    ∧ 57 ≤ (({ seg3 with depots := [(3, { modules := 57 })] } : State).depot 3).modules
    ∧ (({ seg3 with depots := [(3, { modules := 56 })] } : State).depot 3).modules ≤ 56 := by decide

theorem witness_DepotResults_spare : (seg3.hbm.pickSpare 3).isSome = true := by decide +kernel

/-- A stack's last segment of a pass, and one of two (R301). -/
theorem witness_DepotResults_pass : (∀ g, g ∈ seg3.stackSegs 3 4 → g ∈ [3])
    ∧ ¬ ∀ g, g ∈ ({ seg3 with hbm := { map := [(3, ent3), (7, ent3)] } } : State).stackSegs 3 4 → g ∈ [3] := by decide

/-- A SUM of two contributions with RID 7: block 0 has taken the first, block 1 none, block 2 is complete. -/
def red7 (dispose n : Nat) : State :=
  { State.reset with reds := [{ rid := 7, n := n, dispose := dispose, e32 := 1, nblocks := 3, slots := 3, toll := 3 }],
                     redBlocks := [(7 * 2 ^ 32, { applied := [0], sum := [⟨0, false⟩] }),
                                   (7 * 2 ^ 32 + 2, { applied := [0, 1], complete := true, disposed := decide (dispose = 1), logAcked := true })],
                     redSeq := [(fwdKey 7, 2)], gs := [(3, { mode := .counter, value := 1 })] }

def desc7 (dispose n : Nat) : RedDesc := { rid := 7, n := n, dispose := dispose, e32 := 1, nblocks := 3, slots := 3, toll := 3 }

theorem witness_ReductionEngineResults : (red7 1 2).sumDesc 7 = some (desc7 1 2) ∧ 1 < (desc7 1 2).n
    ∧ (let y := (red7 1 2).redBlock 7 0; y.has 1 = false ∧ y.next = 1 ∧ y.sum ≠ [] ∧ y.parked = [])
    ∧ (let y := (red7 1 3).redBlock 7 0; y.applied.length + 1 < (desc7 1 3).n ∧ y.has 1 = false ∧ y.next = 1)
    ∧ (red7 1 3).sumDesc 7 = some (desc7 1 3)
    ∧ (let y := (red7 1 2).redBlock 7 1; y.has 1 = false ∧ 1 ≠ y.next ∧ y.applied.length < 2)
    ∧ (red7 1 1).sumDesc 7 = some (desc7 1 1) ∧ (desc7 1 1).n = 1 ∧ (desc7 1 1).log = false ∧ (desc7 1 1).dispose ≠ 0 ∧ (red7 1 1).outputs = []
    ∧ (let y := (red7 1 1).redBlock 7 1; y.has 0 = false ∧ 0 = y.next ∧ y.sum = [] ∧ y.applied = [] ∧ y.parked = [])
    ∧ ((red7 1 2).redBlock 7 2).has 1 = true := by decide

/-- A SEND of RID 9, before it has staged a block and after, its toll at zero and at one. -/
def snd9 (toll : Nat) (held : SMap (List Unit64)) : State :=
  { State.reset with reds := [{ rid := 9, role := 1, trigger := 2, toll := 3 }], redHeld := held,
                     gs := [(2, { mode := .counter, value := 1 }), (3, { mode := .counter, value := toll })] }

theorem witness_ReductionEngineResults_send : (snd9 0 []).redDesc 9 = some { rid := 9, role := 1, trigger := 2, toll := 3 }
    ∧ (snd9 0 []).redHeld.get? 9 = none ∧ 0 < ((snd9 0 []).gsem 2).value ∧ ((snd9 0 []).gsem 3).value = 0
    ∧ (snd9 1 [(9, [])]).redHeld.get? 9 = some [] ∧ 0 < ((snd9 1 [(9, [])]).gsem 3).value
    ∧ ({ rid := 9, role := 1, trigger := 2, toll := 3 } : RedDesc).dest = (snd9 1 [(9, [])]).position := by decide

theorem witness_ReductionEngineResults_forward : (red7 2 2).redDesc 7 = some (desc7 2 2) ∧ (desc7 2 2).role ≠ 1 ∧ (desc7 2 2).dispose = 2
    ∧ (red7 2 2).forwardable (desc7 2 2) = some 2 ∧ 0 < ((red7 2 2).gsem (desc7 2 2).toll).value := by decide

theorem witness_ReductionEngineResults_release : (red7 1 2).sumDesc 7 = some (desc7 1 2)
    ∧ (let b := (red7 1 2).redBlock 7 2; b.complete = true ∧ b.disposed = true ∧ b.logAcked = true ∧ b.released = false)
    ∧ (∀ w ∈ (desc7 1 2).senders, refChip w = (red7 1 2).position) :=
  ⟨by decide, by decide +kernel, fun _ h => nomatch h⟩

theorem witness_ReductionEngineResults_senders : refChip 0x0000000000000003 = (red7 1 2).position := by decide

/-- A clock with a parent on port 15. -/
def child : Clock := { hasParent := true, root := false, parentPort := 15, bOk := true }
def timed (c : Clock) : State := { State.reset with clock := c }

theorem witness_ClockResults : ((pt { st := .up }).port 15).st = .up
    ∧ ((timed child).clock.hasParent = true ∧ (timed child).clock.root = false ∧ (timed child).clock.parentPort.toNat = 15)
    ∧ ((1 : Nat) ≠ 0 ∨ (0 : Nat) ≠ 0) ∧ (timed child).mayStep = true ∧ (mapped rt).image.isSome = true ∧ State.reset.clock.hasParent = false
    ∧ ((timed { child with hasParent := false }).clock.hasParent = false ∧ (timed { child with hasParent := false }).clock.root = false)
    ∧ ((timed child).clock.active = false ∧ (timed child).clock.holdover = false ∧ (timed child).clock.bOk = true)
    ∧ (let c := { child with bOk := false }; (timed c).clock.active = false ∧ (timed c).clock.holdover = false ∧ (timed c).clock.bOk = false)
    ∧ (let c := { child with active := true }; (timed c).clock.active = true ∧ (timed c).clock.holdover = false)
    ∧ (timed { child with holdover := true }).clock.holdover = true := by decide

/-- An offset on each side of 1 ns and of 1,000 ns (R229, R232): half of t2's lead where t1, t3 and t4 are zero. -/
theorem witness_ClockResults_offset : (timed child).clock.localGtc 28 = 0
    ∧ ((((512 : Int) - 0) - ((0 : Int) - 0)) / 2).natAbs ≤ 256 ∧ 256 < ((((514 : Int) - 0) - ((0 : Int) - 0)) / 2).natAbs
    ∧ ((((512000 : Int) - 0) - ((0 : Int) - 0)) / 2).natAbs ≤ 256000
    ∧ 256000 < ((((512002 : Int) - 0) - ((0 : Int) - 0)) / 2).natAbs := by decide

/-- A change to point 3 at 9 ns that the chip does not know, and one it does. -/
def chg (op : Nat) : Routed := ⟨true, 0, 0, 64, .freq op 9⟩

theorem witness_OperatingPointResults : ({ curOp := 3, freqAt := 9 } : Clock).knows 3 9 = true
    ∧ (timed child).clock.knows 3 9 = false ∧ (timed child).clock.root = false ∧ (timed child).clock.freqPending = false
    ∧ (timed child).clock.ns < 9 ∧ (timed child).ownCeiling = (timed child).power.ceiling
    ∧ ({ timed child with delivered := [chg 3] } : State).delivered.find? (fun x => decide (x.body = .freq 3 9)) = some (chg 3)
    ∧ (timed child).clock.curOp ≤ 3
    ∧ (let s := timed { child with curOp := 5 }; 3 < s.clock.curOp ∧ s.clock.knows 3 9 = false ∧ s.ownCeiling = s.power.ceiling)
    ∧ (let s := timed { child with freqPending := true }; s.clock.freqPending = true ∧ s.clock.freqAt.toNat ≤ s.clock.ns ∧ s.clock.root = false)
    ∧ 7 < 8 ∧ (timed child).clock.hasParent = true ∧ State.reset.clock.hasParent = false ∧ State.reset.clock.root = true
    ∧ (timed { freqPending := true }).clock.root = true ∧ (timed { freqPending := true }).clock.freqPending = true := by decide

/-- A stretch 31 cycles after the last, and one 32 cycles after it (R215). -/
def str : State := { timed child with rows := [(7, { lastStretch := some 0 })] }

theorem witness_OperatingPointResults_stretch : (str.row 7).lastStretch = some 0 ∧ 0 < 31 ∧ 31 ≤ 0 + 31 ∧ str.clock.root = false
    ∧ (∀ c, (str.row 7).lastStretch = some c → ¬ (c < 32 ∧ 32 ≤ c + 31)) := by
  refine ⟨by decide, by decide, by decide, by decide, fun c h => ?_⟩
  cases (show some c = some 0 from h.symm)
  decide

theorem witness_OperatingPointResults_expire :
    ∃ x ∈ ({ timed child with power := { ceilings := [(9, 3, 0)] }, clock := { child with gtc := 256 * 3000000000 } } : State).power.ceilings,
      x.1 = 9 ∧ x.2.2 + 3000000000 ≤ (256 * 3000000000) / 256 := by decide

/-- A package over its power limit, one cool for the tenth time, and one neither over nor cool (R389). -/
def watts (p : Power) : State := { timed child with power := p }

theorem witness_OperatingPointResults_throttle :
    ((watts { packagePower := 1000000000 }).conditionsNow ≠ 0 ∧ (watts { packagePower := 1000000000 }).power.thermal < 7)
    ∧ (let s := watts { thermal := 1, clear := 10 }; s.conditionsNow = 0 ∧ s.coolNow = true ∧ 10 ≤ s.power.clear ∧ 0 < s.power.thermal)
    ∧ (let s := watts { rowTemp := [(0, 960)] }; s.conditionsNow = 0 ∧ s.coolNow = false) := by decide

theorem witness_PowerAndWearResults : 7 < 8 ∧ 24 < 25 ∧ 3 < 4 ∧ 4 < 5 ∧ (1 : Nat) ≠ 7
    ∧ ({ State.reset with base := { dormas := true } } : State).base.dormas = true := by decide

/-- Row 0 with 25 tiles whose window sum lies over the budget. -/
def busyRow : State := { mapped rt with tiles := (List.range 25).map fun n => (n, { rt with winStreams := 100000 }) }

theorem witness_PowerAndWearResults_budget : busyRow.image = some img
    ∧ img.rowBudget < ((List.range 25).map fun k => (busyRow.tile (25 * 0 + k)).charge).foldl (· + ·) 0 := by
  decide


/-! ### The hypotheses of the statements are met: resets, boot, package, Tether -/

/-- Reset with some other package state. -/
def pk (p : Package) : State := { State.reset with pkg := p }

theorem witness_ColdResetResults : (pk { powerGood := false }).pkg.powerGood = false ∧ (pk { powerGood := false }).pkg.rstN = true
    ∧ (pk { powerGood := false }).pkg.testmode = false ∧ (pk { powerGood := false }).pkg.thermtrip = false
    ∧ (pk { powerGood := false }).pkg.tripLast = false ∧ State.reset.pkg.powerGood = true ∧ State.reset.pkg.thermtrip = false
    ∧ 1000 ≤ 1000 ∧ State.reset.pkg.rstN = true ∧ 99 < 100
    ∧ (let s := pk { rstN := false, powerGood := true }; s.pkg.rstN = false ∧ s.pkg.powerGood = true ∧ s.pkg.thermtrip = false)
    ∧ (let s := pk { rstN := false, powerGood := false, thermtrip := true }
       s.pkg.thermtrip = true ∧ s.pkg.rstN = false ∧ s.pkg.powerGood = false) := by decide

theorem witness_WarmResetResults : State.reset.rst.warm = false ∧ State.reset.dev ≠ .off
    ∧ ({ State.reset with rst := { warmPending := true } } : State).rst.warmPending = true
    ∧ 32 * 2 ^ ({ State.reset with base := { wdogCount := 2 ^ 40 } } : State).base.wdogExp
      ≤ ({ State.reset with base := { wdogCount := 2 ^ 40 } } : State).base.wdogCount
    ∧ ({ State.reset with base := { dormas := true } } : State).base.dormas = true ∧ (0 : BitVec 8) ≠ 0x5A := by decide

/-- The boot ROM after a warm reset, with an image of no bytes whose digest is some value. -/
def held (d : List Byte) : State := { State.reset with rst := { warm := true }, base := { fwDigest := d } }

theorem witness_BootResults_warm : (held (sha384 [])).rst.warm = true ∧ sha384 (held (sha384 [])).base.sram = (held (sha384 [])).base.fwDigest := by
  decide +kernel

theorem witness_BootResults_other : (held []).rst.warm = true ∧ sha384 (held []).base.sram ≠ (held []).base.fwDigest := by
  decide +kernel

/-- A firmware image with a body of 64 zeros: magic, VERSION, ALG, SVN, KEYSEL, SIZE, ENTRY, zeros. -/
def fw64 : List Byte := [0x44, 0x52, 0x4D, 0x53, 1, 1, 1, 0, 64, 0, 0, 0, 0, 0, 0, 0] ++ List.replicate 560 0

/-- The vendor key of that image is fused. -/
def fused : Fuses := { vendorHash0 := sha384 (slice fw64 64 97) }

def fed (b : List Byte) (f : Option Nat) : State := { State.reset with fuses := fused, tether := { received := b, feeder := f } }

theorem witness_BootResults : (fed [] none).dev = .rom ∧ (fed [] none).rst.warm = false ∧ (fed [] none).tether.feeder = none
    ∧ ([1, 2] : List Byte).length < 12 ∧ (fed [] (some 1)).tether.feeder = some 1 ∧ (0 : Nat) ≠ 1
    ∧ 12 ≤ (fed fw64 (some 0)).tether.received.length
    ∧ 512 + bodySize (fed fw64 (some 0)).tether.received ≤ (fed fw64 (some 0)).tether.received.length := by decide +kernel

/-- Whether this image starts Dormas is up to the signature alone: code 0 where it verifies and 5 where it does not. -/
theorem witness_BootResults_verify : fwCodeOf fused fw64 = 0 ∨ fwCodeOf fused fw64 = 5 := by
  have h1 : ¬ (leAt fw64 0 4 ≠ 0x534D5244 ∨ leAt fw64 4 1 ≠ 1 ∨ leAt fw64 5 1 ≠ 1 ∨ (!(slice fw64 16 48).all fun x => decide (x = 0)) = true
      ∨ (!(slice fw64 161 255).all fun x => decide (x = 0)) = true ∨ leAt fw64 12 4 % 4 ≠ 0 ∨ bodySize fw64 ≤ leAt fw64 12 4) := by
    decide +kernel
  have h2 : ¬ (bodySize fw64 % 64 ≠ 0 ∨ 12582912 < bodySize fw64 ∨ fw64.length ≠ 512 + bodySize fw64) := by decide +kernel
  have h3 : ¬ ((leAt fw64 7 1 = 0 ∧ fused.revoked0 = true) ∨ (leAt fw64 7 1 = 1 ∧ fused.revoked1 = true)) := by decide +kernel
  have h4 : ¬ (2 ≤ leAt fw64 7 1 ∨ sha384 (slice fw64 64 97)
      ≠ (if leAt fw64 7 1 = 0 then fused.vendorHash0 else fused.vendorHash1)) := by decide +kernel
  have h6 : ¬ leAt fw64 6 1 < fused.minSvn := by decide +kernel
  unfold fwCodeOf
  simp only [if_neg h1, if_neg h2, if_neg h3, if_neg h4, if_neg h6]
  cases Config.verifies (slice fw64 64 97) (slice fw64 0 416 ++ fw64.drop 512) (slice fw64 416 96) <;> simp

theorem witness_BootResults_bad : fwCodeOf {} (List.replicate 576 0) ≠ 0 ∧ 512 + bodySize (List.replicate 576 0) ≤ 576 := by
  have h : leAt (List.replicate 576 0) 0 4 ≠ 0x534D5244 := by decide +kernel
  refine ⟨?_, by decide +kernel⟩
  unfold fwCodeOf
  simp only [if_pos (Or.inl h)]
  decide

theorem witness_BlockResetResults : State.reset.rst.warm = false ∧ State.reset.rst.busy = none ∧ 199 < 200
    ∧ State.reset.fuses.present.getD 199 0 ≠ 0 ∧ 7 < 8 ∧ 3 < 4 ∧ 15 < 16 := by decide

theorem witness_PackageResults : State.reset.pkg.powerGood = true ∧ State.reset.dev = .rom
    ∧ ({ State.reset with dev := .loaded } : State).dev ≠ .rom ∧ (∀ x ∈ writeParts 0x1000_0800 [1], mayWrite .caravan x.1 = false)
    ∧ 199 < 200 ∧ State.reset.absent 199 = false ∧ ((State.reset.setTile 199 rt).tile 199).inCycle = true
    ∧ (State.reset.setTile 199 rt).absent 199 = false ∧ (State.reset.tile 199).inCycle = false ∧ (State.reset.hport 0).up = false := by decide +kernel

/-! A session of the owner, one half open, and how packets of it stand -/

def hd1 : CmdHdr := ⟨0, 1⟩

def own : Session := { id := 1, owner := true, events := false, group := 1, key := [], keys := [], port := 0 }

/-- A device that Dormas serves, in some state, with the sessions given. -/
def te (d : DevSt) (l : List Session) : State := { State.reset with dev := d, base := { dormas := true }, tether := { sessions := l } }

def hello : Hello1 := ⟨1, false, true, 1, List.replicate 32 0, List.replicate 97 0, List.replicate 97 0⟩

def half : State := { State.reset with base := { dormas := true }, sec := { keyOk := true }, tether := { halfOpen := [⟨1, 0, hello, [], []⟩] } }

theorem witness_TetherResults : State.reset.serves 4 = true ∧ ({ State.reset with dev := .off } : State).serves 4 = false
    ∧ ({ State.reset with dev := .off } : State).rst.warm = false
    ∧ 4 ≤ ({ half with tether := { halfOpen := List.replicate 4 ⟨1, 0, hello, [], []⟩ } } : State).tether.halfOpen.length
    ∧ half.base.dormas = true ∧ Hello1.ok hello = true
    ∧ half.tether.halfOpen.length < 4 ∧ half.sec.keyOk = true
    ∧ half.tether.halfOpen.find? (fun y => decide (y.id = hd1.session)) = some ⟨1, 0, hello, [], []⟩ ∧ half.tether.admits hello = true
    ∧ ({ half with tether := { half.tether with ownerKey := List.replicate 48 1 } } : State).tether.admits hello = false
    ∧ (half.tether.halfOpen.any fun x => decide (x.id = 1)) = true
    ∧ (te .loaded [own]).dev ≠ .off ∧ (te .loaded [own]).session? hd1.session = some own
    ∧ (te .loaded [{ own with unacked := [⟨1, 9, 2⟩] }]).session? 1 = some { own with unacked := [⟨1, 9, 2⟩] } ∧ 9 < 10
    ∧ (te .loaded [{ own with unacked := [⟨1, 10, 64⟩] }]).session? 1 = some { own with unacked := [⟨1, 10, 64⟩] } ∧ 10 ≤ 10 := by
  decide +kernel

/-- Whether HELLO3 opens the session is up to the signature alone. -/
theorem witness_TetherResults_signature (sig : List Byte) :
    (Config.verifies hello.hkey [] sig = true ∧ half.tether.admits hello = true)
      ∨ Config.verifies hello.hkey [] sig = false ∨ half.tether.admits hello = false := by
  have h : half.tether.admits hello = true := by decide +kernel
  cases Config.verifies hello.hkey [] sig <;> simp [h]

/-! ### The hypotheses of the statements are met: commands and host traffic -/

/-- An observer, and a command of the owner on port 0. -/
def obs : Session := { own with owner := false }

/-- The premises of `Commanded` for the owner, in each state of the device that commands are legal in. -/
theorem witness_Commanded (d : DevSt) (h : d ≠ .off) : (te d [own]).dev ≠ .off ∧ (te d [own]).session? hd1.session = some own
    ∧ (te d [own]).waiting hd1.session = false ∧ own.owner = true ∧ (te d [obs]).session? hd1.session = some obs
    ∧ (te d [obs]).waiting hd1.session = false ∧ obs.owner = false := by
  exact ⟨h, rfl, rfl, rfl, rfl, rfl, rfl⟩

theorem witness_DataCommandResults : spanOk 0x8000 64 = true ∧ spanOk 0x8000 4 = true ∧ spanOk 0x8001 4 = false
    ∧ (te .loaded [own]).mayWear = true ∧ (te .running [own]).mayWear = false
    ∧ ((te .loaded [own]).inTurn hd1 8).ledgerGood [] = false
    ∧ (let s : State := { te .loaded [own] with power := { lastLedger := [0, 0] } }
       decide (1 ≤ 2) && decide (2 ≤ 8192) && decide (0 + 2 ≤ s.power.lastLedger.length)) = true
    ∧ (List.replicate 32 (0 : Byte)).length = 32 ∧ ((te .loaded [own]).inTurn hd1 32).sec.keyOk = true
    ∧ (({ te .loaded [own] with sec := { keyOk := false } } : State).inTurn hd1 32).sec.keyOk = false := by decide

/-- A ledger without rows whose fields are right: whether it is taken is up to its signature alone. -/
def book : List Byte := [0x41, 0x58, 0x57, 0x4C, 1, 1] ++ List.replicate 842 0

def booked : State :=
  { te .loaded [own] with fuses := { deviceId := List.replicate 48 0, publicKey := [1] } }

theorem witness_DataCommandResults_ledger : booked.ledgerGood book = Config.verifies [1] (book.take 752) (book.drop 752) := by
  have h1 : leAt book 744 4 = 0 := by decide +kernel
  have h2 : (decide (752 ≤ book.length) && decide (leAt book 0 4 = 0x4C575841) && decide (leAt book 4 1 = 1)
      && decide (leAt book 5 1 = 1) && ((slice book 6 2).all fun x => decide (x = 0)) && ((slice book 161 3).all fun x => decide (x = 0))
      && ((slice book 748 4).all fun x => decide (x = 0))) = true := by decide +kernel
  have h3 : decide (book.length = 848) = true := by decide +kernel
  have h4 : decide (slice book 32 48 = booked.fuses.deviceId) = true := by decide +kernel
  unfold State.ledgerGood
  simp only [h1, h2, h4, Nat.mul_zero, Nat.add_zero, h3, List.range_zero, List.all_nil, Bool.true_and, Bool.and_true]
  rfl

def qb : QpBody := ⟨2, 0, 3, true, 0, 0, 5, 0, 0, 0, 0, 2 ^ 19⟩

/-- Host space open at segment 0, one channel of a host sender with its toll. -/
def open1 : State :=
  { te .ready [own] with
    hbm := { map := [(0, BitVec.ofNat 64 (2 ^ 62))] }, image := some img, tileMap := [0],
    tiles := [(0, { ch := [(0, { valid := true, src := 1, size := 64, sender := 2 })] })],
    gs := [(5, { mode := .counter, value := 64 })] }

theorem witness_SetupCommandResults : (te .loaded [own]).hbm.held = [] ∧ (te .loaded [own]).power.ledgerOk = false
    ∧ ({ te .loaded [own] with power := { ledgerOk := true } } : State).power.ledgerOk = true ∧ parentOk 0xFF = true
    ∧ DevSt.loads .loaded = true ∧ DevSt.loads .running = false ∧ decide ((0 : Nat) < 8) = true
    ∧ (te .loaded [own]).base.svn < 1 ∧ (0 : Nat) ≤ (te .loaded [own]).base.svn
    ∧ QpBody.ok qb = true ∧ open1.qpRefusal qb = none ∧ (te .ready [own]).qpRefusal qb = some 3
    ∧ (te .ready [own]).qp? 2 = none ∧ ({ open1 with qps := [(7, ⟨.ready, qb, 0, 0, 0, 0, 0⟩)] } : State).qp? 2 = some (7, ⟨.ready, qb, 0, 0, 0, 0, 0⟩)
    ∧ resetOk 0 0 = true ∧ resetOk 1 199 = true := by decide +kernel

theorem witness_SetupCommandResults_open : ∃ rkey psn v, open1.openQp qb = (rkey, psn, v) := ⟨_, _, _, rfl⟩

/-- A device that is its own lead. -/
def solo (d : DevSt) : State := te d [own]

/-- A run of two positions of which this is the second. -/
def tb : TeamBody := ⟨0, 1, false, 64, 2, 0, 0, 0, 0, 0, 0, 0, [⟨0, []⟩, ⟨1, []⟩], [], []⟩
def second (d : DevSt) : State :=
  { te d [own] with image := some { img with position := 1, positions := 2 }, recov := { team := some tb } }

theorem witness_RunCommandResults : LoadBody.ok ⟨0, 0, 512, [], []⟩ = true ∧ DevSt.loads .loaded = true
    ∧ (solo .loaded).power.ledgerOk = false
    ∧ (let w : Power := { ledgerOk := true, worn := true }; ({ solo .loaded with power := w } : State).power.ledgerOk = true ∧ w.worn = true) ∧ ({ solo .loaded with power := { ledgerOk := true } } : State).power.worn = false
    ∧ decide (tb.holders.length = tb.npos) = true ∧ (second .ready).teamRefusal tb = none
    ∧ (solo .ready).teamRefusal { tb with npos := 65 } = some 1
    ∧ (solo .loaded).teamRefusal { tb with spare := true } = none
    ∧ (5 : Nat) < (solo .ready).now + 1000000 ∧ (solo .ready).now + 1000000 ≤ 1000000 ∧ (solo .ready).teamFails = false
    ∧ ({ solo .ready with recov := { team := some { tb with nspare := 1, holders := [⟨0, [0]⟩] } } } : State).teamFails = true
    ∧ DevSt.inRun .halted = true ∧ (solo .halted).dev = .halted ∧ (solo .running).dev ≠ .halted ∧ (solo .running).dev ≠ DevSt.faulted
    ∧ (solo .running).ownLead = true ∧ (second .running).ownLead = false ∧ (second .running).leadPos = some 0
    ∧ ({ solo .halted with reason := .host } : State).reason = .host ∧ ({ solo .halted with reason := .host } : State).ownLead = true ∧ (solo .halted).reason ≠ .host ∧ (solo .halted).reason ≠ .hbm
    ∧ ({ solo .running with sec := { keyOk := true } } : State).sec.keyOk = true
    ∧ ({ solo .running with image := some { img with positions := 1 } } : State).isLead = true ∧ (solo .running).isLead = false
    ∧ decide ((List.replicate 48 (0 : Byte)).length = 48) = true := by decide +kernel

theorem pair_some {α β : Type} (p : α × Option β) (h : p.2.isSome = true) : ∃ v r, p = (v, some r) := by
  obtain ⟨v, o⟩ := p
  obtain ⟨r, hr⟩ := Option.isSome_iff_exists.mp h
  exact ⟨v, r, by rw [← hr]⟩

theorem witness_RunCommandResults_refused : ∃ v r, (solo .loaded).loadImage 0 0 512 [] [] 0 = (v, some r) :=
  pair_some _ (by decide +kernel)

/-- That state with the queue pair open at entry 7, its toll at `v`. -/
def host1 (v : Nat) : State :=
  { open1 with qps := [(7, ⟨.ready, qb, 9, 0, 0, 0, 0⟩)], gs := [(5, { mode := .counter, value := v })] }

theorem witness_HostTrafficResults : (host1 64).QpReady 2 7 ⟨.ready, qb, 9, 0, 0, 0, 0⟩ ∧ qb.chan = true
    ∧ (List.replicate 64 (0 : Byte)).length % 64 = 0 ∧ (List.replicate 64 (0 : Byte)).length ≠ 0
    ∧ (List.replicate 256 (0 : Byte)).length ≤ 256 ∧ (⟨.ready, qb, 9, 0, 0, 0, 0⟩ : Qp).st = .ready ∧ (host1 64).dev ≠ .recovering ∧ (host1 64).dev ≠ .halted
    ∧ (host1 64).chanOf 0 0 = some { valid := true, src := 1, size := 64, sender := 2 }
    ∧ ((host1 0).gsem 5).value < (({ size := 64, wrPos := 0 } : OPort).plan 1).1
    ∧ (({ size := 64, wrPos := 0 } : OPort).plan 1).1 ≤ ((host1 64).gsem 5).value
    ∧ (⟨.ready, qb, 9, 0, 0, 0, 0⟩ : Qp).inWindow 9 (2 ^ 19 - 1) 1 = true ∧ (⟨.ready, qb, 9, 0, 0, 0, 0⟩ : Qp).inWindow 9 (2 ^ 19 - 1) 2 = false
    ∧ (⟨.ready, qb, 9, 0, 0, 0, 0⟩ : Qp).inWindow 8 0 1 = false
    ∧ (∀ x ∈ (((host1 64).gotFrames 0 1).hbmTouch 0 4 true).hbmBytes 0 4, x.2 = false) := by
  refine ⟨⟨by decide, by decide, by decide⟩, by decide, by decide, by decide, Nat.le_of_eq List.length_replicate, rfl, by decide, by decide, by decide, by decide,
    by decide, by decide, by decide, by decide, by decide +kernel⟩

theorem witness_HostTrafficResults_link : (te .ready []).dev ≠ .off ∧ (te .ready []).rst.warm = false ∧ ((te .ready []).hport 0).pfc = true
    ∧ ((te .ready []).hport 0).gaddrs.length < 4 ∧ (1 : BitVec 64) ∉ ((te .ready []).hport 0).gaddrs
    ∧ (te .ready []).linkLocal 0 ∈ (te .ready []).addresses 0 ∧ (0 : BitVec 128) ∉ allNodes :: (te .ready []).addresses 0
    ∧ ((te .ready []).hport 0).up = false ∧ ((te .ready []).hport 0).enable = true ∧ ((te .ready []).hport 0).upSpeed 1 ≠ 0
    ∧ (te .ready []).dev ≠ .rom ∧ (DropKind.other = .macsec → ((te .ready []).hport 0).macsec = true)
    ∧ (DropKind.macsec = .macsec → ({ ({} : HPort) with macsec := true } : HPort).macsec = true) := by decide +kernel

/-! ### The hypotheses of the statements are met: recovery and updates -/

/-- One position whose step-end belay 0 waits for base camp alone. -/
def stepping : State :=
  { State.reset with
    image := some { img with positions := 1 }, dev := .running,
    gs := [(0, { mode := .belay, count := 2, value := 1 })] }

/-- The base camp of a run of two positions: its own place, the state and the role it plays. -/
def team2 (p : Nat) (d : DevSt) : State :=
  { te d [own] with
    image := some { img with position := p, positions := 2 }, recov := { team := some { tb with self := p, holders := [⟨0, [1]⟩, ⟨1, [0]⟩] } } }

theorem witness_StepAndWaybillResults : (⟨.control 3, 0⟩ : PReport) ∈ ({ State.reset with reportsOut := [⟨.control 3, 0⟩] } : State).reportsOut
    ∧ 3 ∈ ({ State.reset with faultsOut := [3] } : State).faultsOut
    ∧ stepping.image = some { img with positions := 1 } ∧ stepping.othersArrived = true ∧ stepping.arrived = false
    ∧ stepping.recov.haltPosted = false ∧ stepping.recov.phase = 0 ∧ stepping.sec.folded = true ∧ stepping.reports = []
    ∧ 0 < ({ stepping with stepReleases := 1, arrived := true } : State).stepReleases
    ∧ (State.tookMgmt (team2 0 .running) 0x41 []).isLead = true ∧ (State.tookMgmt (team2 1 .running) 0x41 []).isDeputy = true
    ∧ ((State.tookMgmt { State.reset with recov := { takeover := some (0, 0, 0) } } 0x42 []).recov.takeover).isSome = true
    ∧ (State.tookMgmt (team2 1 .running) 0x43 []).image.isSome = true ∧ (State.tookMgmt (team2 1 .running) 0x43 []).sec.keyOk = true
    ∧ (State.tookMgmt (team2 1 .running) 0x43 []).leadPos = some 0
    ∧ (List.replicate 368 (0 : Byte)).length = 368 := by decide +kernel

theorem witness_StepAndWaybillResults_build (w : List W64) (b : WbBuild) :
    (State.tookMgmt { State.reset with sec := { build := some b } } 0x44 w).sec.build = some b := rfl

/-- A time of 50 ms and more. -/
def late (s : State) : State := { s with clock := { gtc := 50000000 * 256 } }

theorem witness_LeadResults : (State.tookMgmt (team2 0 .running) 0x01 [0, 0, 0]).isLead = true
    ∧ (late (team2 0 .running)).lastBeat (BitVec.ofNat 64 1) + 50000000 ≤ (late (team2 0 .running)).now
    ∧ (late (team2 0 .running)).recov.team.isSome = true ∧ (late (team2 0 .running)).dev = .running
    ∧ (State.tookMgmt (team2 1 .running) 0x02 []).isLead = false
    ∧ some (⟨0, 9, 0, 1, 0, 0⟩ : LedgerEntry).position ≠ (State.tookMgmt (team2 0 .running) 0x02 []).image.map Image.position
    ∧ (State.tookMgmt (team2 1 .running) 0x0A []).isDeputy = true
    ∧ (State.tookMgmt (team2 1 .running) 0x0A []).recov.mirror.length < 1024
    ∧ ((State.tookMgmt (team2 1 .running) 0x03 []).heardLead none).image.isSome = true
    ∧ ((State.tookMgmt (team2 1 .running) 0x03 []).heardLead none).dev = .running
    ∧ ((State.tookMgmt (team2 1 .running) 0x03 []).heardLead none).isLead = false
    ∧ ((State.tookMgmt (team2 1 .running) 0x03 []).heardLead none).recov.haltPosted = false := by decide +kernel

/-- A report of a class the lead acts on, one that the lead sends back, and one that another position only consumes. -/
def rep (cls state : Nat) : LedgerEntry := ⟨0, cls, state, 1, 0, 0⟩

theorem witness_LeadResults_report : (let u := (team2 0 .running).tookMgmt 0x02 (rep 9 0).words
       u.isLead = true ∧ u.spareLink ((team2 0 .running).mgmtFrom 0x02 (rep 9 0).words) (rep 9 0) = none
       ∧ some (rep 9 0).position ≠ u.image.map Image.position) ∧ (rep 9 0).cls = 9
    ∧ (let u := (team2 1 .running).tookMgmt 0x02 (rep 15 5).words; u.isLead = false ∧ u.image.isSome = true)
    ∧ ((rep 15 5).cls = 15 ∨ (rep 15 5).cls = 16) ∧ (rep 15 5).state = 5
    ∧ ((team2 1 .running).tookMgmt 0x02 (rep 10 0).words).isLead = false ∧ (rep 10 0).cls < 11
    ∧ (((team2 1 .running).tookMgmt 0x03 [BitVec.ofNat 64 (team2 1 .running).teamNo, 0, 0]).heardLead none).teamNo
      = (team2 1 .running).teamNo := by decide +kernel

/-- The second position of that team, halted at step 0, and its lead, which waits for position 1 to be restored. -/
def stopped : State :=
  { team2 1 .halted with recov := { (team2 1 .halted).recov with haltPosted := true, halted := true } }
def waits1 : State := { team2 0 .halted with recov := { (team2 0 .halted).recov with waits := [(1, 11)] } }

theorem witness_LeadResults_restart : stopped.image.isSome = true ∧ stopped.recov.haltPosted = true ∧ stopped.recov.halted = true
    ∧ stopped.recov.recStep = 0 ∧ (stopped.tookMgmt 0x09 []).isLead = false
    ∧ (waits1.tookMgmt 0x08 []).isLead = true ∧ (waits1.tookMgmt 0x08 []).recov.recStep = 0
    ∧ (1, 11) ∈ (waits1.tookMgmt 0x08 []).recov.waits
    ∧ 0 ∈ ({ mapped rt with rowsDue := [0] } : State).rowsDue
    ∧ ({ mapped rt with rowsDue := [0] } : State).startAt.toNat ≤ ({ mapped rt with rowsDue := [0] } : State).now
    ∧ ({ mapped rt with rowsDue := [0] } : State).image.isSome = true
    ∧ 0 ∈ ({ mapped rt with rowsDue := [0] } : State).tileMap := by decide +kernel

/-- An update unit's program: 32 parameters of one reduction, BF16 moments, one update group. -/
def red0 : RedDesc := { rid := 7, n := 2, fmt := 0, outFmt := 0, dispose := 1, log := false, e32 := 1, nblocks := 1, slots := 1 }
def upd0 : UpdDesc :=
  { rid := 7, mfmt := 1, vfmt := 1, master := (0, 0), m := (2 ^ 21, 2 ^ 21), v := (2 ^ 22, 2 ^ 22) }
def learn : State :=
  { team2 0 .running with
    reds := [red0], upds := [upd0], groups := [{}], redBlocks := [(7 * 2 ^ 32, { applied := [0, 1], complete := true, logAcked := true })] }

theorem witness_CairnResults : learn.recov.haltPosted = false ∧ learn.chunkCount = 1
    ∧ ({ learn with recov := { learn.recov with stream := some (4, 0) } } : State).nextChunk = some (0, 4)
    ∧ ({ learn with recov := { learn.recov with stream := some (4, 0) } } : State).holderOf 0 = some 1
    ∧ (learn.delivered.find? fun r => isCommitOf (commitBytes 0 0 0 0 0) r.body) = none
    ∧ learn.mayAct (.log ⟨0, 7, 0, 1, 0, 1, []⟩) = true
    ∧ (learn.tookBody (.log ⟨0, 7, 0, 1, 0, 1, []⟩)).pageBusy 1 0 = false
    ∧ (({ learn with recov := { learn.recov with log := [(1, 64, 7, 0, true)] } } : State).tookBody (.log ⟨0, 7, 0, 1, 0, 1, []⟩)).pageBusy 1 0 = true
    ∧ (([⟨0, 7, 0, 1, 0, 1, []⟩] : List RecLog).find? fun r => !learn.pageBusy r.owner (BitVec.ofNat 64 r.step))
      = some ⟨0, 7, 0, 1, 0, 1, []⟩
    ∧ ({ learn with recov := { learn.recov with candValid := true, halted := true, cand := 9 } } : State).recov.cand ∉ img.repair := by
  decide +kernel

/-- A record of an owner of whom one waits already; and the log's acknowledgement with its reduction and without. -/
theorem witness_CairnResults_log : (∃ x ∈ (({ learn with recov := { learn.recov with logWaiting := [⟨0, 7, 0, 1, 0, 1, []⟩] } } : State).tookBody
      (.log ⟨1, 7, 0, 1, 0, 1, []⟩)).recov.logWaiting, x.owner = 1)
    ∧ (¬ ((learn.tookBody (.log ⟨0, 7, 0, 1, 0, 1, []⟩)).pageBusy 1 0 = true
        ∨ ∃ x ∈ (learn.tookBody (.log ⟨0, 7, 0, 1, 0, 1, []⟩)).recov.logWaiting, x.owner = 1))
    ∧ (learn.tookMgmt 0x07 []).sumDesc 8 = none ∧ (learn.tookMgmt 0x07 []).sumDesc 7 = some red0 := by decide +kernel

/-- A spare that is armed. -/
def sparing : State := { te .armed [own] with recov := { team := some { tb with spare := true, self := 5 } } }

theorem witness_CairnResults_spare : ((sparing.tookMgmt 0x04 []).heardLead none).recov.team = some { tb with spare := true, self := 5 }
    ∧ ({ tb with spare := true, self := 5 } : TeamBody).spare = true ∧ ((sparing.tookMgmt 0x04 []).heardLead none).dev = .armed := by
  decide +kernel

/-- A position taken over at step 1, its only chunk of step 0 staged at the head of segment 0: 256 bytes of arrays. -/
def staged : State :=
  { learn with
    dev := .halted, hbm := { map := [(0, BitVec.ofNat 64 (2 ^ 62))], bytes := [(25, 1)] },
    recov := { learn.recov with halted := true, recStep := 1, staging := some (0, 2 ^ 20), takeover := some (0, 1, 1) } }

theorem witness_CairnResults_restore : staged.recov.staging = some (0, 2 ^ 20) ∧ staged.recov.halted = true ∧ staged.recov.phase ≠ 4
    ∧ (staged.toRestore.map fun q => (staged.stagedTag 0 q).map fun x => (q, x)) = [((0 : Nat), (0 : W64))].map some
    ∧ ([((0 : Nat), (0 : W64))].map fun (x : Nat × W64) => x.2.toNat).foldl Nat.min staged.recov.recStep.toNat = 0 := by
  decide +kernel

theorem witness_CairnResults_replay : ∃ v, ((List.range 1).map fun i => 0 + i).foldl (State.replayStep (2 ^ 20) [(0, 0)])
    (some (State.copyChunk staged 0 (0, 0))) = some v :=
  Option.isSome_iff_exists.mp (by decide +kernel)

/-- A block in the queue of the unit of depot 0, stack 0. -/
def ub : UBlock := ⟨0, 7, 0, 0, List.replicate 32 ⟨0x3F800000, false⟩, false, false, [], false⟩
def queued (b : UBlock) (g : List UpdGroup) : State :=
  { learn with depots := [(0, { hbmStacks := [(0, { upd := { queue := [b] } })] })], groups := g }

theorem witness_UpdateResults : (learn.sumDesc 7).isSome = true ∧ learn.updOf 7 = some (0, upd0)
    ∧ (learn.redBlock 7 0).complete = true ∧ (learn.redBlock 7 0).disposed = false ∧ (learn.redBlock 7 0).logAcked = true
    ∧ (learn.redBlock 7 0).released = false ∧ (learn.updUnit 0 (learn.updStack upd0 0 learn.step.toNat)).room = true
    ∧ ((queued ub [{}]).updUnit 0 0).queue = [ub] ∧ (queued ub [{}]).upds[ub.desc]? = some upd0 ∧ ub.written = false
    ∧ (queued ub [{}]).blockGroup upd0 ub = some {} ∧ (queued ub []).blockGroup upd0 ub = none
    ∧ ((queued { ub with written := true } [{}]).updUnit 0 0).queue = [{ ub with written := true }]
    ∧ (ub.writes.any fun w => (queued ub [{}]).cairnHolds (w.1 / 2 ^ 19)) = false := by decide +kernel

theorem witness_UpdateResults_rule : ∃ r, (queued ub [{}]).updCompute upd0 {} ub.block ub.step ub.data = some r :=
  Option.isSome_iff_exists.mp (by decide +kernel)


/-- A written block whose first segment a cairn streams: the chunk of step 4, not acknowledged (R352). -/
def holding : State :=
  { queued { ub with written := true, writes := [(0, [(1, false)])] } [{}] with recov := { learn.recov with stream := some (4, 0) } }

theorem witness_UpdateResults_holds : (holding.updUnit 0 0).queue = [{ ub with written := true, writes := [(0, [(1, false)])] }]
    ∧ holding.upds[ub.desc]? = some upd0
    ∧ (([(0, [(1, false)])] : List (Nat × List (Byte × Bool))).any fun w => holding.cairnHolds (w.1 / 2 ^ 19)) = true := by decide +kernel

/-! ### Values that the spec's tables and worked cases give -/

/-- The state after a command; reset where it stops. -/
def after (r : Host.Outcome State Fault Refusal) : State := match r with
  | .next t => t
  | _ => State.reset

/-- The general register that a scalar instruction of tile 0 has in flight. -/
def flown (r : Host.Outcome State Fault Refusal) : List Effect := ((after r).tile 0).flight.map InFlight.eff

-- spec/03_tile_bundles.md, the bundle 0x016 of the loop case: its SC field is `lcseti lc0, 7`
theorem test_lcseti_word : scOpc 0x6100000000000007 = 0x61 ∧ scFields 0x6100000000000007 = ⟨0, 0, 0, 0, 7⟩
    ∧ scWord 0x61 ⟨0, 0, 0, 0, 7⟩ = 0x6100000000000007 ∧ scOk 0x61 (scFields 0x6100000000000007) = true := by decide

/-- Tile 0 at bundle 0x015 of the loop case, in the second iteration of the outer loop; bundle 0x016 ends both bodies. -/
def nested (lc1 : W32) : Tile :=
  { rt with pc := 0x015, lc := [(0, ⟨7, 1⟩), (1, ⟨lc1, 0⟩)], loops := [⟨0, 0x012, 5, 2⟩],
            imem := [(0x016, BitVec.ofNat 384 (0x6100000000000007 * 2 ^ 32 + 0x180C0000))] }

-- the same, cycle 12: the skipped bundle's LEND0 ends the outer loop, and 0x017 is next
theorem test_loop_zero : ((after (execLoop 0 (sc 0 0 0 1 1) (on (nested 0)))).tile 0).ctl = .jump 0 0x017
    ∧ ((after (execLoop 0 (sc 0 0 0 1 1) (on (nested 0)))).tile 0).loops = [] := by decide +kernel

-- cycle 6: one iteration of the inner loop
theorem test_loop_one : ((after (execLoop 0 (sc 0 0 0 1 1) (on (nested 1)))).tile 0).ctl = .jump 0 0x016
    ∧ ((after (execLoop 0 (sc 0 0 0 1 1) (on (nested 1)))).tile 0).loops = [⟨1, 0x016, 1, 1⟩, ⟨0, 0x012, 5, 2⟩] := by decide +kernel

-- R63: quotient and remainder of a zero divisor
theorem test_divu_zero : flown (execDivu 0 (sc 3 1 2 0 0) (on (rg 5 0))) = [.g 3 (BitVec.allOnes 64) false]
    ∧ flown (execRemu 0 (sc 3 1 2 0 0) (on (rg 5 0))) = [.g 3 5 false] := by decide

theorem test_sar : flown (execSar 0 (sc 3 1 2 0 0) (on (rg (BitVec.ofInt 64 (-8)) 1))) = [.g 3 (BitVec.ofInt 64 (-4)) false] := by decide

-- spec/02_arithmetic.md, one exact block: 1.0 + 2⁻⁸
def e4m3 : MxFmt := (mxFmt [] 3).getD (.half 0)

theorem test_exact_block : (addContrib 0x3F800000 (dotBlock e4m3 e4m3
    ⟨([0x7E, 0x01, 0xFE] ++ List.replicate 29 0).map fun c => (c, false), [(0x82, false)]⟩
    ⟨([0x7E, 0x38, 0x7E] ++ List.replicate 29 0).map fun c => (c, false), [(0x7D, false)]⟩ 0 0).1).1 = 0x3F808000 := by
  decide +kernel

-- the same, a 6-bit format: +6.0, NaN, −0.125, −56.0
theorem test_six_bit : (tableDecode 0x10020040).dy.eq ⟨6, 0⟩ = true ∧ tableDecode 0x40000000 = .nan
    ∧ (tableDecode 0x20FF0020).dy.eq ⟨-1, -3⟩ = true ∧ (tableDecode 0x30050060).dy.eq ⟨-56, 0⟩ = true := by decide

-- the same, a curve lookup: segment 174, u = 0.25
theorem test_curve_segment : (curveSegment 0 (-4) 3 0xC0540000).1 = 174
    ∧ (curveSegment 0 (-4) 3 0xC0540000).2.eq ⟨1, -2⟩ = true := by decide

-- spec/06_belays_channels.md: the toll grant of s40 of logical tile 37 on chip 17
theorem test_reference : refChip 0x0000110000250028 = 17 ∧ refKind 0x0000110000250028 = 0 ∧ refIndex 0x0000110000250028 = 40
    ∧ refClean 0x0000110000250028 = true ∧ refLocal 17 37 40 = 0x0000110000250028 := by decide

-- the same, a pad at the end of the ring: 6 tolls, entries from 0
theorem test_pad : ({ size := 64, wrPos := 62 } : OPort).plan 4 = (6, 0, true)
    ∧ ({ size := 64, wrPos := 60 } : OPort).plan 4 = (4, 60, false) := by decide

/-- The belay gs3100 of the early entrant, where C's first arrival and a third one of A are due. -/
def gs3100 (nxt : Nat) : State := { State.reset with gs := [(3100, { mode := .belay, count := 3, value := 2, nxt := nxt })] }

-- the same, an early entrant: generation 0 completes with A's early arrival counted; an arrival two ahead overruns
theorem test_belay_completes : (((gs3100 1).belayArrive (2 ^ 62 + 3100) 0).gsem 3100).gen = 1
    ∧ (((gs3100 1).belayArrive (2 ^ 62 + 3100) 0).gsem 3100).value = 1
    ∧ (((gs3100 1).belayArrive (2 ^ 62 + 3100) 0).gsem 3100).nxt = 0 := by decide +kernel

theorem test_belay_overrun : (((gs3100 1).belayArrive (2 ^ 62 + 3100) 2).gsem 3100).overrun = true := by decide +kernel

/-- A reply with the stamps of the waypoint case, and the GTC at its arrival, in 1/256 ns. -/
def wp : RecWaypoint := ⟨1000400 * 256, 1000000 * 256, 1000150 * 256 + 64, 0, true⟩

-- spec/08_clocks_time.md, one waypoint exchange: TIME_OFFSET 0x9C0; TIME_TRIM +2,437 where the drift estimate is zero
theorem test_waypoint : (State.reset.steer wp (1000530 * 256 + 192)).clock.offset = 0x9C0 ∧ trimOf 0 0x9C0 = 2437 := by
  refine ⟨?_, by decide⟩
  show (((wp.t2 : Int) - wp.t1) - (((1000530 * 256 + 192 : Nat) : Int) - wp.t3)) / 2 = 0x9C0
  decide

-- spec/09_caravan.md: five contributions in the fixed order end at +0
theorem test_fixed_order : ([0x3F800000, 0x33800000, 0x33800000, 0xBF800000, 0].foldl
    (fun (b : RedBlock) (w : W32) => (b.apply b.next [⟨w, false⟩]).1) {}).sum = [⟨0, false⟩] := by decide

/-- Group 3 of the update case. -/
def group3 : UpdGroup := ⟨0x3A800000, 0x3F600000, 0x3F7C0000, 0x35800000, 0x3C000000, 0x7F800000, 0, 0⟩

-- spec/11_update_unit.md, the first update of a block: the scalars, and elements 0 and 5
theorem test_update_scalars : (updScalars [] group3 0).lrs = 0x3A800000 ∧ (updScalars [] group3 0).c1 = 0x3E000000
    ∧ (updScalars [] group3 0).o1 = 0x3E000000 ∧ (updScalars [] group3 0).c2 = 0x3C800000
    ∧ (updScalars [] group3 0).o2 = 0x3C800000 ∧ (updScalars [] group3 0).dw = 0x37000000 := by decide +kernel

theorem test_update_element0 : (updParam group3 (updScalars [] group3 0) 0x3E800000 0x3FC00000 0 0).1
    = (0x3FBFDFA0, 0x3D000000, 0x3A800000) := by decide +kernel

theorem test_update_element5 : (updParam group3 (updScalars [] group3 0) 0 0xBF000000 0 0).1 = (0xBEFFFF80, 0, 0) := by
  decide +kernel

-- the same bundle's header: P_SC, LEND1 and LEND0, no STOP, no other slot
theorem test_header : bundlePresent 0x180C0000 27 = true ∧ bundleLend 0x180C0000 = 3 ∧ bundleStop 0x180C0000 = false
    ∧ (List.range 5).all (fun k => !bundlePresent 0x180C0000 (22 + k)) = true := by decide

-- spec/06_belays_channels.md: the SY fields of `send oc2, [g14], 4` with s9, and of a `recv` with MASK 0x0004
theorem test_sync_words : syOpc 0x60B74900 = 0x18 ∧ syWordOk 0x60B74900 = true ∧ syOpc 0x80860004 = 0x20
    ∧ syWordOk 0x80860004 = true := by decide

-- R146: a sum above 0xFFFF saturates, a difference below 0 is 0; a cycle's increments come before its decrements
theorem test_semaphore : ({ value := 0xFFFE, incs := 2 } : Sem).settle = { value := 0xFFFF, ovf := true }
    ∧ ({ value := 0xFFFE, incs := 1 } : Sem).settle = { value := 0xFFFF }
    ∧ ({ value := 1, decs := 2 } : Sem).settle = { value := 0, unf := true }
    ∧ ({ value := 0, incs := 2, decs := 2 } : Sem).settle = { value := 0 } := by decide

/-! ### An image that loads (R178 to R182, R189, R198): one tile, one bundle that stops, the step-end belay -/

/-- A directory entry for position 0. -/
def dirEntry (typ tile off len : Nat) : List Byte :=
  leBytes 2 typ ++ [1, 0] ++ leBytes 2 0 ++ leBytes 2 tile ++ List.replicate 8 0 ++ leBytes 8 off ++ leBytes 8 len

/-- Manifest, directory, a STOP bundle, PORTS with bp0 bound to gs0, and the configuration of gs0: a belay of two. -/
@[irreducible] def imgHead : List Byte :=
  leBytes 4 0x49505841 ++ [1, 1, 0, 0] ++ leBytes 8 66432 ++ leBytes 2 3 ++ [1, 1] ++ leBytes 4 1 ++ leBytes 8 0 ++ leBytes 4 4
    ++ List.replicate 220 0
    ++ dirEntry 1 0xFFFF 384 48 ++ dirEntry 6 0 448 448 ++ dirEntry 7 0xFFFF 896 65536 ++ List.replicate 32 0
    ++ leBytes 4 0x10020000 ++ List.replicate 60 0
    ++ leBytes 8 (2 ^ 63) ++ List.replicate 440 0
    ++ leBytes 8 (2 ^ 63 + 2)

@[irreducible] def imgBytes : List Byte := imgHead ++ List.replicate 65528 0

/-- The data of its GLOBALS section. -/
@[irreducible] def imgGlobals : List Byte := leBytes 8 (2 ^ 63 + 2) ++ List.replicate 65528 0

/-- Its sections. -/
def imgDir : List Section :=
  [⟨1, 1, 0, 0, 0xFFFF, 0, 0, 384, (imgHead.drop 384).take 48⟩, ⟨6, 1, 0, 0, 0, 0, 0, 448, (imgHead.drop 448).take 448⟩,
   ⟨7, 1, 0, 0, 0xFFFF, 0, 0, 896, imgGlobals⟩]

def imgMan : Manifest := ⟨66432, 3, 1, 1, 1, 0, 4, 0, 0, 0⟩

def imgCheck : Checked := ⟨imgBytes, imgMan, imgDir, imgDir, 0, []⟩

theorem leAt_zeros (a : List Byte) (m off n : Nat) (h : a.length ≤ off) : leAt (a ++ List.replicate m 0) off n = 0 := by
  have z : ∀ k : Nat, (List.replicate k (0 : Byte)).foldr (fun x acc => x.toNat + 256 * acc) 0 = 0 := by
    intro k
    induction k with
    | zero => rfl
    | succ k ih => rw [List.replicate_succ, List.foldr_cons, ih]; rfl
  rw [leAt, List.drop_append, List.drop_eq_nil_of_le h, List.nil_append, List.drop_replicate, List.take_replicate, z]

theorem imgMan_eq : manifestOf imgBytes = imgMan := by decide +kernel

theorem entryOf_eq (b : List Byte) (i len : Nat) (x : Section)
    (h : [leAt b (256 + 32 * i) 2, leAt b (256 + 32 * i + 2) 1, leAt b (256 + 32 * i + 3) 1, leAt b (256 + 32 * i + 4) 2,
      leAt b (256 + 32 * i + 6) 2, leAt b (256 + 32 * i + 8) 2, leAt b (256 + 32 * i + 10) 2, leAt b (256 + 32 * i + 16) 8,
      leAt b (256 + 32 * i + 24) 8] = [x.typ, x.sver, x.dflags, x.index, x.tile, x.posLo, x.posHi, x.offset, len])
    (d : slice b x.offset len = x.data) : entryOf b i = x := by
  simp only [List.cons.injEq, and_true] at h
  obtain ⟨h1, h2, h3, h4, h5, h6, h7, h8, h9⟩ := h
  simp only [entryOf, h1, h2, h3, h4, h5, h6, h7, h8, h9, d]

/-- The GLOBALS section. -/
def imgLast : Section := ⟨7, 1, 0, 0, 0xFFFF, 0, 0, 896, imgGlobals⟩

theorem imgDir_eq : directoryOf imgBytes 3 = imgDir := by
  show [entryOf imgBytes 0, entryOf imgBytes 1, entryOf imgBytes 2] = imgDir
  have l : imgHead.length = 904 := by decide +kernel
  rw [entryOf_eq imgBytes 0 48 ⟨1, 1, 0, 0, 0xFFFF, 0, 0, 384, (imgHead.drop 384).take 48⟩ (by decide +kernel) (by decide +kernel),
    entryOf_eq imgBytes 1 448 ⟨6, 1, 0, 0, 0, 0, 0, 448, (imgHead.drop 448).take 448⟩ (by decide +kernel) (by decide +kernel),
    entryOf_eq imgBytes 2 65536 imgLast (by decide +kernel) ?_]
  · rfl
  · have e : imgHead.drop 896 = leBytes 8 (2 ^ 63 + 2) := by decide +kernel
    have n : (imgHead.drop 896 ++ List.replicate 65528 (0 : Byte)).length ≤ 65536 := by
      rw [List.length_append, List.length_drop, l, List.length_replicate]
    rw [show imgLast.data = imgGlobals from rfl, show imgLast.offset = 896 from rfl, slice, imgBytes, List.drop_append_of_le_length (by rw [l]; decide), List.take_of_length_le n, e, imgGlobals]

theorem firstOf_none (l : List (Option Refuse)) (h : ∀ o ∈ l, o = none) : firstOf l = none := by
  rw [firstOf, List.findSome?_eq_none_iff]
  exact h

theorem all_none (l : List (Option Refuse)) (h : (l.all fun o => o.isNone) = true) : ∀ o ∈ l, o = none :=
  fun o m => Option.isNone_iff_eq_none.mp (List.all_eq_true.mp h o m)

theorem must_none (b : Bool) (r : Refuse) (h : b = true) : must b r = none := by simp [must, h]

/-- Every word of GLOBALS behind the first one is 0. -/
theorem globals_zero (off n : Nat) (h : 8 ≤ off) : leAt imgGlobals off n = 0 :=
  by
  rw [imgGlobals]
  exact leAt_zeros _ _ off n (by rw [show (leBytes 8 (2 ^ 63 + 2)).length = 8 by decide]; exact h)

theorem gsWord_later (n : Nat) (h : n ≠ 0) : gsWord imgGlobals n = 0 := globals_zero _ _ (by omega)

theorem gsList_empty (n : Nat) : gsListLen imgGlobals n = 0 := globals_zero _ _ (by omega)

theorem gsOf_later (n : Nat) (h : n ≠ 0) : gsOf imgGlobals n = {} := by
  simp [gsOf, gsWord_later n h, gsChildren, gsList_empty, bitsAt]

theorem gsOf_first : gsOf imgGlobals 0 = { mode := .belay, count := 2 } := by decide +kernel

theorem img_globals : imgCheck.bytes 7 0 0 0xFFFF = imgGlobals := by
  have h : sectionAt imgDir 7 0 0 0xFFFF = some imgLast := by
    simp [sectionAt, imgDir, imgLast, Section.applies, Section.advisory]
  show ((sectionAt imgDir 7 0 0 0xFFFF).map Section.data).getD [] = imgGlobals
  rw [h]
  rfl

theorem img_layouts : imgCheck.layouts = none := by
  apply firstOf_none
  intro o h
  have e5 : imgCheck.mine 5 = [] := by decide +kernel
  have e6 : (imgCheck.mine 6).map (fun x => must (portsOk x.2.data) { code := 3, sec := x.1, tile := tileByte x.2 }) = [none] := by
    decide +kernel
  have e7 : imgCheck.mine 7 = [(2, imgLast)] := by
    simp [Checked.mine, imgCheck, imgDir, imgLast, numbered, List.range_succ, Section.applies, Section.advisory]
  rw [e5, e6, e7] at h
  simp only [List.map_nil, List.nil_append, List.flatMap_cons, List.flatMap_nil, List.append_nil, List.mem_append, List.mem_cons,
    List.mem_map, List.mem_range, List.not_mem_nil, or_false] at h
  obtain rfl | rfl | ⟨n, hn, rfl⟩ := h
  · rfl
  · exact must_none _ _ (by decide +kernel)
  · apply must_none
    rw [show imgLast.data = imgGlobals from rfl]
    simp only [globalsOk, gsList_empty]
    by_cases h0 : n = 0
    · subst h0; decide +kernel
    · rw [gsWord_later n h0]; rfl

theorem img_children : imgCheck.childrenOf 0 0 0 = 0 := by
  have h : ((List.range 4096).filter fun k => decide (gsWord imgGlobals k / 2 ^ 62 = 2)
      && decide ((gsOf imgGlobals k).parent = some (0, 0))) = [] := by
    rw [List.filter_eq_nil_iff]
    intro k _
    by_cases h0 : k = 0
    · subst h0; rw [gsOf_first]; simp
    · simp [gsOf_later k h0]
  rw [Checked.childrenOf, img_globals]
  simp only [h]
  decide +kernel

theorem participants_one (c : Checked) (n x y z : Nat) (h : c.allPositions = [0])
    (b : ((c.bindings 0).filter fun b => decide (b = (c.position, n))).length = x) (k : c.childrenOf 0 c.position n = y)
    (a : c.agents n = z) : c.participants n = x + y + z := by
  simp [Checked.participants, h, b, k, a]

theorem img_belay : imgCheck.participants 0 = 2 :=
  participants_one imgCheck 0 1 0 1 (by decide +kernel) (by decide +kernel) img_children (by decide +kernel)

theorem img_belayOk (n : Nat) : imgCheck.belayOk imgGlobals n = true := by
  by_cases h : n = 0
  · subst h
    have t : imgCheck.treeOk 4 imgCheck.position 0 = true := by decide +kernel
    rw [Checked.belayOk, gsOf_first, img_belay, t]
    rfl
  · rw [Checked.belayOk, gsOf_later n h]
    rfl


theorem firstOf_all (l : List (Option Refuse)) (h : (l.all fun o => o.isNone) = true) : firstOf l = none := firstOf_none l (all_none l h)

theorem firstOf_append (a b : List (Option Refuse)) (ha : firstOf a = none) (hb : firstOf b = none) : firstOf (a ++ b) = none := by
  simp only [firstOf, List.findSome?_append] at *
  rw [ha, hb]
  rfl

theorem firstOf_map {α : Type} (l : List α) (f : α → Option Refuse) (h : ∀ x ∈ l, f x = none) : firstOf (l.map f) = none :=
  firstOf_none _ fun o m => by obtain ⟨x, hx, rfl⟩ := List.mem_map.mp m; exact h x hx

theorem img_sync : imgCheck.sync = none := by
  unfold Checked.sync
  refine firstOf_append _ _ (firstOf_append _ _ (firstOf_all _ ?_) (firstOf_all _ ?_)) (firstOf_map _ _ fun n _ => must_none _ _ ?_)
  · decide +kernel
  · decide +kernel
  · have e : imgCheck.bytes 7 0 imgCheck.position 0xFFFF = imgGlobals := img_globals
    rw [e]
    exact img_belayOk n

theorem img_timetables : imgCheck.timetables = none := by
  unfold Checked.timetables
  refine firstOf_append _ _ (firstOf_all _ ?_) (firstOf_map _ _ fun n _ => must_none _ _ ?_)
  · decide +kernel
  · have e : imgCheck.bytes 7 0 imgCheck.position 0xFFFF = imgGlobals := img_globals
    rw [e]
    by_cases h0 : n = 0
    · subst h0
      decide +kernel
    · rw [gsOf_later n h0]
      rfl

theorem img_paths : imgCheck.paths = none := Option.isNone_iff_eq_none.mp (by decide +kernel)

theorem img_verify : imgCheck.verify = none := by
  have h : [imgCheck.dataRanges, imgCheck.reductions, imgCheck.updates, imgCheck.outputs, imgCheck.encodings, imgCheck.chains, imgCheck.terms,
      imgCheck.flow, imgCheck.tables, imgCheck.tolls, imgCheck.routes, imgCheck.crossings, imgCheck.strict].all (fun o => o.isNone) = true := by
    decide +kernel
  simp only [List.all_cons, List.all_nil, Bool.and_true, Bool.and_eq_true, Option.isNone_iff_eq_none] at h
  obtain ⟨h1, h2, h3, h4, h5, h6, h7, h8, h9, h10, h11, h12, h13⟩ := h
  have s : imgCheck.sections = none := by
    rw [Checked.sections, h1, h2, h3, h4, h5, h6, h7, h8, h9, h10, h11, h12, h13, img_layouts, img_sync, img_timetables]
    rfl
  rw [Checked.verify, s]
  exact img_paths

/-- Steps 2 to 6 of R189 where no check refuses. -/
theorem loadCheck_ok (f : Fuses) (raw : List (Byte × Bool)) (position base size : Nat) (bind : List W64) (repair : List Nat)
    (b : List Byte) (man : Manifest) (dir : List Section) (hb : raw.map Prod.fst = b) (hm : manifestOf b = man)
    (hd : directoryOf b man.sections = dir) (h1 : badUnit raw = none) (h2 : manifestCheck b man size = none)
    (h3 : capacityCheck man position f.clsM = none) (h4 : directoryCheck b man dir = none)
    (h5 : relocationCheck f.present repair man = none) (h6 : bindingCheck dir position bind = none)
    (h7 : patched dir position bind = .ok dir) (h8 : (Checked.mk b man dir dir position bind).verify = none) :
    ∃ m, loadCheck f raw position base size bind repair = .ok (m, tileMapOf f.present repair man) := by
  subst hb hm hd
  unfold loadCheck
  simp only [h1, h2, h3, h4, h5, h6, h7, h8, firstOf, List.findSome?, Option.map_none, id]
  exact ⟨_, rfl⟩

theorem badUnit_clean (b : List Byte) : badUnit (b.map fun x => (x, false)) = none := by
  rw [badUnit, Option.map_eq_none_iff, List.findIdx?_eq_none_iff]
  intro x hx
  obtain ⟨y, _, rfl⟩ := List.mem_map.mp hx
  rfl

theorem img_loads :
    ∃ m, loadCheck {} (imgBytes.map fun b => (b, false)) 0 0 66432 [] [] = .ok (m, tileMapOf ({} : Fuses).present [] imgMan) := by
  have hb : (imgBytes.map fun b => (b, false)).map Prod.fst = imgBytes := by
    rw [List.map_map]
    exact List.map_id imgBytes
  have h7 : patched imgDir 0 [] = .ok imgDir := by
    have e : sectionOf imgDir 0x10 0 0 = none := by
      simp [sectionOf, sectionAt, imgDir, Section.applies, Section.advisory]
    rw [patched, e]
  exact loadCheck_ok _ _ _ _ _ _ _ imgBytes imgMan imgDir hb imgMan_eq imgDir_eq (badUnit_clean _) (by decide +kernel)
    (by decide +kernel) (by decide +kernel) (by decide +kernel) (by decide +kernel) h7 img_verify

/-- The cells of memory that hold the image at the head of segment 0. -/
@[irreducible] def imgCells : List Host.Cell :=
  [(0, 65), (1, 88), (2, 80), (3, 73), (4, 1), (5, 1), (8, 128), (9, 3), (10, 1), (16, 3), (18, 1), (19, 1), (20, 1), (32, 4)]
    ++ [(256, 1), (258, 1), (262, 255), (263, 255), (272, 128), (273, 1), (280, 48), (288, 6), (290, 1), (304, 192), (305, 1)]
    ++ [(312, 192), (313, 1), (320, 7), (322, 1), (326, 255), (327, 255), (336, 128), (337, 3), (346, 1), (386, 2), (387, 16)]
    ++ [(455, 128), (896, 2), (903, 128)]

/-- Segment 0 mapped to row 0 of depot 0, with the image in it. -/
def imgHbm : Hbm := { map := [(0, BitVec.ofNat 64 (2 ^ 62))], bytes := imgCells }

theorem get_above (m : List Host.Cell) (a : Nat) (h : ∀ c ∈ m, c.1 < a) : Memory.get m a = 0 := by
  have g : SMap.get? m a = none := by
    induction m with
    | nil => rfl
    | cons c l ih =>
      obtain ⟨k, v⟩ := c
      have hk : k < a := h (k, v) (List.mem_cons_self ..)
      rw [SMap.get?, if_neg (by omega)]
      exact ih fun c hc => h c (List.mem_cons_of_mem _ hc)
  rw [Memory.get, SMap.get, g]
  rfl

theorem above_zeros (m : List Host.Cell) (a n : Nat) (h : ∀ c ∈ m, c.1 < a) :
    ((List.range n).map fun i => Memory.get m (a + i)) = List.replicate n 0 := by
  rw [List.eq_replicate_iff]
  refine ⟨by rw [List.length_map, List.length_range], fun x hx => ?_⟩
  obtain ⟨i, _, rfl⟩ := List.mem_map.mp hx
  exact get_above _ _ fun c hc => Nat.lt_of_lt_of_le (h c hc) (Nat.le_add_right a i)

theorem range_split {α : Type} (f : Nat → α) (a n : Nat) :
    (List.range (a + n)).map f = (List.range a).map f ++ (List.range n).map fun i => f (a + i) := by
  rw [List.range_add, List.map_append, List.map_map]
  rfl

theorem cells_bytes (m : List Host.Cell) (b : List Byte) (a n : Nat) (e : ((List.range a).map fun i => Memory.get m i) = b)
    (h : ∀ c ∈ m, c.1 < a) : ((List.range (a + n)).map fun i => Memory.get m i) = b ++ List.replicate n 0 := by
  rw [range_split, e, above_zeros m a n h]

theorem imgCells_head : ((List.range 904).map fun i => Memory.get imgCells i) = imgHead := by decide +kernel

theorem imgCells_below : (imgCells.all fun c => decide (c.1 < 904)) = true := by decide +kernel

theorem imgBytes_get : ((List.range (904 + 65528)).map fun a => Memory.get imgCells a) = imgBytes := by
  rw [imgBytes.eq_1]
  exact cells_bytes imgCells imgHead 904 65528 imgCells_head fun c hc =>
    of_decide_eq_true (List.all_eq_true.mp imgCells_below c hc)

theorem flat_units {α : Type} (f : Nat → α) (n : Nat) :
    ((List.range n).flatMap fun k => (List.range 64).map fun i => f (64 * k + i)) = (List.range (64 * n)).map f := by
  induction n with
  | zero => rfl
  | succ n ih =>
    rw [show List.range (n + 1) = List.range n ++ [n] from List.range_succ, List.flatMap_append, ih, Nat.mul_succ, range_split,
      List.flatMap_cons, List.flatMap_nil, List.append_nil]

theorem img_read (s : State) (h : s.hbm = imgHbm) : s.hbmBytes 0 66432 = imgBytes.map fun b => (b, false) := by
  have u : unitSpan 0 66432 = (List.range 1038).map fun k => (k, 0, 64) := by decide +kernel
  have v : ∀ k, k < 1038 → s.unitValue k = ⟨(List.range 64).map fun i => Memory.get imgCells (64 * k + i), false⟩ := by
    intro k hk
    have e : s.mapEntry 0 = BitVec.ofNat 64 (2 ^ 62) := by rw [State.mapEntry, h]; rfl
    have g : segOf k = 0 := by simp only [segOf]; omega
    have w : unitIn k = k := by simp only [unitIn]; omega
    have r : unitKey (0 % 4) (entRow (BitVec.ofNat 64 (2 ^ 62))) k = k := by
      rw [show entRow (BitVec.ofNat 64 (2 ^ 62)) = ⟨0, 0, 0⟩ by decide]
      simp [unitKey, rowKey]
    rw [State.unitValue]
    simp only [g, e, w, r, show entMapped (BitVec.ofNat 64 (2 ^ 62)) = true by decide, if_true, h]
    rfl
  rw [State.hbmBytes, u, List.flatMap_map, ← imgBytes_get, List.map_map, show 904 + 65528 = 64 * 1038 from rfl, ← flat_units]
  refine List.flatMap_congr fun k hk => ?_
  rw [List.mem_range] at hk
  rw [v k hk]
  simp only [List.drop_zero]
  rw [List.take_of_length_le (by rw [List.length_map, List.length_range]), List.map_map]
  rfl

/-- LOADED, with the image in HBM and the ledger taken. -/
def loading : State := { te .loaded [own] with hbm := imgHbm, power := { ledgerOk := true } }

theorem loading_hbm : (loading.inTurn hd1 24).hbm = imgHbm := rfl

theorem loading_fuses : (loading.inTurn hd1 24).fuses = {} := rfl

theorem loadImage_ok (s : State) (size : Nat) (raw : List (Byte × Bool)) (m : Image) (tiles : List Nat) (hr : s.hbmBytes 0 size = raw)
    (hf : s.fuses = {}) (h : loadCheck {} raw 0 0 size [] [] = .ok (m, tiles)) : ∃ v, s.loadImage 0 0 size [] [] 0 = (v, none) := by
  unfold State.loadImage State.readRegion
  rw [hr]
  simp only [State.hbmTouch_fuses, hf, h]
  exact ⟨_, rfl⟩

theorem witness_RunCommandResults_load :
    ∃ v failed w, (loading.inTurn hd1 24).loadImage 0 0 66432 [] [] 0 = (v, none) ∧ v.stepSeven = (failed, w) := by
  obtain ⟨m, hm⟩ := img_loads
  suffices ∃ v, (loading.inTurn hd1 24).loadImage 0 0 66432 [] [] 0 = (v, none) from this.elim fun v hv => ⟨v, _, _, hv, rfl⟩
  exact loadImage_ok _ 66432 _ m _ (img_read _ loading_hbm) loading_fuses hm

theorem witness_RunCommandResults_loading : (loading.inTurn hd1 24).power.ledgerOk = true ∧ (loading.inTurn hd1 24).power.worn = false
    ∧ LoadBody.ok ⟨0, 0, 66432, [], []⟩ = true := by decide +kernel

end Sys2Proof.Tests
end

section
/-! Proofs about the tile's scalar registers and its scalar slot (03_tile_bundles.md): register g0, and what the integer
instructions give in an issue cycle. -/

namespace Sys2Proof.Machine

open Sys2Proof

/-! ### Reads and writes of the g registers (R53) -/

@[simp] theorem Tile.gv_zero (t : Tile) : t.gv 0 = 0 := rfl

@[simp] theorem Tile.gp_zero (t : Tile) : t.gp 0 = false := rfl

theorem Tile.gr_of_ne_zero (t : Tile) {r : BitVec 5} (h : r ≠ 0) : t.gr r = t.g.get r.toNat {} := if_neg h

theorem Tile.apply_g_zero (t : Tile) (v : W64) (p : Bool) : t.apply (.g 0 v p) = (t, []) := rfl

theorem Tile.apply_g_of_ne_zero (t : Tile) {r : Nat} (h : r ≠ 0) (v : W64) (p : Bool) :
    t.apply (.g r v p) = ({ t with g := t.g.set r ⟨v, p⟩ }, []) := by
  simp [Tile.apply, h]

/-- A register other than g0 holds what was last written to it. -/
theorem Tile.gr_apply_g_self (t : Tile) {r : BitVec 5} (h : r ≠ 0) (v : W64) (p : Bool) :
    (t.apply (.g r.toNat v p)).1.gr r = ⟨v, p⟩ := by
  rw [Tile.apply_g_of_ne_zero t (BitVec.toNat_ne_iff_ne.mpr h), Tile.gr_of_ne_zero _ h, SMap.get_set_self]

/-- A write reaches no register but its own; one to g0 reaches none. -/
theorem Tile.gr_apply_g_ne (t : Tile) {q r : BitVec 5} (h : q ≠ r) (v : W64) (p : Bool) :
    (t.apply (.g r.toNat v p)).1.gr q = t.gr q := by
  by_cases hr : r = 0
  · rw [hr]; rfl
  by_cases hq : q = 0
  · rw [hq]; rfl
  rw [Tile.apply_g_of_ne_zero t (BitVec.toNat_ne_iff_ne.mpr hr), Tile.gr_of_ne_zero _ hq, Tile.gr_of_ne_zero _ hq,
    SMap.get_set_ne _ _ _ (BitVec.toNat_ne_iff_ne.mpr h)]

/-- Settles O8: a register's value and poison are the two fields that the write stores, and the write of another register
stores elsewhere. -/
theorem zeroRegister : Obligations.ZeroRegister := by
  unfold Obligations.ZeroRegister
  intro t v p
  refine ⟨t.gv_zero, t.gp_zero, t.apply_g_zero v p, fun r hr => ?_⟩
  have hself := t.gr_apply_g_self hr v p
  exact ⟨congrArg GReg.v hself, congrArg GReg.p hself, fun q hq => t.gr_apply_g_ne hq v p⟩

/-! ### The shared forms of the integer instructions in an issue cycle (R62, R63, R78) -/

section
variable {s : State} {n lat : Nat} {f : ScF} {c : Instr}

/-- An instruction that computes gD puts its result in flight for its latency. -/
theorem exec_issueG {d : BitVec 5} {val : Tile → W64} {poison : Tile → Bool} (h : s.mayIssue n .sc = true)
    (hc : exec c s = .next (s.issueG n d lat val poison)) :
    let t := (s.take n .sc).tile n
    exec c s = .next ((s.take n .sc).setTile n (t.fly lat (.g d.toNat (val t) (poison t)))) :=
  hc.trans (congrArg Host.Outcome.next (State.issue_run h _))

/-- With two source registers the poison of either counts. -/
theorem exec_alu2 {op : W64 → W64 → W64} (h : s.mayIssue n .sc = true) (hc : exec c s = .next (s.alu2 n f lat op)) :
    let t := (s.take n .sc).tile n
    exec c s = .next ((s.take n .sc).setTile n
      (t.fly lat (.g f.d.toNat (op (t.gv f.a) (t.gv f.b)) (t.gp f.a || t.gp f.b)))) :=
  exec_issueG h hc

/-- With one source register its poison counts. -/
theorem exec_alu1 {op : W64 → W64} (h : s.mayIssue n .sc = true) (hc : exec c s = .next (s.alu1 n f lat op)) :
    let t := (s.take n .sc).tile n
    exec c s = .next ((s.take n .sc).setTile n (t.fly lat (.g f.d.toNat (op (t.gv f.a)) (t.gp f.a)))) :=
  exec_issueG h hc

/-- Division with `z` as its answer for a divisor of zero: the quotient or remainder otherwise. -/
theorem exec_alu2_of_divisor {z q : W64 → W64 → W64} (h : s.mayIssue n .sc = true)
    (hc : exec c s = .next (s.alu2 n f lat fun a b => if b = 0 then z a b else q a b)) :
    let t := (s.take n .sc).tile n
    let put (v : W64) : Res := .next ((s.take n .sc).setTile n (t.fly lat (.g f.d.toNat v (t.gp f.a || t.gp f.b))))
    (t.gv f.b ≠ 0 → exec c s = put (q (t.gv f.a) (t.gv f.b)))
      ∧ (t.gv f.b = 0 → exec c s = put (z (t.gv f.a) (t.gv f.b))) := by
  intro t put
  have hput : exec c s = put (if t.gv f.b = 0 then z (t.gv f.a) (t.gv f.b) else q (t.gv f.a) (t.gv f.b)) := exec_alu2 h hc
  exact ⟨fun hb => by rw [hput, if_neg hb], fun hb => by rw [hput, if_pos hb]⟩

end

/-- `popcount` counts the positions that hold a one bit. -/
theorem popcount_eq_length_filter (w x : Nat) : popcount w x = ((List.range w).filter x.testBit).length := by
  induction w generalizing x with
  | zero => rfl
  | succ w ih =>
    have hshift : x.testBit ∘ Nat.succ = (x / 2).testBit := funext fun k => Nat.testBit_succ x k
    rw [popcount, ih, List.range_succ_eq_map, List.filter_cons, List.filter_map, hshift, Nat.testBit_zero]
    rcases Nat.mod_two_eq_zero_or_one x with hx | hx <;> simp [hx, Nat.add_comm]

/-- Settles O10: each instruction is one of the shared forms, with the operation that R63 gives it; the counts of `popc` and
the two outcomes of a division are the lemmas above. -/
theorem scalarIntegerResults : Obligations.ScalarIntegerResults := by
  unfold Obligations.ScalarIntegerResults
  refine ⟨fun n f s0 h => ?twoSources, fun n f s0 h => ?immediate, fun n f s0 h => ?division⟩
  case twoSources =>
    exact ⟨exec_alu2 (op := fun a b => a + b) h rfl,
      exec_alu2 (op := fun a b => a - b) h rfl,
      exec_alu2 (op := fun a b => a &&& b) h rfl,
      exec_alu2 (op := fun a b => a ||| b) h rfl,
      exec_alu2 (op := fun a b => a ^^^ b) h rfl,
      exec_alu2 (op := fun a b => a <<< (b.toNat % 64)) h rfl,
      exec_alu2 (op := fun a b => a >>> (b.toNat % 64)) h rfl,
      exec_alu2 (op := fun a b => a.sshiftRight (b.toNat % 64)) h rfl,
      exec_alu2 (op := fun a b => a * b) h rfl,
      exec_alu2 (op := fun a b => BitVec.ofNat 64 (a.toNat * b.toNat / 2 ^ 64)) h rfl,
      exec_alu2 (op := fun a b => bit64 (a.slt b)) h rfl,
      exec_alu2 (op := fun a b => bit64 (a.ult b)) h rfl,
      exec_alu2 (op := fun a b => bit64 (a == b)) h rfl,
      exec_alu2 (op := fun a b => if b.slt a then b else a) h rfl,
      exec_alu2 (op := fun a b => if b.ult a then b else a) h rfl,
      exec_alu2 (op := fun a b => if a.slt b then b else a) h rfl,
      exec_alu2 (op := fun a b => if a.ult b then b else a) h rfl⟩
  case immediate =>
    have hpopc (a : W64) : popcount 64 a.toNat = ((List.range 64).filter fun k => a.getLsbD k).length :=
      popcount_eq_length_filter 64 a.toNat
    refine ⟨exec_alu1 (op := fun a => a + f.imm.signExtend 64) h rfl,
      exec_alu1 (op := fun a => a &&& f.imm.signExtend 64) h rfl,
      exec_alu1 (op := fun a => a ||| f.imm.signExtend 64) h rfl,
      exec_alu1 (op := fun a => a ^^^ f.imm.signExtend 64) h rfl,
      exec_alu1 (op := fun a => a <<< (f.imm.toNat % 64)) h rfl,
      exec_alu1 (op := fun a => a >>> (f.imm.toNat % 64)) h rfl,
      exec_alu1 (op := fun a => a.sshiftRight (f.imm.toNat % 64)) h rfl,
      exec_alu1 (op := fun a => a * f.imm.signExtend 64) h rfl,
      exec_alu1 (op := fun a => bit64 (a.slt (f.imm.signExtend 64))) h rfl,
      exec_alu1 (op := fun a => bit64 (a.ult (f.imm.signExtend 64))) h rfl,
      exec_alu1 (op := fun a => (f.imm.setWidth 64 <<< 32) ||| (a.setWidth 32).setWidth 64) h rfl,
      exec_alu1 (op := clz64) h rfl,
      ?popc,
      exec_issueG (val := fun _ => f.imm.signExtend 64) (poison := fun _ => false) h rfl,
      exec_issueG (val := fun t => if t.gv f.c ≠ 0 then t.gv f.a else t.gv f.b)
        (poison := fun t => t.gp f.c || (if t.gv f.c ≠ 0 then t.gp f.a else t.gp f.b)) h rfl⟩
    case popc =>
      rw [← hpopc]
      exact exec_alu1 (op := fun a => BitVec.ofNat 64 (popcount 64 a.toNat)) h rfl
  case division =>
    obtain ⟨hdivu, hdivu0⟩ := exec_alu2_of_divisor (c := .divu n f) h rfl
    obtain ⟨hremu, hremu0⟩ := exec_alu2_of_divisor (c := .remu n f) h rfl
    exact ⟨fun hb => ⟨hdivu hb, hremu hb⟩, fun hb => ⟨hdivu0 hb, hremu0 hb⟩⟩

end Sys2Proof.Machine
end

section
/-! Proofs about the recovery chapter's records (12_recovery.md): the fields of a record that is built from little-endian
words, and with them the layout of a commit. -/

namespace Sys2Proof.Machine

open Sys2Proof

/-! ### Little-endian bytes of a number and the fields read back from them (R29) -/

@[simp] theorem leBytes_length (n v : Nat) : (leBytes n v).length = n := by
  induction n generalizing v with
  | zero => rfl
  | succ n ih => rw [leBytes, List.length_cons, ih]

/-- Leaving bytes out at the front divides the number. -/
theorem drop_leBytes (w v off : Nat) : (leBytes w v).drop off = leBytes (w - off) (v / 256 ^ off) := by
  induction off generalizing w v with
  | zero => rw [List.drop_zero, Nat.sub_zero, Nat.pow_zero, Nat.div_one]
  | succ off ih =>
    cases w with
    | zero => rw [Nat.zero_sub]; rfl
    | succ w => rw [leBytes, List.drop_succ_cons, ih, Nat.succ_sub_succ, Nat.div_div_eq_div_mul, ← Nat.pow_succ']

theorem take_leBytes (w v : Nat) {n : Nat} (h : n ≤ w) : (leBytes w v).take n = leBytes n v := by
  induction n generalizing w v with
  | zero => rfl
  | succ n ih =>
    cases w with
    | zero => exact absurd h (Nat.not_succ_le_zero n)
    | succ w => rw [leBytes, List.take_succ_cons, ih _ _ (Nat.le_of_succ_le_succ h), leBytes]

theorem leNat_leBytes (n v : Nat) : leNat (leBytes n v) = v % 256 ^ n := by
  induction n generalizing v with
  | zero => exact (Nat.mod_one v).symm
  | succ n ih =>
    calc leNat (leBytes (n + 1) v)
        = v % 256 + 256 * leNat (leBytes n (v / 256)) := rfl
      _ = v % 256 + 256 * (v / 256 % 256 ^ n) := by rw [ih]
      _ = v % 256 ^ (n + 1) := by rw [Nat.pow_succ', Nat.mod_mul]

/-- A field within the first word of a record is a slice of the word's number. -/
theorem leAt_leBytes_append {w off n : Nat} (v : Nat) (rest : List Byte) (h : off + n ≤ w) :
    leAt (leBytes w v ++ rest) off n = v / 256 ^ off % 256 ^ n := by
  have hword : off ≤ (leBytes w v).length := by rw [leBytes_length]; omega
  have hfield : n ≤ (leBytes (w - off) (v / 256 ^ off)).length := by rw [leBytes_length]; omega
  calc leAt (leBytes w v ++ rest) off n
      = leNat (((leBytes w v ++ rest).drop off).take n) := rfl
    _ = leNat (leBytes n (v / 256 ^ off)) := by
        rw [List.drop_append_of_le_length hword, drop_leBytes, List.take_append_of_le_length hfield,
          take_leBytes _ _ (by omega)]
    _ = v / 256 ^ off % 256 ^ n := leNat_leBytes _ _

/-- A field behind the first part of a record is read from the rest. -/
theorem leAt_append_right (a b : List Byte) (off n : Nat) : leAt (a ++ b) (a.length + off) n = leAt b off n := by
  rw [leAt, List.drop_length_add_append, leAt]

/-- A field within word `i` of a record of 64-bit words is a slice of that word. -/
theorem leAt_words (words : List Nat) (rest : List Byte) {i off n : Nat} (hi : i < words.length) (h : off + n ≤ 8) :
    leAt (words.flatMap (leBytes 8) ++ rest) (8 * i + off) n = words[i] / 256 ^ off % 256 ^ n := by
  induction words generalizing i with
  | nil => exact absurd hi (Nat.not_lt_zero i)
  | cons w words ih =>
    rw [List.flatMap_cons, List.append_assoc]
    cases i with
    | zero => rw [Nat.mul_zero, Nat.zero_add]; exact leAt_leBytes_append w _ h
    | succ i =>
      have hoff : 8 * (i + 1) + off = (leBytes 8 w).length + (8 * i + off) := by rw [leBytes_length]; omega
      rw [hoff, leAt_append_right]
      exact ih (Nat.lt_of_succ_lt_succ hi)

/-! ### The commit (R353) -/

/-- Words 0 to 3 of a commit as numbers. -/
def commitWords (owner slot q : Nat) (tag : W64) (bytes : Nat) : List Nat := [owner * 2 ^ 48 + slot, q, tag.toNat, bytes]

theorem commitBytes_eq (owner slot q : Nat) (tag : W64) (bytes : Nat) :
    commitBytes owner slot q tag bytes = (commitWords owner slot q tag bytes).flatMap (leBytes 8) ++ List.replicate 32 0 := by
  simp only [commitBytes, commitWords, List.flatMap_cons, List.flatMap_nil, List.append_assoc, List.append_nil]

/-- A field of one of the first four words of a commit. -/
theorem leAt_commitBytes (owner slot q : Nat) (tag : W64) (bytes : Nat) (i off n : Nat) (hi : i < 4) (h : off + n ≤ 8) :
    leAt (commitBytes owner slot q tag bytes) (8 * i + off) n
      = (commitWords owner slot q tag bytes)[i]'hi / 256 ^ off % 256 ^ n := by
  rw [commitBytes_eq]
  exact leAt_words _ _ hi h

theorem commitBytes_length (owner slot q : Nat) (tag : W64) (bytes : Nat) :
    (commitBytes owner slot q tag bytes).length = 64 := by
  simp only [commitBytes, List.length_append, leBytes_length, List.length_replicate]

/-- Words 4 to 7 of a commit are zero. -/
theorem commitBytes_getD_zero (owner slot q : Nat) (tag : W64) (bytes : Nat) {i : Nat} (hlo : 32 ≤ i) (hhi : i < 64) :
    (commitBytes owner slot q tag bytes).getD i 0 = 0 := by
  rw [commitBytes, List.getD_append_right _ _ _ _ (by simpa using hlo)]
  exact List.getD_replicate _ (by simp; omega)

/-- Settles O9: OWNER and SLOT are slices of word 0, which holds their sum without a carry, BYTES and the zeros above it are
the halves of word 3, and Q and TAG are whole words. -/
theorem commitLayout : Obligations.CommitLayout := by
  unfold Obligations.CommitLayout
  intro owner slot q bytes tag howner hslot hq hbytes b
  have field := leAt_commitBytes owner slot q tag bytes
  have hOwner : leAt b 6 2 = (owner * 2 ^ 48 + slot) / 256 ^ 6 % 256 ^ 2 := field 0 6 2 (by decide) (by decide)
  have hSlot : leAt b 0 4 = (owner * 2 ^ 48 + slot) / 256 ^ 0 % 256 ^ 4 := field 0 0 4 (by decide) (by decide)
  have hGap : leAt b 4 2 = (owner * 2 ^ 48 + slot) / 256 ^ 4 % 256 ^ 2 := field 0 4 2 (by decide) (by decide)
  have hQ : leAt b 8 8 = q / 256 ^ 0 % 256 ^ 8 := field 1 0 8 (by decide) (by decide)
  have hTag : leAt b 16 8 = tag.toNat / 256 ^ 0 % 256 ^ 8 := field 2 0 8 (by decide) (by decide)
  have hBytes : leAt b 24 4 = bytes / 256 ^ 0 % 256 ^ 4 := field 3 0 4 (by decide) (by decide)
  have hAbove : leAt b 28 4 = bytes / 256 ^ 4 % 256 ^ 4 := field 3 4 4 (by decide) (by decide)
  have htag := tag.isLt
  refine ⟨commitBytes_length .., ?_, ?_, ?_, ?_, ?_, ?_, ?_, fun i hlo hhi => commitBytes_getD_zero _ _ _ _ _ hlo hhi⟩
    <;> omega

end Sys2Proof.Machine
end

section
/-! The base facts about one step, the reset state and a memory's bytes (00_scope.md, 16_reset.md). -/

namespace Sys2Proof.Machine

open Sys2Proof

/-- Settles O1: `step` on a queue that begins with a command is that equation. -/
theorem stepRunsFront : Obligations.StepRunsFront := by
  unfold Obligations.StepRunsFront
  intro c rest s
  rfl

/-- Settles O6: no byte of HBM is listed after reset. -/
theorem resetMemoryForm : Obligations.ResetMemoryForm := rfl

/-- What a memory in its one form holds after a byte is written: that byte, a zero byte by being unlisted. -/
theorem Memory.get_put {m : Memory} (h : Memory.wf m = true) (a x : Nat) (b : Byte) :
    Memory.get (Memory.put m a b) x = if x = a then b else Memory.get m x := by
  unfold Memory.put Memory.get SMap.get
  by_cases hb : b = 0
  · rw [if_pos hb, Memory.get?_erase m a x 0 h]
    split <;> simp [hb]
  · rw [if_neg hb, SMap.get?_set]
    split <;> rfl

/-- Settles O4, by the two forms of a write: a zero byte is erased, any other is set. -/
theorem memoryReadAfterWrite : Obligations.MemoryReadAfterWrite := by
  unfold Obligations.MemoryReadAfterWrite
  exact fun m a b h => ⟨Memory.put_wf a b h, fun x => Memory.get_put h a x b⟩

/-- Settles O3: each value is a field's default. -/
theorem resetValues : Obligations.ResetValues := by
  unfold Obligations.ResetValues
  intro s
  refine ⟨rfl, rfl, rfl, rfl, rfl, rfl, rfl, rfl, rfl, rfl, rfl, rfl, rfl, rfl, ?_, ?_, ?_, rfl, rfl⟩
  · exact fun n => ⟨rfl, rfl⟩
  · exact fun p => ⟨rfl, rfl, rfl, rfl, rfl⟩
  · exact fun i => rfl

/-! ### A cycle of time (R225, R230, R290) -/

theorem Clock.tick_gtc (c : Clock) :
    c.tick.gtc = (c.gtc + ((100 * (1000000000 + c.trim) + c.gtcRes) / 1000000000).toNat) % 2 ^ 72 := rfl

/-- Without a trim or a remainder a cycle adds exactly 100 units (R225). -/
theorem Clock.tick_gtc_of_no_trim {c : Clock} (ht : c.trim = 0) (hr : c.gtcRes = 0) : c.tick.gtc = (c.gtc + 100) % 2 ^ 72 := by
  rw [Clock.tick_gtc, ht, hr]
  rfl

/-- The leg boundary after a start instant reaches only the ports, and marks that they have their tables (R290). -/
theorem State.primaryLeg_keep {α : Type} (g : State → α) (hg : ∀ (s : State) c p, g { s with cv := c, ports := p } = g s)
    (s : State) : g s.primaryLeg = g s := by
  unfold State.primaryLeg
  split
  · exact hg s _ _
  · rfl

theorem State.primaryLeg_ports {s : State} (h : s.cv.primary ≠ 2) : s.primaryLeg.ports = s.ports := by
  rw [State.primaryLeg, if_neg fun hp => h hp.1]

theorem CvChip.tick_primary (c : CvChip) (trim : Int) : (c.tick trim).primary = c.primary := by
  unfold CvChip.tick
  dsimp only
  split <;> rfl

/-- While no command waits a state differs from a plain tick only in the ports and the switch state. -/
theorem State.idle_keep {α : Type} (g : State → α) (hg : ∀ (s : State) c p, g { s with cv := c, ports := p } = g s)
    {s : State} (h : s.clocksRun = true) : g s.idle = g s.tick := by
  unfold State.idle
  rw [if_pos h]
  split
  · rfl
  · exact State.primaryLeg_keep g hg _

/-- Settles O2: an idle step is a tick of the clocks, which the leg boundary of R290 may follow. -/
theorem idleTick : Obligations.IdleTick := by
  unfold Obligations.IdleTick
  intro s hp
  refine ⟨?step, ?stands, fun h => ⟨?gtc, ?plain, ?wdog, ?tiles, ?hbm, ?ports, ?dev, ?out⟩⟩
  case step => rw [step, hp]
  case stands =>
    intro h
    simp [State.idle, h]
  case gtc => exact State.idle_keep (fun s => s.clock.gtc) (fun _ _ _ => rfl) h
  case plain =>
    intro ht hr
    exact (State.idle_keep (fun s => s.clock.gtc) (fun _ _ _ => rfl) h).trans (Clock.tick_gtc_of_no_trim ht hr)
  case wdog => exact State.idle_keep (fun s => s.base.wdogCount) (fun _ _ _ => rfl) h
  case tiles => exact State.idle_keep (fun s => s.tiles) (fun _ _ _ => rfl) h
  case hbm => exact State.idle_keep (fun s => s.hbm) (fun _ _ _ => rfl) h
  case dev => exact State.idle_keep (fun s => s.dev) (fun _ _ _ => rfl) h
  case out => exact State.idle_keep (fun s => s.out) (fun _ _ _ => rfl) h
  case ports =>
    intro hprimary
    unfold State.idle
    rw [if_pos h]
    split
    · rfl
    · exact State.primaryLeg_ports (by rwa [show s.tick.cv.primary = s.cv.primary from CvChip.tick_primary _ _])

end Sys2Proof.Machine
end

section
/-! The frame of a slot's instruction (R218, R220): a vector store whose crossing holds the row ends the row cycle of every
tile of the row that the hold has caught, and that changes their semaphores and queues. -/

namespace Sys2Proof.Machine

open Sys2Proof

/-- A tile in RUN that a boundary hold has caught. -/
def heldTile : Tile := { st := .run, bHold := true }

/-- Row 0 held by tile 0, which writes slot 0 of boundary queue 0; tile 1 is held with it, and a signal has reached its
semaphore 0 in this row cycle. -/
def heldRow : State :=
  { State.reset with
    tiles := [(0, { heldTile with crossings := [⟨0, 0, 0, true, 0, 0, some 0⟩] }), (1, { heldTile with sems := [(0, { incs := 1 })] })]
    rows := [(0, { holds := [⟨0, 0, 0, 0, false⟩], holdCount := 1 })] }

/-- The store that exports vA of tile 0 in that crossing. -/
def exportStore : VeF := ⟨0, 0, 0, 0, 0, 0, 0, 0, 0, 0, 0, 0⟩

/-- Its row cycle over, tile 1's semaphore holds what the cycle had gathered. -/
theorem execVst_settles_other_tile : ∃ t, exec (.vst 0 exportStore) heldRow = .next t
    ∧ (heldRow.tile 1).sems = [(0, { incs := 1 })] ∧ (t.tile 1).sems = [(0, { value := 1 })] :=
  ⟨_, rfl, rfl, by decide +kernel⟩

/-- Refutes O7: the end of a row cycle, which a held `vst` brings on, settles the semaphores of another tile (R146, R220). -/
theorem not_slotFrame : ¬ Obligations.SlotFrame := by
  unfold Obligations.SlotFrame
  intro h
  obtain ⟨t, hnext, hbefore, hafter⟩ := execVst_settles_other_tile
  obtain ⟨-, -, -, -, -, -, -, -, -, -, -, hother⟩ := h (.vst 0 exportStore) 0 heldRow t rfl hnext
  obtain ⟨-, -, -, -, -, -, -, -, hsems⟩ := hother 1 (by decide)
  rw [hbefore, hafter] at hsems
  exact absurd hsems (by decide)

end Sys2Proof.Machine
end

section
/-! Two facts of number: the leading zeros that `clz` counts (R62), and the tree of neighbours over values that wrap (R98). -/

namespace Sys2Proof.Machine

open Sys2Proof

/-- The highest one bit of a word is the logarithm of its number. -/
theorem log2_eq_of_highest_bit {x : W64} {k : Nat} (hk : x.getLsbD k = true) (habove : ∀ j, k < j → x.getLsbD j = false) :
    Nat.log2 x.toNat = k := by
  have hlow : 2 ^ k ≤ x.toNat := Nat.ge_two_pow_of_testBit hk
  have hhigh : x.toNat < 2 ^ (k + 1) := Nat.lt_pow_two_of_testBit _ fun j hj => habove j hj
  exact (Nat.log2_eq_iff (by have := Nat.two_pow_pos k; omega)).mpr ⟨hlow, hhigh⟩

/-- Settles O11: 63 less the logarithm is the number of zeros above the highest one bit. -/
theorem leadingZeros : Obligations.LeadingZeros := by
  unfold Obligations.LeadingZeros
  refine ⟨rfl, fun x k _ hbit habove => ?_⟩
  have hne : x ≠ 0 := by
    rintro rfl
    simp at hbit
  rw [clz64, if_neg hne, log2_eq_of_highest_bit hbit habove]

/-! ### The tree of neighbours (R98) -/

/-- Wrapping addition as a lane operation, which sets no flag. -/
def wrapAdd (a b : W32) : W32 × ArithFlags := (a + b, ArithFlags.none)

/-- A level of neighbours keeps the sum of an even number of values and halves their number. -/
theorem pairUp_wrapAdd (k : Nat) : ∀ l : List W32, l.length = 2 * k →
    (pairUp wrapAdd l).1.sum = l.sum ∧ (pairUp wrapAdd l).1.length = k := by
  induction k with
  | zero =>
    intro l h
    rw [List.eq_nil_of_length_eq_zero h]
    exact ⟨rfl, rfl⟩
  | succ k ih =>
    intro l h
    obtain _ | ⟨a, _ | ⟨b, l⟩⟩ := l
    · simp at h
    · simp at h; omega
    · obtain ⟨hsum, hlen⟩ := ih l (by simp at h; omega)
      simp only [pairUp, wrapAdd, List.sum_cons, List.length_cons]
      exact ⟨by rw [← hsum, BitVec.add_assoc], congrArg (· + 1) hlen⟩

/-- `k` levels over 2^k values give their sum. -/
theorem treeReduce_wrapAdd (k : Nat) : ∀ l : List W32, l.length = 2 ^ k → (treeReduce wrapAdd k l).1 = l.sum := by
  induction k with
  | zero =>
    intro l h
    obtain ⟨a, rfl⟩ := List.length_eq_one_iff.mp h
    simp [treeReduce]
  | succ k ih =>
    intro l h
    obtain ⟨hsum, hlen⟩ := pairUp_wrapAdd (2 ^ k) l (by rw [h, Nat.pow_succ'])
    rw [← hsum, ← ih _ hlen]
    rfl

/-- Settles O22: seven levels over 128 values, whose sum does not depend on the order. -/
theorem integerReductionIsTheSum : Obligations.IntegerReductionIsTheSum := by
  unfold Obligations.IntegerReductionIsTheSum
  intro xs h
  rw [← List.sum_eq_foldl]
  exact treeReduce_wrapAdd 7 xs h

end Sys2Proof.Machine
end

section
/-! The scalar slot beyond its integer instructions (03_tile_bundles.md): FP32, scratchpad access, control, counters. -/

namespace Sys2Proof.Machine

open Sys2Proof

section
variable {s : State} {n : Nat} {x : BSlot} {c : Instr}

/-- An instruction of a slot that can issue acts on its tile, and the slot has issued. -/
theorem exec_issue {f : Tile → Tile} (h : s.mayIssue n x = true) (hc : exec c s = .next (s.issue n x f)) :
    exec c s = .next ((s.take n x).setTile n (f ((s.take n x).tile n))) :=
  hc.trans (congrArg Host.Outcome.next (State.issue_run h f))

/-- One that acts beyond its tile acts on the state in which the slot has issued. -/
theorem exec_issueS {f : Tile → State → State} (h : s.mayIssue n x = true) (hc : exec c s = .next (s.issueS n x f)) :
    exec c s = .next (f ((s.take n x).tile n) (s.take n x)) :=
  hc.trans (congrArg Host.Outcome.next (State.issueS_run h f))

/-- One that some operands stop answers what it answers on that state. -/
theorem exec_issueR {f : Tile → State → Res} (h : s.mayIssue n x = true) (hc : exec c s = s.issueR n x f) :
    exec c s = f ((s.take n x).tile n) (s.take n x) :=
  hc.trans (State.issueR_run h f)

end

/-! ### FP32 (R64) -/

section
variable {s : State} {n : Nat} {f : ScF} {c : Instr}

/-- An FP32 instruction puts its value in flight for four cycles and sets its flags at issue. -/
theorem exec_fpOp {op : Tile → W64 × ArithFlags} {poison : Tile → Bool} (h : s.mayIssue n .sc = true)
    (hc : exec c s = .next (s.fpOp n f op poison)) :
    let t := (s.take n .sc).tile n
    exec c s = .next ((s.take n .sc).setTile n ((t.fly 4 (.g f.d.toNat (op t).1 (poison t))).flags (op t).2)) :=
  exec_issue h hc

/-- With two source registers their low halves are the operands, and the poison of either counts. -/
theorem exec_fp2 {op : W32 → W32 → W32 × ArithFlags} (h : s.mayIssue n .sc = true) (hc : exec c s = .next (s.fp2 n f op)) :
    let t := (s.take n .sc).tile n
    let r := op ((t.gv f.a).setWidth 32) ((t.gv f.b).setWidth 32)
    exec c s = .next ((s.take n .sc).setTile n
      ((t.fly 4 (.g f.d.toNat (r.1.setWidth 64) (t.gp f.a || t.gp f.b))).flags r.2)) :=
  exec_fpOp h hc

end

/-- Settles O12: each instruction is one of the two shared forms. -/
theorem scalarFloatResults : Obligations.ScalarFloatResults := by
  unfold Obligations.ScalarFloatResults
  intro n f s0 h
  have hcmp (c : Bool) : ((if c then 1 else 0 : W32)).setWidth 64 = (if c then 1 else 0 : W64) := by cases c <;> rfl
  refine ⟨(exec_fp2 (c := .fadd n f) h rfl :), (exec_fp2 (c := .fsub n f) h rfl :), (exec_fp2 (c := .fmul n f) h rfl :),
    (exec_fpOp (c := .ffma n f) h rfl :), (exec_fp2 (c := .fmin n f) h rfl :), (exec_fp2 (c := .fmax n f) h rfl :), ?compare,
    (exec_fpOp (c := .fcvtFi n f) h rfl :), (exec_fpOp (c := .fcvtIf n f) h rfl :)⟩
  case compare =>
    rw [← hcmp]
    exact (exec_fp2 (c := .fcmp n f) h rfl :)

/-! ### Scratchpad access (R65, R66) -/

/-- Settles O13: the two instructions with their address and width written out. -/
theorem scalarScratchpadResults : Obligations.ScalarScratchpadResults := by
  unfold Obligations.ScalarScratchpadResults
  intro n f s0 h
  exact ⟨(exec_issueS (c := .lds n f) h rfl :), (exec_issue (c := .sts n f) h rfl :)⟩

/-! ### Control (R67 to R75) -/

theorem slt_zero_iff (a : W64) : a.slt 0 = true ↔ a.toInt < 0 := by
  rw [BitVec.slt_iff_toInt_lt]
  simp

theorem toInt_eq_zero_iff (a : W64) : a.toInt = 0 ↔ a = 0 := by
  rw [← BitVec.toInt_inj]
  simp

/-- Settles O14: the branches by the shared issue cycle, the conditions by what the comparisons of words decide. -/
theorem branchResults : Obligations.BranchResults := by
  unfold Obligations.BranchResults
  refine ⟨fun n f s0 h => ⟨(exec_issueS (c := .br n f) h rfl :), (exec_issueS (c := .brc n f) h rfl :),
    (exec_issue (c := .jal n f) h rfl :), ?link, ?noLink⟩, fun a b => ?conditions⟩
  case link => exact fun hl => (exec_issueR (c := .ret n f) h (Eq.refl (execRet n f s0)) :).trans (if_pos hl)
  case noLink => exact fun hl => (exec_issueR (c := .ret n f) h (Eq.refl (execRet n f s0)) :).trans (if_neg hl)
  case conditions =>
    have hz := toInt_eq_zero_iff a
    have hn := slt_zero_iff a
    refine ⟨rfl, by simp [brTaken], by simp [brTaken], hn, ?_, ?_, ?_, by simp [brcTaken], by simp [brcTaken],
      BitVec.slt_iff_toInt_lt, ?_, BitVec.ult_iff_lt, ?_⟩
    · simp only [brTaken, Bool.not_eq_true', ← Bool.not_eq_true, hn]; omega
    · simp only [brTaken, Bool.and_eq_true, Bool.not_eq_true', ← Bool.not_eq_true, hn, bne_iff_ne, ne_eq, ← hz]; omega
    · simp only [brTaken, Bool.or_eq_true, hn, beq_iff_eq, ← hz]; omega
    · simp only [brcTaken, Bool.not_eq_true', ← Bool.not_eq_true, BitVec.slt_iff_toInt_lt]; omega
    · simp only [brcTaken, Bool.not_eq_true', ← Bool.not_eq_true, BitVec.ult_iff_lt, BitVec.lt_def]; omega

/-- Settles O15: `enterLoop` by the trip count and by what the marks of the last bundle do. -/
theorem loopAndSwapResults : Obligations.LoopAndSwapResults := by
  unfold Obligations.LoopAndSwapResults
  intro n f s0 h
  have hloop : exec (.loop n f) s0 = .next ((s0.take n .sc).setTile n
    (((s0.take n .sc).tile n).enterLoop (f.x.toNat % 4) (f.imm.toNat % 4096))) := (exec_issue (c := .loop n f) h rfl :)
  refine ⟨fun ht => ?_, fun ls ht hm => ?_, fun ls l i start ht hm => ?_, (exec_issue (c := .iswap n f) h rfl :)⟩
  · rw [hloop, Tile.enterLoop]
    simp only [ne_eq, ht, not_false_eq_true, if_true]
  · rw [hloop, Tile.enterLoop]
    simp only [ne_eq, ht, not_true_eq_false, if_false, hm]
  · rw [hloop, Tile.enterLoop]
    simp only [ne_eq, ht, not_true_eq_false, if_false, hm]

/-! ### Counters, format registers, identity and no-operations (R62) -/

/-- Settles O16: a counter or register write may be a control use, the values are those of the tile and the chip. -/
theorem counterAndNopResults : Obligations.CounterAndNopResults := by
  unfold Obligations.CounterAndNopResults
  refine ⟨fun n f s0 h => ?values, fun n s => ?nops⟩
  case values =>
    exact ⟨(exec_issueS (c := .lcset n f) h rfl :), (exec_issue (c := .lcseti n f) h rfl :),
      (exec_issue (c := .lcget n f) h rfl :), (exec_issue (c := .lcidx n f) h rfl :), (exec_issueS (c := .fset n f) h rfl :),
      (exec_issue (c := .fseti n f) h rfl :), (exec_issue (c := .fget n f) h rfl :), (exec_issue (c := .tid n f) h rfl :),
      (exec_issue (c := .lpos n f) h rfl :), (exec_issue (c := .rdstep n f) h rfl :)⟩
  case nops =>
    have hnop {c : Instr} {x : BSlot} (hc : exec c s = .next (s.issue n x fun t => t)) (h : s.mayIssue n x = true) :
        exec c s = .next (s.setTile n { s.tile n with used := x :: (s.tile n).used }) := by
      rw [exec_issue h hc, State.take, State.tile_modTile, State.modTile, State.setTile_setTile]
      rfl
    exact ⟨hnop rfl, hnop rfl, hnop rfl, hnop rfl, hnop rfl, hnop rfl⟩

end Sys2Proof.Machine
end

section
/-! The matrix slot (04_tile_matrix_vector.md): fills, streams, row multiplies and drains. -/

namespace Sys2Proof.Machine

open Sys2Proof

/-- Lanes given by a function of their number. -/
theorem Lanes.at_map_range (g : Nat → Gran) {i : Nat} (h : i < 128) : Lanes.at_ ((List.range 128).map g) i = g i := by
  simp [Lanes.at_, List.getD, h]

/-- Several effects set out one after another. -/
theorem Tile.flyAll_eq (l : List (Nat × Effect)) : ∀ t : Tile,
    t.flyAll l = { t with flight := t.flight ++ l.map fun x => ⟨t.cyc + x.1, x.2⟩ } := by
  induction l with
  | nil => intro t; simp [Tile.flyAll]
  | cons x l ih =>
    intro t
    rw [Tile.flyAll, List.foldl_cons, ← Tile.flyAll, ih]
    simp [Tile.fly]

/-- The flight of a fill: sixteen read cycles and the switch of its buffer (R88). -/
theorem Tile.startFill_eq (t : Tile) (f : MxF) :
    let q : FillReq := { key := t.cyc, sb := f.sb.toNat, fmt := t.fr f.f, e := t.mxE f, s := t.mxS f }
    t.startFill f = { t with flight := t.flight ++ ((List.range 16).map fun i => ⟨t.cyc + i, .fillRead q i⟩)
      ++ [⟨t.cyc + 24, .fillSwitch t.cyc f.sb.toNat⟩] } := by
  simp [Tile.startFill, Tile.flyAll_eq, Tile.fly, List.map_map, Function.comp_def]

/-- A storing drain with what it stores named; its clear names the row of the tile at issue (R91). -/
theorem Tile.startDrain_eq (t : Tile) (tables : SMap (List Byte)) (w : Draws) (f : MxF) :
    let fmt := t.fr f.f
    let row := accKey f.acc.toNat (t.mxRow f)
    let d := drainData tables fmt (t.accRow row)
      (drawsFrom w fmt ((t.gv f.c >>> 32).setWidth 32 + BitVec.ofNat 32 (t.loopIdx f.l.toNat * 128)) 128) (t.gp f.c)
    let t1 := (t.fly 9 (.bankWrite (wordsOf (t.mxE f) d.1.length ++ wordsOf (t.mxS f) d.2.1.length))).fly 12
      (.spad (t.mxE f) d.1)
    let u := (if d.2.1 = [] then t1 else t1.fly 12 (.spad (t.mxS f) d.2.1)).flags d.2.2
    t.startDrain tables w f = if f.h = 1 then u.fly 1 (.accClear row) else u := by
  intro fmt row d t1 u
  have hrow : u.mxRow f = t.mxRow f := by
    unfold u
    split <;> rfl
  calc t.startDrain tables w f = u.drainClear f := rfl
    _ = if f.h = 1 then u.fly 1 (.accClear row) else u := by rw [Tile.drainClear, hrow]

/-- Settles O17: each instruction is its equation, and the stops are the branches of its format checks. -/
theorem matrixResults : Obligations.MatrixResults := by
  unfold Obligations.MatrixResults
  refine ⟨fun n f s0 h => ?fill, fun n f s0 h => ?stream, fun n f s0 h => ?drain⟩
  case fill =>
    have hexec := (exec_issueR (c := .mxFill n f) h (Eq.refl (execMxFill n f s0)) :)
    refine ⟨fun hfmt => ?_, fun hfmt => by rw [hexec, hfmt]⟩
    obtain ⟨m, hm⟩ := Option.ne_none_iff_exists'.mp hfmt
    rw [hexec, hm, ← Tile.startFill_eq]
    rfl
  case stream =>
    have hexec := (exec_issueR (c := .mxStream n f) h (Eq.refl (execMxStream n f s0)) :)
    refine ⟨fun p hp hgood => ?_, fun hp => by rw [hexec, hp], fun p hp hbad => ?_, (exec_issue (c := .mxRowmul n f) h rfl :)⟩
    · rw [hexec, hp]
      exact if_neg (by simp [hgood])
    · rw [hexec, hp]
      exact if_pos hbad
  case drain =>
    have hexec := (exec_issueR (c := .mxDrains n f) h (Eq.refl (execMxDrains n f s0)) :)
    refine ⟨⟨_, by simp, fun j hj => Lanes.at_map_range _ hj, (exec_issue (c := .mxDrainv n f) h rfl :)⟩,
      fun hgood => ?_, fun hbad => hexec.trans (if_pos hbad)⟩
    rw [hexec, if_neg (Bool.eq_false_iff.mp hgood), State.modTile, Tile.startDrain_eq]
    rfl

end Sys2Proof.Machine
end

section
/-! The vector slot (04_tile_matrix_vector.md): lane-wise arithmetic, moves and conversions. -/

namespace Sys2Proof.Machine

open Sys2Proof

/-! ### The merge of R94 -/

/-- What `mergeLanes` gives is the merge of R94. -/
theorem Tile.merged_mergeLanes (t : Tile) (f : VeF) (sel : BitVec 128) (res : Nat → Gran) :
    t.Merged f sel (t.mergeLanes f sel res) res :=
  ⟨by simp [Tile.mergeLanes], fun _ hi => Lanes.at_map_range _ hi⟩

section
variable {s0 : State} {n lat : Nat} {f : VeF} {c : Instr}

/-- An instruction over `vecOp` is lane-wise. -/
theorem laneWise_of_vecOp {op : Nat → W32 × ArithFlags} {p : Nat → Bool}
    (hc : exec c s0 = .next ((s0.take n .ve).setTile n (((s0.take n .ve).tile n).vecOp f lat op p))) :
    LaneWise c s0 n f lat op p :=
  ⟨_, Tile.merged_mergeLanes _ f _ _, hc⟩

/-- One register of lanes. -/
theorem laneWise_of_vec1 {op : W32 → W32 × ArithFlags} (h : s0.mayIssue n .ve = true)
    (hc : exec c s0 = .next (s0.issue n .ve fun t => t.vec1 f lat op)) :
    let t := (s0.take n .ve).tile n
    LaneWise c s0 n f lat (fun i => op ((t.vr f.va).at_ i).bits) (fun i => ((t.vr f.va).at_ i).poison) :=
  laneWise_of_vecOp (exec_issue h hc)

/-- Two registers of lanes. -/
theorem laneWise_of_vec2 {op : W32 → W32 → W32 × ArithFlags} (h : s0.mayIssue n .ve = true)
    (hc : exec c s0 = .next (s0.issue n .ve fun t => t.vec2 f lat op)) :
    let t := (s0.take n .ve).tile n
    LaneWise c s0 n f lat (fun i => op ((t.vr f.va).at_ i).bits ((t.vr f.vb).at_ i).bits)
      (fun i => ((t.vr f.va).at_ i).poison || ((t.vr f.vb).at_ i).poison) :=
  laneWise_of_vecOp (exec_issue h hc)

/-- The lanes' values may be given by any function that agrees. -/
theorem LaneWise.congr {op op' : Nat → W32 × ArithFlags} {p : Nat → Bool} (h : LaneWise c s0 n f lat op p)
    (he : ∀ i, op i = op' i) : LaneWise c s0 n f lat op' p :=
  funext he ▸ h

end

/-! ### Element types (R93) -/

/-- An operation chosen by the element type, on two lanes. -/
theorem ite_apply_two {α β γ : Type} (p : Prop) [Decidable p] (f g : α → β → γ) (a : α) (b : β) :
    (if p then f else g) a b = if p then f a b else g a b := by
  split <;> rfl

/-- Settles O18: the lane operations of R96 are those of the shared forms, read off by element type. -/
theorem vectorArithmeticResults : Obligations.VectorArithmeticResults := by
  unfold Obligations.VectorArithmeticResults
  intro n f s0 h
  exact ⟨(laneWise_of_vec2 (c := .vadd n f) h rfl).congr fun _ => ite_apply_two ..,
    (laneWise_of_vec2 (c := .vsub n f) h rfl).congr fun _ => ite_apply_two ..,
    (laneWise_of_vec2 (c := .vmul n f) h rfl).congr fun _ => ite_apply_two ..,
    laneWise_of_vecOp (exec_issue (c := .vfma n f) h rfl :),
    (laneWise_of_vec2 (c := .vmax n f) h rfl).congr fun _ => ite_apply_two ..,
    (laneWise_of_vec2 (c := .vmin n f) h rfl).congr fun _ => ite_apply_two ..,
    (laneWise_of_vec1 (c := .vabs n f) h rfl).congr fun _ => ite_apply ..,
    (laneWise_of_vec1 (c := .vneg n f) h rfl).congr fun _ => ite_apply ..,
    (laneWise_of_vec2 (c := .vldexp n f) h rfl :), (laneWise_of_vec2 (c := .vand n f) h rfl :),
    (laneWise_of_vec2 (c := .vor n f) h rfl :), (laneWise_of_vec2 (c := .vxor n f) h rfl :),
    (laneWise_of_vec2 (c := .vshl n f) h rfl :), (laneWise_of_vec2 (c := .vshr n f) h rfl :),
    (laneWise_of_vec2 (c := .vsar n f) h rfl :), laneWise_of_vecOp (exec_issue (c := .vcurve n f) h rfl :),
    (laneWise_of_vec1 (c := .vcvtFi n f) h rfl :), (laneWise_of_vec1 (c := .vcvtIf n f) h rfl :)⟩

/-! ### Moves (R96) -/

/-- Settles O19: the copies are lane-wise; an extract and an insert name one lane. -/
theorem vectorMoveResults : Obligations.VectorMoveResults := by
  unfold Obligations.VectorMoveResults
  intro n f s0 h
  refine ⟨(laneWise_of_vec1 (c := .vmov n f) h rfl :), laneWise_of_vecOp (exec_issue (c := .vbcast n f) h rfl :),
    laneWise_of_vecOp (exec_issue (c := .vsplat n f) h rfl :), laneWise_of_vecOp (exec_issue (c := .viota n f) h rfl :),
    (exec_issue (c := .vextr n f) h rfl :), _, ?_, ?_, ?_, (exec_issue (c := .vinsl n f) h rfl :)⟩
  · simp
  · exact (Lanes.at_map_range _ (Nat.mod_lt _ (by decide))).trans (if_pos rfl)
  · exact fun i hi hx => (Lanes.at_map_range _ hi).trans (if_neg hx)

end Sys2Proof.Machine
end

section
/-! The vector slot (04_tile_matrix_vector.md): conversions, reductions, permutes and masks. -/

namespace Sys2Proof.Machine

open Sys2Proof

/-! ### Conversions (R100) -/

/-- A block has 16, 32, 64 or 128 elements (R22, R31). -/
theorem bfmt?_block_dvd {tables : SMap (List Byte)} {code : Nat} {b : BFmt} (h : bfmt? tables code = some b) :
    b.block ∣ 128 := by
  unfold bfmt? at h
  split at h
  · cases h
    exact ⟨4, rfl⟩
  · split at h
    · split at h
      · cases h
        rename_i p _
        have hk : leAt p.2 0 4 / 2 ^ 10 % 4 < 4 := Nat.mod_lt _ (by decide)
        exact (Nat.mul_dvd_mul_left 16 (Nat.pow_dvd_pow 2 (Nat.le_of_lt_succ hk)) : 16 * 2 ^ _ ∣ 16 * 2 ^ 3)
      · cases h
    · cases h

/-- The two codes that `vnarrow` and `vwiden` take pass their check (R100). -/
theorem half_code_taken {bad : Bool} {code : Nat} (hbad : bad = false) (hcode : code = 1 ∨ code = 2) :
    ¬ (bad || decide (code ≠ 1) && decide (code ≠ 2)) = true := by
  rcases hcode with h | h <;> simp [hbad, h]

/-- What `vunpack` decodes of each block, in order: its codes, its scale and its poison. -/
def unpackedBlocks (b : BFmt) (bytes : List (Byte × Bool)) : List (List Nat × Option Dy × Bool) :=
  ((List.range (128 / b.block)).map (packedBlock b bytes)).map fun x =>
    (unpackNat b.width b.block (leNat (x.1.map Prod.fst)), b.scale x.2.1.toNat, x.2.2 || x.1.any Prod.snd)

theorem unpackedBlocks_getD {b : BFmt} (hb : b.block ∣ 128) (bytes : List (Byte × Bool)) {i : Nat} (hi : i < 128)
    (d : List Nat × Option Dy × Bool) :
    let x := packedBlock b bytes (i / b.block)
    (unpackedBlocks b bytes).getD (i / b.block) d
      = (unpackNat b.width b.block (leNat (x.1.map Prod.fst)), b.scale x.2.1.toNat, x.2.2 || x.1.any Prod.snd) := by
  have hlt : i / b.block < 128 / b.block := Nat.div_lt_div_of_lt_of_dvd hb hi
  simp [unpackedBlocks, List.getD, hlt]

/-- Settles O20: `vnarrow`, `vwiden` and `vunpack` are lane-wise, `vpack` writes its row, and the checks of the format
register stop each of them. -/
theorem vectorConversionResults : Obligations.VectorConversionResults := by
  unfold Obligations.VectorConversionResults
  intro n f s0 h
  have hnarrow := (exec_issueR (c := .vnarrow n f) h (Eq.refl (execVnarrow n f s0)) :)
  have hwiden := (exec_issueR (c := .vwiden n f) h (Eq.refl (execVwiden n f s0)) :)
  have hpack := (exec_issueR (c := .vpack n f) h (Eq.refl (execVpack n f s0)) :)
  have hunpack := (exec_issueR (c := .vunpack n f) h (Eq.refl (execVunpack n f s0)) :)
  refine ⟨fun hgood hcode => ⟨?narrow, ?widen⟩, fun hgood hcode L fl hrow => ?pack, fun b hgood hb => ?unpack,
    fun hbad => ?stops⟩
  case narrow => exact laneWise_of_vecOp (hnarrow.trans (if_neg (half_code_taken hgood hcode)))
  case widen => exact laneWise_of_vecOp (hwiden.trans (if_neg (half_code_taken hgood hcode)))
  case pack =>
    rw [hpack, if_neg (by rw [hgood, Bool.false_or, decide_eq_true_eq]; omega), hrow]
    rfl
  case unpack =>
    intro blk hscale
    have hsound : ¬ (((List.range (128 / b.block)).map (packedBlock b (((s0.take n .ve).tile n).vr f.va).bytes)).any
        fun x => b.badScale x.2.1.toNat) = true := by
      simp only [List.any_map, List.any_eq_true, List.mem_range, not_exists, not_and, Bool.not_eq_true]
      exact hscale
    dsimp only at hunpack
    rw [hb] at hunpack
    refine ⟨_, _, laneWise_of_vecOp ((hunpack.trans (if_neg (Bool.eq_false_iff.mp hgood))).trans (if_neg hsound)),
      fun i hi => ?_⟩
    have hblock := unpackedBlocks_getD (bfmt?_block_dvd hb) (((s0.take n .ve).tile n).vr f.va).bytes hi ([], none, false)
    exact ⟨congrArg (fun x => (toFp32 (b.value x.2.1 (x.1.getD (i % b.block) 0)).1 false).1) hblock,
      congrArg (fun x => x.2.2) hblock⟩
  case stops =>
    have hor (c : Bool) : (fmtBad (s0.take n .ve).formats (((s0.take n .ve).tile n).fr f.f) || c) = true :=
      Bool.or_eq_true .. ▸ Or.inl hbad
    refine ⟨hnarrow.trans (if_pos (hor _)), hwiden.trans (if_pos (hor _)), hpack.trans (if_pos (hor _)), ?_⟩
    rw [hunpack]
    dsimp only
    split
    · rfl
    · exact if_pos hbad

/-! ### Reductions (R98) -/

/-- Settles O21: the four reductions are `reduceLanes` with their operation and identity. -/
theorem reductionResults : Obligations.ReductionResults := by
  unfold Obligations.ReductionResults
  intro n f s0 h
  exact ⟨(exec_issue (c := .vrsum n f) h rfl :), (exec_issue (c := .vrmax n f) h rfl :),
    (exec_issue (c := .vrmin n f) h rfl :), (exec_issue (c := .vrisum n f) h rfl :)⟩

/-! ### Compress, expand, permute, rotate (R99) -/

/-- The selected lanes begin with those below a selected lane, then that lane. -/
theorem selected_eq {sel : BitVec 128} {i : Nat} (hi : i < 128) (hsel : sel.getLsbD i = true) :
    ∃ l, selected sel = (List.range i).filter (fun j => sel.getLsbD j) ++ i :: l := by
  refine ⟨((List.range (127 - i)).map (i + 1 + ·)).filter fun j => sel.getLsbD j, ?_⟩
  have hrange : List.range 128 = List.range i ++ i :: (List.range (127 - i)).map (i + 1 + ·) := by
    rw [show 128 = i + ((127 - i) + 1) by omega, List.range_add, List.range_succ_eq_map, List.map_cons, List.map_map]
    simp [Function.comp_def, Nat.add_assoc, Nat.add_comm 1]
  rw [selected, hrange, List.filter_append, List.filter_cons, if_pos hsel]

/-- Settles O23: a compressed lane lies at the number of selected lanes below it; the other three are merges. -/
theorem permuteResults : Obligations.PermuteResults := by
  unfold Obligations.PermuteResults
  intro n f s0 h s t sel below a free
  refine ⟨⟨_, by simp, fun i hi hsel => ?place, fun i hlow hi => ?rest, (exec_issue (c := .vcompress n f) h rfl :)⟩,
    ⟨_, Tile.merged_mergeLanes .., (exec_issue (c := .vexpand n f) h rfl :)⟩,
    ⟨_, Tile.merged_mergeLanes .., (exec_issue (c := .vperm n f) h rfl :)⟩,
    ⟨_, Tile.merged_mergeLanes .., (exec_issue (c := .vrot n f) h rfl :)⟩⟩
  case place =>
    obtain ⟨l, hl⟩ := selected_eq hi hsel
    have hlt : below i < (selected sel).length := by simp [hl, below]
    have hget : (selected sel).getD (below i) 0 = i := by simp [hl, below]
    have h128 : below i < 128 := Nat.lt_of_le_of_lt (List.length_filter_le _ _) (by simpa using hi)
    refine (Lanes.at_map_range _ h128).trans ((if_pos hlt).trans ?_)
    rw [show (selected (t.lanesOf f)).getD (below i) 0 = i from hget]
  case rest => exact (Lanes.at_map_range _ hi).trans (if_neg (Nat.not_lt.mpr hlow))

/-! ### Masks (R96) -/

/-- The number whose bits below `k` are given by a function. -/
def maskNat (p : Nat → Bool) (k : Nat) : Nat := (List.range k).foldr (fun i acc => acc + if p i then 2 ^ i else 0) 0

theorem maskNat_succ (p : Nat → Bool) (k : Nat) : maskNat p (k + 1) = maskNat p k + if p k then 2 ^ k else 0 := by
  have hstart (l : List Nat) (a : Nat) : l.foldr (fun i acc => acc + if p i then 2 ^ i else 0) a
      = l.foldr (fun i acc => acc + if p i then 2 ^ i else 0) 0 + a := by
    induction l with
    | nil => simp
    | cons x l ih => rw [List.foldr_cons, List.foldr_cons, ih]; omega
  rw [maskNat, List.range_succ, List.foldr_append, hstart]
  simp [maskNat]

theorem maskNat_lt (p : Nat → Bool) (k : Nat) : maskNat p k < 2 ^ k := by
  induction k with
  | zero => exact Nat.one_pos
  | succ k ih =>
    rw [maskNat_succ, Nat.pow_succ]
    split <;> omega

/-- Each bit below `k` is the one the function gives. -/
theorem testBit_maskNat (p : Nat → Bool) {k i : Nat} (h : i < k) : (maskNat p k).testBit i = p i := by
  induction k with
  | zero => exact absurd h (Nat.not_lt_zero i)
  | succ k ih =>
    rw [maskNat_succ, Nat.add_comm]
    by_cases hi : i = k
    · subst hi
      have hlow : (maskNat p i).testBit i = false := Nat.testBit_lt_two_pow (maskNat_lt p i)
      by_cases hp : p i = true
      · rw [if_pos hp, Nat.testBit_two_pow_add_eq, hlow, hp]; rfl
      · rw [if_neg hp, Nat.zero_add, hlow]; simpa using hp
    · have hlt : i < k := by omega
      by_cases hp : p k = true
      · rw [if_pos hp, Nat.testBit_two_pow_add_gt hlt, ih hlt]
      · rw [if_neg hp, Nat.zero_add, ih hlt]

/-- The bit of each lane of a mask. -/
theorem getLsbD_maskOf (p : Nat → Bool) {i : Nat} (h : i < 128) : (maskOf p).getLsbD i = p i := by
  have hbit : (BitVec.ofNat 128 (maskNat p 128)).getLsbD i = p i := by
    rw [BitVec.getLsbD_ofNat, testBit_maskNat p h]
    simp [h]
  exact hbit

/-- Settles O24: the mask operations are bitwise, and `kfirst` and `vcmp` give a mask by a function of the lane. -/
theorem maskResults : Obligations.MaskResults := by
  unfold Obligations.MaskResults
  intro n f s0 h
  refine ⟨(exec_issue (c := .kand n f) h rfl :), (exec_issue (c := .kor n f) h rfl :), (exec_issue (c := .kxor n f) h rfl :),
    (exec_issue (c := .kandn n f) h rfl :), ?count,
    ⟨_, fun i hi => ?first, (exec_issueS (c := .kfirst n f) h rfl :)⟩,
    ⟨_, fun i hi => ?compare, (exec_issueS (c := .vcmp n f) h rfl :)⟩⟩
  case count =>
    have hcount (m : BitVec 128) : ((List.range 128).filter fun i => m.getLsbD i).length = popcount 128 m.toNat :=
      (popcount_eq_length_filter 128 m.toNat).symm
    rw [hcount]
    exact (exec_issue (c := .kpopc n f) h rfl :)
  case first => rw [getLsbD_maskOf _ hi, decide_eq_true_eq]
  case compare => exact getLsbD_maskOf _ hi

end Sys2Proof.Machine
end

section
/-! Loads, stores, chains and scheduled crossings of the vector slot (04_tile_matrix_vector.md, 08_clocks_time.md). -/

namespace Sys2Proof.Machine

open Sys2Proof

/-! ### The tiles of a row -/

theorem mem_rowTiles {r m : Nat} : m ∈ rowTiles r ↔ m / 25 = r := by
  simp only [rowTiles, List.mem_map, List.mem_range]
  constructor
  · rintro ⟨k, hk, rfl⟩
    omega
  · rintro rfl
    exact ⟨m % 25, Nat.mod_lt _ (by decide), Nat.div_add_mod m 25⟩

theorem nodup_rowTiles (r : Nat) : (rowTiles r).Nodup :=
  List.Nodup.map (fun a b h => by simpa using h) List.nodup_range

/-- What a fold that changes one tile after another leaves in each: its change, where it is listed. -/
theorem State.tile_foldl {F : State → Nat → State} {G : Tile → Tile}
    (hF : ∀ s m k, (F s m).tile k = if k = m then G (s.tile k) else s.tile k) (l : List Nat) (hl : l.Nodup) :
    ∀ (s : State) (k : Nat), (l.foldl F s).tile k = if k ∈ l then G (s.tile k) else s.tile k := by
  induction l with
  | nil => intro s k; rfl
  | cons m l ih =>
    intro s k
    obtain ⟨hm, hl⟩ := List.nodup_cons.mp hl
    rw [List.foldl_cons, ih hl, hF]
    by_cases hk : k = m
    · subst hk
      simp [hm]
    · simp [hk]

/-- Each tile of the row that meets the condition is changed, and no other. -/
theorem State.tile_modRowTiles (s : State) (r : Nat) (c : Tile → Bool) (f : Tile → Tile) (m : Nat) :
    (s.modRowTiles r c f).tile m = if m / 25 = r ∧ c (s.tile m) = true then f (s.tile m) else s.tile m := by
  have hF : ∀ (s : State) m k, (if c (s.tile m) = true then s.modTile m f else s).tile k
      = if k = m then (fun t => if c t = true then f t else t) (s.tile k) else s.tile k := by
    intro s m k
    by_cases hk : k = m
    · subst hk
      by_cases hc : c (s.tile k) = true <;> simp [hc]
    · rw [if_neg hk]
      split
      · exact State.tile_modTile_ne s f hk
      · rfl
  rw [State.modRowTiles, State.tile_foldl (G := fun t => if c t = true then f t else t) hF _ (nodup_rowTiles r)]
  simp only [mem_rowTiles]
  by_cases h : m / 25 = r <;> simp [h]

/-- Nothing but tiles changes. -/
theorem State.modRowTiles_keep {α : Type} (g : State → α) (hg : ∀ (s : State) t, g { s with tiles := t } = g s)
    (s : State) (r : Nat) (c : Tile → Bool) (f : Tile → Tile) : g (s.modRowTiles r c f) = g s := by
  refine State.foldl_keep g _ (fun s m => ?_) _ s
  split
  · exact hg s _
  · rfl

theorem State.modRowTiles_eq (s : State) (r : Nat) (c : Tile → Bool) (f : Tile → Tile) :
    ∃ t, s.modRowTiles r c f = { s with tiles := t } :=
  ⟨_, State.modRowTiles_keep (fun u => { u with tiles := (s.modRowTiles r c f).tiles }) (fun _ _ => rfl) s r c f⟩

/-! ### A boundary hold (R220) -/

theorem State.boundaryHold_eq (s : State) (r : Nat) (hs : List BHold) :
    ∃ t w b, s.boundaryHold r hs = { s with tiles := t, rows := w, bqs := b } := by
  obtain ⟨t, ht⟩ := s.modRowTiles_eq r (fun t => decide (t.st = .run ∨ t.st = .hold)) fun t =>
    { t with bHold := true, holdBoundary := if t.bankHold = 0 then t.holdBoundary + 1 else t.holdBoundary }
  unfold State.boundaryHold
  rw [ht]
  exact ⟨_, _, _, rfl⟩

theorem State.row_boundaryHold (s : State) (r : Nat) (hs : List BHold) : ((s.boundaryHold r hs).row r).holds = hs := by
  simp [State.boundaryHold, State.row, State.modRow]

/-- A tile that a row cycle of the hold has caught. -/
def Tile.heldAtBoundary (t : Tile) : Tile :=
  { t with bHold := true, holdBoundary := if t.bankHold = 0 then t.holdBoundary + 1 else t.holdBoundary }

theorem Tile.heldAtBoundary_eq (t : Tile) : t.heldAtBoundary
    = { t with bHold := true, holdBoundary := t.holdBoundary + (if t.bankHold = 0 then 1 else 0) } := by
  have hcount (x : W64) : (if t.bankHold = 0 then x + 1 else x) = x + (if t.bankHold = 0 then 1 else 0) := by
    split
    · rfl
    · exact (BitVec.add_zero x).symm
  rw [Tile.heldAtBoundary, hcount]

theorem State.tile_boundaryHold (s : State) (r : Nat) (hs : List BHold) (m : Nat) :
    (s.boundaryHold r hs).tile m = if m / 25 = r ∧ ((s.tile m).st = .run ∨ (s.tile m).st = .hold)
      then (s.tile m).heldAtBoundary else s.tile m := by
  have htile : (s.boundaryHold r hs).tile m
      = (s.modRowTiles r (fun t => decide (t.st = .run ∨ t.st = .hold)) Tile.heldAtBoundary).tile m := by
    simp only [State.boundaryHold, State.tile, State.modRow]
    rfl
  rw [htile, State.tile_modRowTiles]
  simp only [decide_eq_true_eq]

/-! ### The issue of an access that may cross -/

section
variable {s : State} {n : Nat} {write : Bool} {f : VeF} {go : Option SeqEntry → State → State}

/-- In an issue cycle of its bundle an access acts at once where it crosses nothing, or where its slot is ready; else the row
begins to hold. -/
theorem State.issueCross_eq (h : s.mayIssue n .ve = true) :
    s.issueCross n write f go = match (s.tile n).crossing write f with
      | none => go none (s.take n .ve)
      | some e => if s.notReady ⟨n, e.pair, e.dir, e.slot, !write⟩ = true
        then s.boundaryHold (rowOf n) [⟨n, e.pair, e.dir, e.slot, !write⟩] else go (some e) (s.take n .ve) := by
  have hmay : ((((((s.tile n).st = .run ∧ (s.tile n).bubble = false) ∧ (s.tile n).bankHold = 0) ∧ (s.tile n).bHold = false)
      ∧ (s.tile n).syHold = false) ∧ (s.tile n).headBad = false) ∧ (s.tile n).used.contains .ve = false := by
    simpa only [State.mayIssue, Tile.canIssue, Bool.and_eq_true, Bool.not_eq_true', decide_eq_true_eq] using h
  obtain ⟨⟨⟨⟨⟨⟨hst, hbubble⟩, hbank⟩, hbhold⟩, hsy⟩, hhead⟩, hused⟩ := hmay
  have hissues : (decide ((s.tile n).st = .run) && !(s.tile n).bubble && decide ((s.tile n).bankHold = 0) && !(s.tile n).syHold
      && !(s.tile n).headBad && !(s.tile n).used.contains .ve) = true := by
    rw [hst, hbubble, hbank, hsy, hhead, hused]
    rfl
  unfold State.issueCross
  simp only [hissues, hbhold, if_true, Bool.false_eq_true, if_false] <;> rfl

theorem State.issueCross_none (h : s.mayIssue n .ve = true) (hc : (s.tile n).crossing write f = none) :
    s.issueCross n write f go = go none (s.take n .ve) := by
  rw [State.issueCross_eq h, hc]

theorem State.issueCross_some {e : SeqEntry} (h : s.mayIssue n .ve = true) (hc : (s.tile n).crossing write f = some e) :
    s.issueCross n write f go = if ((s.bq (bqKey e.pair e.dir)).slot e.slot).full = write
      then s.boundaryHold (n / 25) [⟨n, e.pair, e.dir, e.slot, !write⟩] else go (some e) (s.take n .ve) := by
  rw [State.issueCross_eq h, hc]
  cases write <;> simp [State.notReady, rowOf]

end

/-- A crossing carries all 128 lanes. -/
theorem Tile.crossing_full {t : Tile} {write : Bool} {f : VeF} {e : SeqEntry} (h : t.crossing write f = some e) :
    VeF.lanes f = 128 ∧ f.km = 0 := by
  unfold Tile.crossing at h
  split at h
  · assumption
  · cases h

/-- Without a mask every lane is selected. -/
theorem Tile.getLsbD_lanesOf_full {t : Tile} {f : VeF} (hk : f.km = 0) {i : Nat} (hi : i < 128) :
    (t.lanesOf f).getLsbD i = true := by
  rw [Tile.lanesOf, if_pos hk, BitVec.getLsbD_allOnes, decide_eq_true hi]

/-! ### Loads and stores (R97) -/

/-- The lanes of a load: those of the span that are selected, in the merge of R94. -/
theorem Tile.at_loadLanes (t : Tile) (f : VeF) (src : Lanes) {i : Nat} (hi : i < 128) :
    (t.loadLanes f src).at_ i = if i < VeF.lanes f ∧ (t.lanesOf f).getLsbD i = true then src.at_ i
      else if f.mz = 1 then ⟨0, false⟩ else (t.vr f.vd).at_ i := by
  obtain ⟨-, hmerge⟩ := Tile.merged_mergeLanes t f (t.lanesOf f &&& maskOf fun i => decide (i < VeF.lanes f)) src.at_
  rw [Tile.loadLanes, hmerge i hi, BitVec.getLsbD_and, getLsbD_maskOf _ hi]
  simp only [Bool.and_eq_true, decide_eq_true_eq, and_comm]

theorem Tile.length_loadLanes (t : Tile) (f : VeF) (src : Lanes) : (t.loadLanes f src).length = 128 :=
  (Tile.merged_mergeLanes t f _ src.at_).1

/-- The writes of a store and their granules. -/
theorem Tile.storeEffects_eq (t : Tile) (f : VeF) (a : Nat) :
    let lane (i : Nat) : Gran := if (t.lanesOf f).getLsbD i then (t.vr f.va).at_ i else ⟨0, false⟩
    let writes : List (Nat × List Gran) := if f.km = 0 ∨ f.mz = 1 then [(a, (List.range (VeF.lanes f)).map lane)]
      else ((List.range (VeF.lanes f)).filter fun i => (t.lanesOf f).getLsbD i).map fun i => ((a + 4 * i) % spadBytes, [lane i])
    t.storeEffects f a = writes.map fun w => (3, .spad w.1 (gransBytes w.2)) := by
  intro lane writes
  unfold writes Tile.storeEffects
  split
  · rfl
  · simp only [List.map_map]
    rfl

/-- At a crossing a store writes its whole span as it stands. -/
theorem Tile.storeEffects_full (t : Tile) {f : VeF} (a : Nat) (hl : VeF.lanes f = 128) (hk : f.km = 0) :
    t.storeEffects f a = [(3, .spad a (gransBytes ((List.range 128).map (t.vr f.va).at_)))] := by
  have hlanes : ((List.range 128).map fun i => if (t.lanesOf f).getLsbD i = true then (t.vr f.va).at_ i else ⟨0, false⟩)
      = (List.range 128).map (t.vr f.va).at_ :=
    List.map_congr_left fun i hi => if_pos (Tile.getLsbD_lanesOf_full hk (List.mem_range.mp hi))
  unfold Tile.storeEffects
  simp only [hk, true_or, if_true, hl, hlanes]

/-! ### Chains (R102 to R104) -/

theorem selFlags_congr {sel : BitVec 128} {p q : Nat → ArithFlags} (h : ∀ i, i < 128 → p i = q i) :
    selFlags sel p = selFlags sel q :=
  congrArg ArithFlags.joinAll (List.map_congr_left fun i hi => by rw [h i (List.mem_range.mp hi)])

theorem getD_map_range {α : Type} (g : Nat → α) (d : α) {i k : Nat} (h : i < k) : ((List.range k).map g).getD i d = g i := by
  simp [List.getD, h]

/-- A chain's issue, of the lanes it gives each output and of the flags it sets. -/
def Tile.chainIssued (t : Tile) (f : VeF) (lanes : Nat → Lanes) (flags : ArithFlags) : Tile :=
  let d := (t.gv f.ga + f.imm.setWidth 64).toNat % spadBytes
  let nst := f.sub.toNat % 8 + 1
  let nout := f.sub.toNat / 8 % 4 + 1
  let stages := (List.range nst).map (stageOf (t.spad.read d (8 * nst)))
  let outs := (List.range nst).filter fun i => (stages.map Stage.out).getD i false
  { ((t.flyAll ((List.range nout).map fun k => (6 + 4 * nst, .v (f.vd.toNat + k) (lanes k)))).flags flags).flags
      (ArithFlags.inv (decide (outs.length < nout))) with
    reqR := t.reqR ++ wordsOf d 64, winChains := t.winChains + 1 }

/-- The issue of a chain with its parts named (R104). -/
theorem Tile.startChain_eq (t : Tile) (f : VeF) :
    let d := (t.gv f.ga + f.imm.setWidth 64).toNat % spadBytes
    let nst := f.sub.toNat % 8 + 1
    let nout := f.sub.toNat / 8 % 4 + 1
    let stages := (List.range nst).map (stageOf (t.spad.read d (8 * nst)))
    let outs := (List.range nst).filter fun i => (stages.map Stage.out).getD i false
    let chain (i : Nat) : List Gran × ArithFlags :=
      chainLane t.curve stages ⟨(t.vr f.va).at_ i, (t.vr f.vb).at_ i, (t.vr f.vc).at_ i, ⟨(t.gv f.gb).setWidth 32, t.gp f.gb⟩⟩
    let value (k i : Nat) : Gran := (outs[k]?).elim ⟨0x7FC00000, false⟩ fun j => (chain i).1.getD j ⟨0, false⟩
    let lanes (k : Nat) : Lanes := (List.range 128).map fun i => if (t.lanesOf f).getLsbD i then value k i
      else if f.mz = 1 then ⟨0, false⟩ else (t.v.get (f.vd.toNat + k) Lanes.zero).at_ i
    t.startChain f = { t with
      flight := t.flight ++ (List.range nout).map fun k => ⟨t.cyc + (6 + 4 * nst), .v (f.vd.toNat + k) (lanes k)⟩,
      arith := (t.arith.join (selFlags (t.lanesOf f) fun i => (chain i).2)).join (ArithFlags.inv (decide (outs.length < nout))),
      reqR := t.reqR ++ wordsOf d 64, winChains := t.winChains + 1 } := by
  intro d nst nout stages outs chain value lanes
  let rs := (List.range 128).map chain
  have hrs : ∀ i, i < 128 → rs.getD i ([], ArithFlags.none) = chain i := fun i hi => getD_map_range chain _ hi
  have hflags : selFlags (t.lanesOf f) (fun i => (rs.getD i ([], ArithFlags.none)).2) = selFlags (t.lanesOf f) fun i => (chain i).2 :=
    selFlags_congr fun i hi => by rw [hrs i hi]
  have hlanes (k : Nat) : ((List.range 128).map fun i =>
      if (t.lanesOf f).getLsbD i then (match outs[k]? with
        | some st => (rs.getD i ([], ArithFlags.none)).1.getD st ⟨0, false⟩
        | none => ⟨0x7FC00000, false⟩)
      else if f.mz = 1 then ⟨0, false⟩ else (t.v.get (f.vd.toNat + k) Lanes.zero).at_ i) = lanes k := by
    refine List.map_congr_left fun i hi => ?_
    rw [hrs i (List.mem_range.mp hi)]
    unfold value
    cases outs[k]? <;> rfl
  have hissued : t.startChain f = t.chainIssued f lanes (selFlags (t.lanesOf f) fun i => (chain i).2) := by
    rw [← hflags, ← funext hlanes]
    rfl
  rw [hissued, Tile.chainIssued, Tile.flyAll_eq, List.map_map]
  rfl

/-! ### The settled statement -/

/-- Where the slot of an access's crossing is not ready, the row begins to hold (R218, R220). -/
theorem State.boundaryHold_holds {s : State} {n : Nat} (h : BHold) :
    s.boundaryHold (n / 25) [h] = { s with
        tiles := (s.boundaryHold (n / 25) [h]).tiles, rows := (s.boundaryHold (n / 25) [h]).rows, bqs := (s.boundaryHold (n / 25) [h]).bqs }
      ∧ ((s.boundaryHold (n / 25) [h]).row (n / 25)).holds = [h]
      ∧ (∀ m, m / 25 ≠ n / 25 → (s.boundaryHold (n / 25) [h]).tile m = s.tile m)
      ∧ ∀ i, i < 25 → let m := 25 * (n / 25) + i
          ((s.tile m).st ≠ .run → (s.tile m).st ≠ .hold → (s.boundaryHold (n / 25) [h]).tile m = s.tile m)
          ∧ ((s.tile m).st = .run ∨ (s.tile m).st = .hold → (s.boundaryHold (n / 25) [h]).tile m = { s.tile m with
              bHold := true, holdBoundary := (s.tile m).holdBoundary + (if (s.tile m).bankHold = 0 then 1 else 0) }) := by
  refine ⟨?_, State.row_boundaryHold s _ _, fun m hm => ?_, fun i hi => ⟨fun hrun hhold => ?_, fun hst => ?_⟩⟩
  · obtain ⟨t, w, b, hu⟩ := s.boundaryHold_eq (n / 25) [h]
    rw [hu]
  · rw [State.tile_boundaryHold, if_neg fun hc => hm hc.1]
  · rw [State.tile_boundaryHold, if_neg fun hc => hc.2.elim hrun hhold]
  · rw [State.tile_boundaryHold, if_pos ⟨by omega, hst⟩, Tile.heldAtBoundary_eq]

section
variable {n : Nat} {f : VeF} {s0 : State}

theorem exec_vld_plain (h : s0.mayIssue n .ve = true) (hc : (s0.tile n).crossing false f = none) :
    let s := s0.take n .ve
    let t := s.tile n
    exec (.vld n f) s0 = .next ((s.setTile n { t.fly 7 (.v f.vd.toNat
        (t.loadLanes f (bytesGrans (VeF.lanes f) (t.spad.read (t.veAddr f) (4 * VeF.lanes f))))) with
      reqR := t.reqR ++ wordsOf (t.veAddr f) (4 * VeF.lanes f) }).detect n (t.spad.detects (t.veAddr f) (4 * VeF.lanes f))) :=
  congrArg Host.Outcome.next (State.issueCross_none h hc)

theorem exec_vst_plain (h : s0.mayIssue n .ve = true) (hc : (s0.tile n).crossing true f = none) :
    let s := s0.take n .ve
    let t := s.tile n
    exec (.vst n f) s0 = .next (s.setTile n { t.flyAll (t.storeEffects f (t.veAddr f)) with
      reqW := t.reqW ++ wordsOf (t.veAddr f) (4 * VeF.lanes f) }) :=
  congrArg Host.Outcome.next (State.issueCross_none h hc)

theorem exec_vst_ready {e : SeqEntry} (h : s0.mayIssue n .ve = true) (hc : (s0.tile n).crossing true f = some e)
    (hs : ((s0.bq (bqKey e.pair e.dir)).slot e.slot).full = false) :
    exec (.vst n f) s0 = .next (((s0.take n .ve).fillSlot e ((List.range 128).map (((s0.take n .ve).tile n).vr f.va).at_)).modTile n
      fun t => { t.flyAll (((s0.take n .ve).tile n).storeEffects f (((s0.take n .ve).tile n).veAddr f)) with
        reqW := t.reqW ++ wordsOf (((s0.take n .ve).tile n).veAddr f) (4 * VeF.lanes f) }) :=
  congrArg Host.Outcome.next ((State.issueCross_some h hc).trans (if_neg (by rw [hs]; decide)))

theorem exec_vld_ready {e : SeqEntry} (h : s0.mayIssue n .ve = true) (hc : (s0.tile n).crossing false f = some e)
    (hs : ((s0.bq (bqKey e.pair e.dir)).slot e.slot).full = true) :
    exec (.vld n f) s0 = .next (((s0.take n .ve).emptySlot e).modTile n
      fun t => { t.fly 7 (.v f.vd.toNat (t.loadLanes f ((s0.bq (bqKey e.pair e.dir)).slot e.slot).data)) with
        reqR := t.reqR ++ wordsOf (((s0.take n .ve).tile n).veAddr f) (4 * VeF.lanes f) }) :=
  congrArg Host.Outcome.next ((State.issueCross_some h hc).trans (if_neg (by rw [hs]; decide)))

theorem exec_vst_holds {e : SeqEntry} (h : s0.mayIssue n .ve = true) (hc : (s0.tile n).crossing true f = some e)
    (hs : ((s0.bq (bqKey e.pair e.dir)).slot e.slot).full = true) :
    exec (.vst n f) s0 = .next (s0.boundaryHold (n / 25) [⟨n, e.pair, e.dir, e.slot, false⟩]) :=
  congrArg Host.Outcome.next ((State.issueCross_some h hc).trans (if_pos hs))

theorem exec_vld_holds {e : SeqEntry} (h : s0.mayIssue n .ve = true) (hc : (s0.tile n).crossing false f = some e)
    (hs : ((s0.bq (bqKey e.pair e.dir)).slot e.slot).full = false) :
    exec (.vld n f) s0 = .next (s0.boundaryHold (n / 25) [⟨n, e.pair, e.dir, e.slot, true⟩]) :=
  congrArg Host.Outcome.next ((State.issueCross_some h hc).trans (if_pos hs))

end

/-- A slot written at a crossing is full with what was written, and its queue has one entry more (R218, R242). -/
theorem State.bq_fillSlot (s : State) (e : SeqEntry) (data : Lanes) :
    ((s.fillSlot e data).bq (bqKey e.pair e.dir)).slot e.slot = ⟨true, data⟩
      ∧ ((s.fillSlot e data).bq (bqKey e.pair e.dir)).entries = (s.bq (bqKey e.pair e.dir)).entries + 1 := by
  unfold State.fillSlot State.bq SMap.upd
  rw [SMap.get_set_self]
  exact ⟨SMap.get_set_self _ _ _ _, rfl⟩

/-- A slot read at a crossing is empty. -/
theorem State.slot_emptySlot (s : State) (e : SeqEntry) :
    ((s.emptySlot e).bq (bqKey e.pair e.dir)).slot e.slot = {} := by
  unfold State.emptySlot State.bq SMap.upd
  rw [SMap.get_set_self]
  exact SMap.get_set_self _ _ _ _

/-- Settles O25: an access without a crossing takes effect by its effects in flight; at a crossing the slot's state decides. -/
theorem vectorMemoryResults : Obligations.VectorMemoryResults := by
  refine ⟨?_, ?_, ?_⟩
  · intro n f s0 h s t sel len addr src kept lane writes
    refine ⟨fun hc => ⟨t.loadLanes f src, Tile.length_loadLanes t f src, fun i hi => Tile.at_loadLanes t f src hi,
      exec_vld_plain h hc⟩, fun hc => ?_⟩
    refine (exec_vst_plain h hc).trans ?_
    rw [Tile.storeEffects_eq, Tile.flyAll_eq, List.map_map]
    rfl
  · intro n f s0 h s t sel d nst nout stages outs chain value kept
    refine ⟨fun k => (List.range 128).map fun i => if sel.getLsbD i then value k i else kept k i,
      fun k _ => ⟨by simp, fun i hi => Lanes.at_map_range _ hi⟩, ?_⟩
    refine (exec_issueS (c := .vchain n f) h rfl :).trans ?_
    have hstart : t.startChain f = _ := Tile.startChain_eq t f
    rw [State.modTile, hstart]
    rfl
  · intro n f s0 e h s t k slot addr src only holds
    refine ⟨fun hc hs => ?_, fun hc hs => ?_, fun hc hs => ⟨_, exec_vst_holds h hc hs, State.boundaryHold_holds _⟩,
      fun hc hs => ⟨_, exec_vld_holds h hc hs, State.boundaryHold_holds _⟩⟩
    · obtain ⟨hl, hk⟩ := Tile.crossing_full hc
      refine ⟨_, exec_vst_ready h hc hs, ⟨rfl, fun m hm => ?_⟩, ?_, ?_, ?_⟩
      · rw [State.tile_modTile_ne _ _ hm]
        exact (State.tile_modTile_ne s0 (fun t => t.take .ve) hm :)
      · exact (State.bq_fillSlot (s0.take n .ve) e src).1
      · exact (State.bq_fillSlot (s0.take n .ve) e src).2
      · refine (State.tile_modTile _ n _).trans ?_
        rw [Tile.storeEffects_full _ _ hl hk, hl]
        rfl
    · obtain ⟨hl, hk⟩ := Tile.crossing_full hc
      refine ⟨_, exec_vld_ready h hc hs, ⟨rfl, fun m hm => ?_⟩, ?_, _, Tile.length_loadLanes t f slot.data, fun i hi => ?_, ?_⟩
      · rw [State.tile_modTile_ne _ _ hm]
        exact (State.tile_modTile_ne s0 (fun t => t.take .ve) hm :)
      · exact congrArg BqSlot.full (State.slot_emptySlot (s0.take n .ve) e)
      · rw [Tile.at_loadLanes _ _ _ hi, if_pos ⟨hl ▸ hi, Tile.getLsbD_lanesOf_full hk hi⟩]
      · refine (State.tile_modTile _ n _).trans ?_
        rw [hl]
        rfl

end Sys2Proof.Machine
end

section
/-! The frame of HBM: what every function of the model leaves of it. -/

namespace Sys2Proof.Machine

open Sys2Proof

/-! ### Functions that leave HBM as it is -/

@[simp] theorem hbm_ite (c : Prop) [Decidable c] (a b : State) : (if c then a else b).hbm = if c then a.hbm else b.hbm :=
  apply_ite State.hbm c a b

theorem hbm_ite_of {c : Prop} [Decidable c] {a b : State} {h : Hbm} (ha : a.hbm = h) (hb : b.hbm = h) :
    (if c then a else b).hbm = h := by
  split <;> assumption

theorem hbm_fst_ite {α : Type} {c : Prop} [Decidable c] {a b : State × α} {h : Hbm} (ha : a.1.hbm = h) (hb : b.1.hbm = h) :
    (if c then a else b).1.hbm = h := by
  split <;> assumption

@[simp] theorem foldl_hbm {α : Type} (f : State → α → State) (h : ∀ s x, (f s x).hbm = s.hbm) (l : List α) (s : State) :
    (l.foldl f s).hbm = s.hbm :=
  State.foldl_keep State.hbm f h l s

@[simp] theorem State.fresh_hbm (s : State) : s.fresh.2.hbm = s.hbm := by
  simp [State.fresh]

@[simp] theorem State.ctrlPoison_hbm (s : State) (n : Nat) : (s.ctrlPoison n).hbm = s.hbm := by
  simp [State.ctrlPoison]

@[simp] theorem State.ctrlPoisonIf_hbm (s : State) (n : Nat) (b : Bool) : (s.ctrlPoisonIf n b).hbm = s.hbm := by
  simp [State.ctrlPoisonIf]

@[simp] theorem State.issue_hbm (s : State) (n : Nat) (x : BSlot) (f : Tile → Tile) : (s.issue n x f).hbm = s.hbm := by
  simp [State.issue]

theorem State.issueS_hbm {s : State} {n : Nat} {x : BSlot} {f : Tile → State → State} (hf : ∀ t s, (f t s).hbm = s.hbm) :
    (s.issueS n x f).hbm = s.hbm := by
  simp [State.issueS, hf]

@[simp] theorem State.latchGtc_hbm (s : State) : s.latchGtc.hbm = s.hbm := by
  simp [State.latchGtc]

@[simp] theorem State.ctlTouch_hbm (s : State) (off len : Nat) : (s.ctlTouch off len).hbm = s.hbm := by
  simp [State.ctlTouch]

@[simp] theorem State.sentFrames_hbm (s : State) (h n : Nat) : (s.sentFrames h n).hbm = s.hbm := by
  simp [State.sentFrames]

@[simp] theorem State.sendAll_hbm (s : State) (rs : List (Session × List Output)) (stay : List Session) :
    (s.sendAll rs stay).hbm = s.hbm := by
  simp [State.sendAll]

@[simp] theorem State.sessionsMap_hbm (s : State) (f : Session → Session) : (s.sessionsMap f).hbm = s.hbm := by
  simp [State.sessionsMap]

@[simp] theorem State.onSession_hbm (s : State) (id : Nat) (f : Session → Session) : (s.onSession id f).hbm = s.hbm := by
  simp [State.onSession]

@[simp] theorem State.sendOn_hbm (s : State) (id : Nat) (o : Output) : (s.sendOn id o).hbm = s.hbm := by
  simp [State.sendOn]

@[simp] theorem State.linkEvent_hbm (s : State) (kind port st : Nat) : (s.linkEvent kind port st).hbm = s.hbm := by
  simp [State.linkEvent]

@[simp] theorem State.clockEvent_hbm (s : State) : s.clockEvent.hbm = s.hbm := by
  simp [State.clockEvent]

@[simp] theorem State.powerEvent_hbm (s : State) : s.powerEvent.hbm = s.hbm := by
  simp [State.powerEvent]

@[simp] theorem State.offerRec_hbm (s : State) (pq : Nat × Nat) (r : Routed) : (s.offerRec pq r).hbm = s.hbm := by
  simp [State.offerRec]

/-- What is sent on the schedule waits at the ports. -/
theorem State.sendScheduled_hbm {s s' : State} {src detail dest : Nat} {r : Rec} (h : s.sendScheduled src detail dest r = some s') :
    s'.hbm = s.hbm := by
  have hopt : (s.sendScheduled src detail dest r).elim s.hbm State.hbm = s.hbm := by
    unfold State.sendScheduled
    split
    · rfl
    · split
      · split <;> rfl
      · rfl
  rwa [h] at hopt

@[simp] theorem State.sendScheduled_getD_hbm (s : State) (src detail dest : Nat) (r : Rec) :
    ((s.sendScheduled src detail dest r).getD s).hbm = s.hbm := by
  cases h : s.sendScheduled src detail dest r with
  | none => rfl
  | some s' => exact State.sendScheduled_hbm h

@[simp] theorem State.setGsem_hbm (s : State) (i : Nat) (g : GSem) : (s.setGsem i g).hbm = s.hbm := by
  simp [State.setGsem]

@[simp] theorem State.sigDiscard_hbm (s : State) : s.sigDiscard.hbm = s.hbm := by
  simp [State.sigDiscard]

@[simp] theorem State.applySignal_hbm (s : State) (ref : W64) (inc : Nat) : (s.applySignal ref inc).hbm = s.hbm := by
  unfold State.applySignal
  repeat' split
  all_goals simp

@[simp] theorem State.signalFrom_hbm (s : State) (n src : Nat) (ref : W64) (inc : Nat) :
    (s.signalFrom n src ref inc).hbm = s.hbm := by
  unfold State.signalFrom
  dsimp only
  split
  · rfl
  · split
    · next h => exact State.sendScheduled_hbm h
    · rfl

@[simp] theorem State.arriveFrom_hbm (s : State) (n chip index tag : Nat) : (s.arriveFrom n chip index tag).hbm = s.hbm := by
  unfold State.arriveFrom
  dsimp only
  split
  · rfl
  · split
    · next h => exact State.sendScheduled_hbm h
    · rfl

@[simp] theorem State.agentArrive_hbm (s : State) (src detail chip index tag : Nat) :
    (s.agentArrive src detail chip index tag).hbm = s.hbm := by
  simp [State.agentArrive]

@[simp] theorem State.releasePort_hbm (s : State) (l bp : Nat) (gen : BitVec 2) : (s.releasePort l bp gen).hbm = s.hbm := by
  unfold State.releasePort
  split <;> simp

@[simp] theorem State.releasePorts_hbm (s : State) (i : Nat) (gen : BitVec 2) : (s.releasePorts i gen).hbm = s.hbm := by
  unfold State.releasePorts
  dsimp only
  split <;> simp

@[simp] theorem belayGo_hbm (fuel : Nat) : ∀ (s : State) (a : BelayAct), (belayGo fuel s a).hbm = s.hbm := by
  induction fuel with
  | zero => exact fun _ _ => rfl
  | succ fuel ih =>
    rintro s (i | i | ⟨i, gen⟩)
    · unfold belayGo
      dsimp only
      split
      · split <;> simp [ih]
      · rfl
    · simp [belayGo, ih]
    · unfold belayGo
      dsimp only
      split <;> simp [ih]

@[simp] theorem State.belayArrive_hbm (s : State) (ref : W64) (tag : Nat) : (s.belayArrive ref tag).hbm = s.hbm := by
  simp [State.belayArrive]

@[simp] theorem State.belayRelease_hbm (s : State) (ref : W64) (gen : Nat) : (s.belayRelease ref gen).hbm = s.hbm :=
  belayGo_hbm _ s _

@[simp] theorem State.breakSenders_hbm (s : State) (chip l c : Nat) : (s.breakSenders chip l c).hbm = s.hbm := by
  simp [State.breakSenders]

@[simp] theorem State.grant_hbm (s : State) (n c tolls : Nat) : (s.grant n c tolls).hbm = s.hbm := by
  unfold State.grant
  dsimp only
  split
  · rfl
  · split
    · split <;> simp
    · simp

@[simp] theorem State.dynOn_hbm (s : State) (p : Nat) (r : Routed) : (s.dynOn p r).hbm = s.hbm := by
  simp [State.dynOn]

@[simp] theorem State.dynOnAll_hbm (s : State) (ps : List Nat) (r : Routed) : (s.dynOnAll ps r).hbm = s.hbm := by
  simp [State.dynOnAll]

@[simp] theorem State.dynForward_hbm (s : State) (from_ : Option Nat) (r : Routed) : (s.dynForward from_ r).hbm = s.hbm := by
  unfold State.dynForward
  repeat' split
  all_goals simp

@[simp] theorem State.sendDyn_hbm (s : State) (dst : Nat) (b : Rec) : (s.sendDyn dst b).hbm = s.hbm := by
  simp [State.sendDyn]

@[simp] theorem State.tookMgmt_hbm (s : State) (sub : Nat) (words : List W64) : (s.tookMgmt sub words).hbm = s.hbm := by
  simp [State.tookMgmt]

@[simp] theorem State.tileCtlWrite_hbm (s : State) (n off : Nat) (data : List Byte) :
    (s.tileCtlWrite n off data).hbm = s.hbm := by
  simp [State.tileCtlWrite]

@[simp] theorem State.enqueue_hbm (s : State) (n : Nat) (x : BSlot) (c : Tile → EngCmd) (poison : Tile → Bool) :
    (s.enqueue n x c poison).hbm = s.hbm :=
  State.issueS_hbm fun t s => by simp

@[simp] theorem State.doneLd_hbm (s : State) (n : Nat) (c : EngCmd) : (s.doneLd n c).hbm = s.hbm := by
  simp [State.doneLd]

@[simp] theorem State.doneSt_hbm (s : State) (n : Nat) (c : EngCmd) : (s.doneSt n c).hbm = s.hbm := by
  simp [State.doneSt]

@[simp] theorem State.strmStart_hbm (s : State) (n : Nat) (c : EngCmd) (keep : Tile → EngCmd → Tile) :
    (s.strmStart n c keep).1.hbm = s.hbm := by
  unfold State.strmStart
  split <;> simp

@[simp] theorem State.sendMessage_hbm (s : State) (n : Nat) (c : EngCmd) : (s.sendMessage n c).hbm = s.hbm := by
  unfold State.sendMessage
  dsimp only
  split
  · simp
  · split
    · next h => exact (State.sendScheduled_hbm h).trans (by simp)
    · simp

@[simp] theorem State.nextHold_hbm (s : State) (n : Nat) : (s.nextHold n).hbm = s.hbm := by
  simp [State.nextHold]

theorem State.syWait_hbm {s : State} {n : Nat} {cond : Tile → Bool} {go : State → State} {hold : Tile → Tile}
    (hgo : ∀ s, (go s).hbm = s.hbm) : (s.syWait n cond go hold).hbm = s.hbm := by
  simp [State.syWait, hgo]

@[simp] theorem State.arrivePort_hbm (s : State) (n bp : Nat) : (s.arrivePort n bp).hbm = s.hbm := by
  simp [State.arrivePort]

@[simp] theorem State.receive_hbm (s : State) (n c : Nat) (f : SyE) : (s.receive n c f).hbm = s.hbm := by
  unfold State.receive
  dsimp only
  split <;> simp

@[simp] theorem State.deliver_hbm (s : State) (m : InMsg) : (s.deliver m).hbm = s.hbm := by
  unfold State.deliver
  split <;> simp

@[simp] theorem State.tileFaults_hbm (s : State) (n : Nat) (f : Tile → Tile) : (s.tileFaults n f).hbm = s.hbm := by
  simp [State.tileFaults]

@[simp] theorem State.leaveUp_hbm (s : State) (p : Nat) (st : PortSt) : (s.leaveUp p st).hbm = s.hbm := by
  simp [State.leaveUp]

@[simp] theorem State.portFails_hbm (s : State) (p : Nat) (flag : CvPort → CvPort) : (s.portFails p flag).hbm = s.hbm := by
  simp [State.portFails]

@[simp] theorem State.disablePort_hbm (s : State) (p : Nat) : (s.disablePort p).hbm = s.hbm := by
  simp [State.disablePort]

@[simp] theorem State.sendIdle_hbm (s : State) (p : Nat) : (s.sendIdle p).hbm = s.hbm := by
  simp [State.sendIdle]

@[simp] theorem State.sendControl_hbm (s : State) (p : Nat) (flit : BitVec 2048) : (s.sendControl p flit).hbm = s.hbm := by
  simp [State.sendControl]

@[simp] theorem State.bufferError_hbm (s : State) (ecc : Bool) (p : Nat) : (s.bufferError ecc p).hbm = s.hbm := by
  simp [State.bufferError]

@[simp] theorem State.sendFlit_hbm (s : State) (p queue : Nat) (f : QFlit) (ecc : Bool) :
    (s.sendFlit p queue f ecc).hbm = s.hbm := by
  simp [State.sendFlit]

@[simp] theorem State.sendRetry_hbm (s : State) (p : Nat) (i : RetryItem) (ecc : Bool) : (s.sendRetry p i ecc).hbm = s.hbm := by
  simp [State.sendRetry]

@[simp] theorem State.sendIdleAnswer_hbm (s : State) (p n : Nat) : (s.sendIdleAnswer p n).hbm = s.hbm := by
  simp [State.sendIdleAnswer]

@[simp] theorem State.sendDynamic_hbm (s : State) (p : Nat) : (s.sendDynamic p).hbm = s.hbm := by
  unfold State.sendDynamic
  repeat' split
  all_goals simp

@[simp] theorem State.sendSlack_hbm (s : State) (p : Nat) (ecc : Bool) : (s.sendSlack p ecc).hbm = s.hbm := by
  unfold State.sendSlack
  split <;> simp

@[simp] theorem State.sendScheduledSlot_hbm (s : State) (p q : Nat) (opp ecc : Bool) :
    (s.sendScheduledSlot p q opp ecc).hbm = s.hbm := by
  unfold State.sendScheduledSlot
  dsimp only
  repeat' split
  all_goals simp

@[simp] theorem State.discards_hbm (s : State) (p n : Nat) : (s.discards p n).hbm = s.hbm := by
  simp [State.discards]

@[simp] theorem State.deliverRec_hbm (s : State) (p q : Nat) (r : Routed) : (s.deliverRec p q r).hbm = s.hbm := by
  simp [State.deliverRec]

@[simp] theorem State.dynArrive_hbm (s : State) (p : Nat) (r : Routed) : (s.dynArrive p r).hbm = s.hbm := by
  unfold State.dynArrive
  repeat' split
  all_goals simp

@[simp] theorem State.actRec_hbm (s : State) (p q : Nat) (r : Routed) : (s.actRec p q r).hbm = s.hbm := by
  simp [State.actRec]

theorem pumpGo_hbm {act : State → Routed → State} (hact : ∀ s r, (act s r).hbm = s.hbm) (fuel : Nat) :
    ∀ (s : State) (g : RxGroup), (pumpGo act fuel s g).1.hbm = s.hbm := by
  induction fuel with
  | zero => exact fun _ _ => rfl
  | succ fuel ih =>
    intro s g
    unfold pumpGo
    split
    · rfl
    · split
      · rfl
      · rw [ih]
        split <;> simp [hact]

@[simp] theorem State.pump_hbm (s : State) (p q : Nat) (g : RxGroup) : (s.pump p q g).hbm = s.hbm :=
  pumpGo_hbm (fun s r => State.actRec_hbm s p q r) 8 s g

@[simp] theorem State.feed_hbm (s : State) (p q : Nat) (sl : Slot) : (s.feed p q sl).hbm = s.hbm := by
  unfold State.feed
  repeat' split
  all_goals simp

@[simp] theorem State.actFlit_hbm (s : State) (p : Nat) (e : Option RxEntry) (sl : Slot) :
    (s.actFlit p e sl).1.hbm = s.hbm := by
  unfold State.actFlit
  repeat' split
  all_goals simp

/-- What each step of a fold keeps of the state it may find holds of the state found. -/
theorem foldl_option_keep {α β : Type} (P : α → Prop) {f : Option α → β → Option α}
    (hf : ∀ o b, (∀ u, o = some u → P u) → ∀ u, f o b = some u → P u) (l : List β) :
    ∀ o, (∀ u, o = some u → P u) → ∀ u, l.foldl f o = some u → P u := by
  induction l with
  | nil => exact fun _ ho => ho
  | cons b l ih => exact fun o ho => ih (f o b) (hf o b ho)

theorem releaseGo_hbm {act : State → Option RxEntry → Nat → Slot → State × Bool} (hact : ∀ s e n sl, (act s e n sl).1.hbm = s.hbm)
    (p : Nat) (all : Nat → Bool) (fuel : Nat) : ∀ s : State, (releaseGo act p all fuel s).hbm = s.hbm := by
  induction fuel with
  | zero => exact fun _ => rfl
  | succ fuel ih =>
    intro s
    unfold releaseGo
    dsimp only
    split
    · next t ht =>
      rw [ih]
      refine foldl_option_keep (fun u => u.hbm = s.hbm) (fun o w ho u hu => ?_) _ none (fun u hu => by cases hu) t ht
      split at hu
      · exact ho u hu
      · split at hu
        · split at hu
          · cases hu
            simp [hact]
          · cases hu
        · cases hu
    · rfl

@[simp] theorem State.absorb_hbm (s : State) (from_ q to_ q' : Nat) : (s.absorb from_ q to_ q').hbm = s.hbm :=
  releaseGo_hbm (fun s e _ sl => State.actFlit_hbm s from_ e sl) _ _ _ s

@[simp] theorem State.joinTwin_hbm (s : State) (p q : Nat) : (s.joinTwin p q).hbm = s.hbm := by
  unfold State.joinTwin
  split <;> simp

theorem State.turnFlit_hbm {inner : State → Nat → Slot → State × Bool} (hin : ∀ s p sl, (inner s p sl).1.hbm = s.hbm) (s : State)
    (p : Nat) (e : Option RxEntry) (sl : Slot) : (s.turnFlit inner p e sl).1.hbm = s.hbm := by
  unfold State.turnFlit
  dsimp only
  split
  · simp
  · split
    · simp
    · split <;> simp [hin]

theorem State.receiveFlit_hbm {inner : State → Nat → Slot → State × Bool} (hin : ∀ s p sl, (inner s p sl).1.hbm = s.hbm)
    (wrapped ecc : Bool) (s : State) (p : Nat) (sl : Slot) : (State.receiveFlit inner wrapped ecc s p sl).1.hbm = s.hbm := by
  have hrel := releaseGo_hbm (act := fun s e _ sl => s.turnFlit inner p e sl) fun s e _ sl => State.turnFlit_hbm hin s p e sl
  have hturn := State.turnFlit_hbm hin
  unfold State.receiveFlit
  extract_lets x n e q drop act before s0 s1
  have hact (s : State) (e : Option RxEntry) (sl : Slot) : (act s e sl).1.hbm = s.hbm := hturn s p e sl
  have hdrop (s : State) (off : Nat) : (drop s off).1.hbm = s.hbm := State.modPort_hbm s p _
  refine hbm_fst_ite (State.modPort_hbm s p _) (hbm_fst_ite (hdrop s _) (hbm_fst_ite (hdrop s _) ?_))
  split
  · refine hbm_fst_ite (hdrop s _) (hbm_fst_ite (hdrop s _) ?_)
    simp
  · have h0 : s0.hbm = s.hbm := by
      unfold s0
      split
      · exact hrel p _ _ s
      · rfl
    have h1 : s1.hbm = s.hbm := by
      unfold s1
      split <;> simp [h0]
    refine hbm_fst_ite h1 (hbm_fst_ite (hbm_fst_ite ?_ ?_) ?_)
    · simp [h1]
    · simp [h1]
    · refine hbm_fst_ite ?_ ?_
      · exact (State.modPort_hbm _ p _).trans ((hact s1 e sl).trans h1)
      · exact (hrel p _ _ _).trans ((State.modPort_hbm _ p _).trans ((hact s1 e sl).trans h1))

@[simp] theorem receiveGo_hbm (fuel : Nat) : ∀ (s : State) (p : Nat) (sl : Slot), (receiveGo fuel s p sl).1.hbm = s.hbm := by
  induction fuel with
  | zero => exact fun _ _ _ => rfl
  | succ fuel ih => exact fun s p sl => State.receiveFlit_hbm ih true false s p sl

@[simp] theorem State.receiveSlot_hbm (s : State) (p : Nat) (sl : Slot) (ecc : Bool) : (s.receiveSlot p sl ecc).1.hbm = s.hbm :=
  State.receiveFlit_hbm (receiveGo_hbm 16) false ecc s p sl

@[simp] theorem State.settleOrder_hbm (s : State) (p : Nat) : (s.settleOrder p).hbm = s.hbm :=
  releaseGo_hbm (fun s e _ sl => State.turnFlit_hbm (receiveGo_hbm 16) s p e sl) _ _ _ s

@[simp] theorem State.issueG_hbm (s : State) (n : Nat) (d : BitVec 5) (lat : Nat) (val : Tile → W64) (poison : Tile → Bool) :
    (s.issueG n d lat val poison).hbm = s.hbm := by
  simp [State.issueG]

@[simp] theorem State.alu2_hbm (s : State) (n : Nat) (f : ScF) (lat : Nat) (op : W64 → W64 → W64) :
    (s.alu2 n f lat op).hbm = s.hbm := by
  simp [State.alu2]

@[simp] theorem State.alu1_hbm (s : State) (n : Nat) (f : ScF) (lat : Nat) (op : W64 → W64) :
    (s.alu1 n f lat op).hbm = s.hbm := by
  simp [State.alu1]

@[simp] theorem State.fpOp_hbm (s : State) (n : Nat) (f : ScF) (op : Tile → W64 × ArithFlags) (poison : Tile → Bool) :
    (s.fpOp n f op poison).hbm = s.hbm := by
  simp [State.fpOp]

@[simp] theorem State.fp2_hbm (s : State) (n : Nat) (f : ScF) (op : W32 → W32 → W32 × ArithFlags) :
    (s.fp2 n f op).hbm = s.hbm := by
  simp [State.fp2]

@[simp] theorem State.modRowTiles_hbm (s : State) (r : Nat) (c : Tile → Bool) (f : Tile → Tile) :
    (s.modRowTiles r c f).hbm = s.hbm := by
  simp [State.modRowTiles]

@[simp] theorem State.boundaryHold_hbm (s : State) (r : Nat) (hs : List BHold) : (s.boundaryHold r hs).hbm = s.hbm := by
  simp [State.boundaryHold]

@[simp] theorem State.endBoundaryHold_hbm (s : State) (r : Nat) : (s.endBoundaryHold r).hbm = s.hbm := by
  simp [State.endBoundaryHold]

theorem State.nextBoundaryCycle_hbm {s : State} {r : Nat} {hs : List BHold} {go : State → State} (hgo : ∀ s, (go s).hbm = s.hbm) :
    (s.nextBoundaryCycle r hs go).hbm = s.hbm := by
  unfold State.nextBoundaryCycle
  split <;> simp [hgo]

theorem State.issueCross_hbm {s : State} {n : Nat} {write : Bool} {f : VeF} {go : Option SeqEntry → State → State}
    (hgo : ∀ e s, (go e s).hbm = s.hbm) : (s.issueCross n write f go).hbm = s.hbm := by
  have hnext (e : SeqEntry) :
    (s.nextBoundaryCycle (rowOf n) (s.row (rowOf n)).holds fun s => go (some e) (s.take n .ve)).hbm = s.hbm :=
    State.nextBoundaryCycle_hbm fun s => by simp [hgo]
  unfold State.issueCross
  dsimp only
  split
  · split <;> simp [hgo, hnext]
  · rfl

@[simp] theorem State.fillSlot_hbm (s : State) (e : SeqEntry) (data : Lanes) : (s.fillSlot e data).hbm = s.hbm := by
  simp [State.fillSlot]

@[simp] theorem State.emptySlot_hbm (s : State) (e : SeqEntry) : (s.emptySlot e).hbm = s.hbm := by
  simp [State.emptySlot]

@[simp] theorem State.setRedBlock_hbm (s : State) (rid block : Nat) (b : RedBlock) :
    (s.setRedBlock rid block b).hbm = s.hbm := by
  simp [State.setRedBlock]

@[simp] theorem State.depotFlags_hbm (s : State) (d : Nat) (f : ArithFlags) : (s.depotFlags d f).hbm = s.hbm := by
  simp [State.depotFlags]

@[simp] theorem State.forwardLog_hbm (s : State) (r : RedDesc) (block : Nat) (out : Lanes) :
    (s.forwardLog r block out).hbm = s.hbm := by
  unfold State.forwardLog
  split <;> simp

@[simp] theorem State.takeGsem_hbm (s : State) (i : Nat) : (s.takeGsem i).hbm = s.hbm := by
  simp [State.takeGsem]

@[simp] theorem State.sendReduce_hbm (s : State) (d : RedDesc) (block : Nat) (fmt : Nat) (data : List Unit64) :
    (s.sendReduce d block fmt data).hbm = s.hbm := by
  simp [State.sendReduce]

@[simp] theorem State.grantSenders_hbm (s : State) (d : RedDesc) : (s.grantSenders d).hbm = s.hbm := by
  simp [State.grantSenders]

@[simp] theorem State.releaseRed_hbm (s : State) (d : RedDesc) (block : Nat) : (s.releaseRed d block).hbm = s.hbm := by
  simp [State.releaseRed]

@[simp] theorem State.modUpd_hbm (s : State) (d u : Nat) (f : UpdUnit → UpdUnit) : (s.modUpd d u f).hbm = s.hbm := by
  simp [State.modUpd]

@[simp] theorem State.feedUnit_hbm (s : State) (i : Nat) (d : UpdDesc) (block : Nat) (step : W64) (data : Lanes) (replay : Bool) :
    (s.feedUnit i d block step data replay).hbm = s.hbm := by
  simp [State.feedUnit]

@[simp] theorem State.setHead_hbm (s : State) (d u : Nat) (b : UBlock) : (s.setHead d u b).hbm = s.hbm := by
  simp [State.setHead]

@[simp] theorem State.updArrive_hbm (s : State) (i : Nat) (d : UpdDesc) : (s.updArrive i d).hbm = s.hbm := by
  simp [State.updArrive]

@[simp] theorem State.setEndpoint_hbm (s : State) (e : Nat) (x : Endpoint) : (s.setEndpoint e x).hbm = s.hbm := by
  simp [State.setEndpoint]

@[simp] theorem State.flushCrossing_hbm (s : State) (e : Nat) : (s.flushCrossing e).hbm = s.hbm := by
  unfold State.flushCrossing
  refine foldl_hbm _ (fun s p => ?_) _ _
  split <;> simp

@[simp] theorem State.ownReset_hbm (s : State) (e : Nat) : (s.ownReset e).hbm = s.hbm := by
  simp [State.ownReset]

@[simp] theorem State.tellSenders_hbm (s : State) (n : Nat) : (s.tellSenders n).hbm = s.hbm := by
  unfold State.tellSenders
  split <;> simp

@[simp] theorem State.tellRemoteSenders_hbm (s : State) (n : Nat) : (s.tellRemoteSenders n).hbm = s.hbm := by
  unfold State.tellRemoteSenders
  split <;> simp

@[simp] theorem State.clearTile_hbm (s : State) (n : Nat) : (s.clearTile n).hbm = s.hbm := by
  simp [State.clearTile]

@[simp] theorem State.resetTile_hbm (s : State) (n : Nat) : (s.resetTile n).hbm = s.hbm := by
  simp [State.resetTile]

@[simp] theorem State.resetRow_hbm (s : State) (r : Nat) : (s.resetRow r).hbm = s.hbm := by
  simp [State.resetRow]

@[simp] theorem State.clearGsems_hbm (s : State) (first count : Nat) : (s.clearGsems first count).hbm = s.hbm := by
  simp [State.clearGsems]

@[simp] theorem State.clearReductions_hbm (s : State) (d : Nat) : (s.clearReductions d).hbm = s.hbm := by
  simp [State.clearReductions]

@[simp] theorem State.resetDepot_hbm (s : State) (d : Nat) : (s.resetDepot d).hbm = s.hbm := by
  simp [State.resetDepot]

@[simp] theorem State.resetCvPort_hbm (s : State) (p : Nat) : (s.resetCvPort p).hbm = s.hbm := by
  simp [State.resetCvPort]

@[simp] theorem State.hostLinkDown_hbm (s : State) (h : Nat) : (s.hostLinkDown h).hbm = s.hbm := by
  simp [State.hostLinkDown]

@[simp] theorem State.resetHostPort_hbm (s : State) (h : Nat) : (s.resetHostPort h).hbm = s.hbm := by
  simp [State.resetHostPort]

@[simp] theorem State.resetBlock_hbm (s : State) (b : BlockReq) : (s.resetBlock b).hbm = s.hbm := by
  unfold State.resetBlock
  split <;> simp

@[simp] theorem State.blockReset_hbm (s : State) (b : BlockReq) : (s.blockReset b).hbm = s.hbm := by
  simp [State.blockReset]

@[simp] theorem State.blockResetAll_hbm (s : State) (l : List BlockReq) : (s.blockResetAll l).hbm = s.hbm := by
  simp [State.blockResetAll]

@[simp] theorem State.askBlock_hbm (s : State) (b : BlockReq) : (s.askBlock b).hbm = s.hbm := by
  simp [State.askBlock]

@[simp] theorem State.goBlock_hbm (s : State) (kind index : Nat) : (s.goBlock kind index).hbm = s.hbm := by
  simp [State.goBlock]

@[simp] theorem State.finishBlock_hbm (s : State) : s.finishBlock.hbm = s.hbm := by
  unfold State.finishBlock
  split <;> simp

@[simp] theorem State.writeRail_hbm (s : State) (rail mv : Nat) : (s.writeRail rail mv).hbm = s.hbm := by
  simp [State.writeRail]

@[simp] theorem State.writeVolts_hbm (s : State) (p : Nat) : (s.writeVolts p).hbm = s.hbm := by
  simp [State.writeVolts]

@[simp] theorem State.writeRates_hbm (s : State) : s.writeRates.hbm = s.hbm := by
  simp [State.writeRates]

@[simp] theorem State.marginEvent_hbm (s : State) (core : Bool) : (s.marginEvent core).hbm = s.hbm := by
  simp [State.marginEvent]

@[simp] theorem State.switchPoint_hbm (s : State) (op : Nat) : (s.switchPoint op).hbm = s.hbm := by
  unfold State.switchPoint
  dsimp only
  split
  · simp
  · split <;> simp

@[simp] theorem State.takeChange_hbm (s : State) (op instant : Nat) : (s.takeChange op instant).hbm = s.hbm := by
  simp [State.takeChange]

@[simp] theorem State.postChange_hbm (s : State) (op : Nat) : (s.postChange op).hbm = s.hbm := by
  simp [State.postChange]

@[simp] theorem State.seekPoint_hbm (s : State) : s.seekPoint.hbm = s.hbm := by
  simp [State.seekPoint]

@[simp] theorem State.passCeiling_hbm (s : State) (sender : W64) (c : Nat) : (s.passCeiling sender c).hbm = s.hbm := by
  simp [State.passCeiling]

@[simp] theorem State.refreshCeiling_hbm (s : State) : s.refreshCeiling.hbm = s.hbm := by
  simp [State.refreshCeiling]

@[simp] theorem State.retirePoints_hbm (s : State) : s.retirePoints.hbm = s.hbm := by
  simp [State.retirePoints]

@[simp] theorem State.readRails_hbm (s : State) : s.readRails.hbm = s.hbm := by
  unfold State.readRails
  exact foldl_hbm _ (fun s k => by simp) _ _

@[simp] theorem State.alertHost_hbm (s : State) : s.alertHost.hbm = s.hbm := by
  simp [State.alertHost]

@[simp] theorem State.replan_hbm (s : State) : s.replan.hbm = s.hbm := by
  simp [State.replan]

@[simp] theorem State.emitLedger_hbm (s : State) : s.emitLedger.hbm = s.hbm := by
  simp [State.emitLedger]

@[simp] theorem State.placeProgram_hbm (s : State) (m : Image) (k : W64) : (s.placeProgram m k).hbm = s.hbm := by
  unfold State.placeProgram
  refine (foldl_hbm _ (fun s x => by simp) _ _).trans ?_
  exact foldl_hbm _ (fun s n => by simp) _ _

@[simp] theorem State.loadResets_hbm (s : State) : s.loadResets.hbm = s.hbm := by
  simp [State.loadResets]

@[simp] theorem State.installPorts_hbm (s : State) (m : Image) : (s.installPorts m).hbm = s.hbm := by
  unfold State.installPorts
  exact foldl_hbm _ (fun s k => by simp) _ _

@[simp] theorem State.measure_hbm (s : State) (m : Image) : (s.measure m).hbm = s.hbm := by
  simp [State.measure]

@[simp] theorem State.installTables_hbm (s : State) (m : Image) : (s.installTables m).hbm = s.hbm := by
  simp [State.installTables]

@[simp] theorem State.stepSeven_hbm (s : State) : s.stepSeven.2.hbm = s.hbm := by
  simp [State.stepSeven]

@[simp] theorem State.prepareSwitch_hbm (s : State) (r : RecSwitch) : (s.prepareSwitch r).hbm = s.hbm := by
  unfold State.prepareSwitch
  exact foldl_hbm _ (fun s k => by simp) _ _

@[simp] theorem State.nextSwitch_hbm (s : State) : s.nextSwitch.hbm = s.hbm := by
  unfold State.nextSwitch
  split
  · rfl
  · dsimp only
    split <;> simp

@[simp] theorem State.takeSwitch_hbm (s : State) (r : RecSwitch) : (s.takeSwitch r).hbm = s.hbm := by
  simp [State.takeSwitch]

@[simp] theorem State.postSwitch_hbm (s : State) (alt : Nat) (flush : Bool) (instant : Nat) :
    (s.postSwitch alt flush instant).hbm = s.hbm := by
  simp [State.postSwitch]

@[simp] theorem State.moveQueue_hbm (s : State) (p q : Nat) : (s.moveQueue p q).hbm = s.hbm := by
  unfold State.moveQueue
  split <;> simp

@[simp] theorem State.moveDynamic_hbm (s : State) (p : Nat) : (s.moveDynamic p).hbm = s.hbm := by
  simp [State.moveDynamic]

@[simp] theorem State.keepPort_hbm (s : State) (p : Nat) : (s.keepPort p).hbm = s.hbm := by
  simp [State.keepPort]

@[simp] theorem State.applySwitch_hbm (s : State) (r : RecSwitch) : (s.applySwitch r).hbm = s.hbm := by
  unfold State.applySwitch
  have hflush (l : List Nat) (u : State) : (l.foldl (fun s p => s.modPort p CvPort.flush) u).hbm = u.hbm :=
    foldl_hbm _ (fun s p => State.modPort_hbm s p _) l u
  have hswitch (l : List Nat) (n : Nat) (u : State) :
    (l.foldl (fun s p => s.modPort p fun x => x.switchTo r.alt n) u).hbm = u.hbm :=
    foldl_hbm _ (fun s p => State.modPort_hbm s p _) l u
  rw [State.nextSwitch_hbm]
  split
  · split <;> simp [hflush, hswitch]
  · split <;> simp [hflush, hswitch]

@[simp] theorem State.asOwner_hbm (s : State) (p : Nat) : (s.asOwner p).hbm = s.hbm := by
  unfold State.asOwner
  split <;> simp

@[simp] theorem State.beginCairn_hbm (s : State) (tag : W64) : (s.beginCairn tag).hbm = s.hbm := by
  simp [State.beginCairn]

@[simp] theorem State.resumeCairn_hbm (s : State) : s.resumeCairn.hbm = s.hbm := by
  unfold State.resumeCairn
  repeat' split
  all_goals simp

@[simp] theorem State.freeSlotAt_hbm (s : State) (h : Nat) : (s.freeSlotAt h).2.hbm = s.hbm := by
  unfold State.freeSlotAt
  split <;> simp

@[simp] theorem State.pruneLog_hbm (s : State) (owner : Nat) : (s.pruneLog owner).hbm = s.hbm := by
  simp [State.pruneLog]

@[simp] theorem State.freedSlot_hbm (s : State) (owner q slot : Nat) : (s.freedSlot owner q slot).2.hbm = s.hbm := by
  unfold State.freedSlot
  split <;> simp

@[simp] theorem State.chunkAcked_hbm (s : State) (slot q : Nat) (tag : W64) : (s.chunkAcked slot q tag).hbm = s.hbm := by
  simp [State.chunkAcked]

@[simp] theorem State.logAcked_hbm (s : State) (rid block : Nat) : (s.logAcked rid block).hbm = s.hbm := by
  unfold State.logAcked
  split <;> simp

@[simp] theorem State.finalLog_hbm (s : State) (step : W64) : (s.finalLog step).hbm = s.hbm := by
  simp [State.finalLog]

@[simp] theorem State.freshDigest_hbm (s : State) : s.freshDigest.2.hbm = s.hbm := by
  simp [State.freshDigest]

@[simp] theorem State.openChain_hbm (s : State) (first : W64) (position : Nat) : (s.openChain first position).hbm = s.hbm := by
  unfold State.openChain
  split
  · rfl
  · next m _ => by_cases h : position = m.position <;> simp [h]

@[simp] theorem State.openRun_hbm (s : State) (first : W64) : (s.openRun first).hbm = s.hbm := by
  unfold State.openRun
  split <;> simp

@[simp] theorem State.notifyAs_hbm (s : State) (cls st : Nat) (step place : W64) :
    (s.notifyAs cls st step place).hbm = s.hbm := by
  unfold State.notifyAs
  dsimp only
  split <;> simp

@[simp] theorem State.noteAs_hbm (s : State) (cls st : Nat) (step place : W64) : (s.noteAs cls st step place).hbm = s.hbm := by
  simp [State.noteAs]

@[simp] theorem State.detectAt_hbm (s : State) (p : Place) : (s.detectAt p).hbm = s.hbm := by
  unfold State.detectAt
  split <;> simp

@[simp] theorem State.keepUnit_hbm (s : State) (p : Place) : (s.keepUnit p).hbm = s.hbm := by
  unfold State.keepUnit
  repeat' split
  all_goals simp

@[simp] theorem State.sendFetch_hbm (s : State) (chip chunkOff logOff : Nat) :
    (s.sendFetch chip chunkOff logOff).hbm = s.hbm := by
  simp [State.sendFetch]

@[simp] theorem State.haltTiles_hbm (s : State) : s.haltTiles.hbm = s.hbm := by
  simp [State.haltTiles]

@[simp] theorem State.acceptHalt_hbm (s : State) (k : W64) (d : DevSt) (r : Reason) : (s.acceptHalt k d r).hbm = s.hbm := by
  simp [State.acceptHalt]

@[simp] theorem State.stopSolo_hbm (s : State) : s.stopSolo.hbm = s.hbm := by
  simp [State.stopSolo]

@[simp] theorem State.takeFault_hbm (s : State) (n : Nat) : (s.takeFault n).hbm = s.hbm := by
  simp [State.takeFault]

@[simp] theorem State.setRole_hbm (s : State) : s.setRole.hbm = s.hbm := by
  simp [State.setRole]

@[simp] theorem State.heardLead_hbm (s : State) (p : Option Nat) : (s.heardLead p).hbm = s.hbm := by
  unfold State.heardLead
  split <;> simp

@[simp] theorem State.waitOn_hbm (s : State) (p cls : Nat) : (s.waitOn p cls).hbm = s.hbm := by
  simp [State.waitOn]

@[simp] theorem State.waitOff_hbm (s : State) (p cls : Nat) : (s.waitOff p cls).hbm = s.hbm := by
  simp [State.waitOff]

@[simp] theorem State.switchInstant_hbm (s : State) : s.switchInstant.2.hbm = s.hbm := by
  simp [State.switchInstant]

@[simp] theorem State.postHalt_hbm (s : State) (k : W64) (d : DevSt) (r : Reason) (others : Bool) :
    (s.postHalt k d r others).hbm = s.hbm := by
  simp [State.postHalt]

@[simp] theorem State.stopRun_hbm (s : State) (cls : Nat) : (s.stopRun cls).hbm = s.hbm := by
  simp [State.stopRun]

@[simp] theorem State.takeoverSegment_hbm (s : State) (p : Nat) : (s.takeoverSegment p).2.hbm = s.hbm := by
  unfold State.takeoverSegment
  dsimp only
  split <;> simp

@[simp] theorem State.sendChain_hbm (s : State) (p : Nat) : (s.sendChain p).hbm = s.hbm := by
  simp [State.sendChain]

@[simp] theorem State.refillFor_hbm (s : State) (alt : Nat) : (s.refillFor alt).hbm = s.hbm := by
  unfold State.refillFor
  split <;> simp

@[simp] theorem State.acceptStart_hbm (s : State) (alt : Nat) (start : Nat) : (s.acceptStart alt start).hbm = s.hbm := by
  unfold State.acceptStart
  split <;> simp

@[simp] theorem State.postStart_hbm (s : State) (given : Option Nat) : (s.postStart given).hbm = s.hbm := by
  unfold State.postStart
  rw [State.acceptStart_hbm, State.postSwitch_hbm]
  split
  · refine (foldl_hbm _ (fun s t => by split <;> simp) _ _).trans ?_
    simp
  · simp

@[simp] theorem State.tryStart_hbm (s : State) : s.tryStart.hbm = s.hbm := by
  unfold State.tryStart
  repeat' split
  all_goals simp

@[simp] theorem State.haltState_hbm (s : State) : s.haltState.2.hbm = s.hbm := by
  unfold State.haltState
  split <;> simp

@[simp] theorem State.answerHalts_hbm (s : State) (k : W64) : (s.answerHalts k).hbm = s.hbm := by
  simp [State.answerHalts]

@[simp] theorem State.leadHalt_hbm (s : State) : s.leadHalt.hbm = s.hbm := by
  simp [State.leadHalt]

@[simp] theorem State.takeHalt_hbm (s : State) (team : Nat) (k : W64) : (s.takeHalt team k).hbm = s.hbm := by
  simp [State.takeHalt]

@[simp] theorem State.armPrimary_hbm (s : State) : s.armPrimary.hbm = s.hbm := by
  simp [State.armPrimary]

@[simp] theorem State.firstRow_hbm (s : State) : s.firstRow.hbm = s.hbm := by
  simp [State.firstRow]

@[simp] theorem State.startRow_hbm (s : State) (r : Nat) : (s.startRow r).hbm = s.hbm := by
  unfold State.startRow
  split
  · rfl
  · refine (foldl_hbm _ (fun s n => by simp) _ _).trans ?_
    simp

@[simp] theorem State.sendTakeover_hbm (s : State) (p alt spare : Nat) : (s.sendTakeover p alt spare).hbm = s.hbm := by
  simp [State.sendTakeover]

@[simp] theorem State.assignSpare_hbm (s : State) (p : Nat) (c : FailCase) : (s.assignSpare p c).hbm = s.hbm := by
  simp [State.assignSpare]

@[simp] theorem State.nextSpare_hbm (s : State) (p : Nat) : (s.nextSpare p).hbm = s.hbm := by
  unfold State.nextSpare
  dsimp only
  split <;> simp

@[simp] theorem State.escalate_hbm (s : State) (again : List Nat) : (s.escalate again).hbm = s.hbm := by
  unfold State.escalate
  split
  · rfl
  · refine foldl_hbm _ (fun s p => ?_) _ _
    split
    · simp
    · split <;> simp

@[simp] theorem State.loseSelf_hbm (s : State) (p : Nat) : (s.loseSelf p).hbm = s.hbm := by
  unfold State.loseSelf
  split <;> simp

@[simp] theorem State.declareLost_hbm (s : State) (p : Nat) : (s.declareLost p).hbm = s.hbm := by
  unfold State.declareLost
  dsimp only
  refine hbm_ite_of rfl (hbm_ite_of (State.loseSelf_hbm s p) (hbm_ite_of (State.nextSpare_hbm s p) (hbm_ite_of ?_ ?_)))
  · simp only [State.stopRun_hbm, State.record_hbm, State.setRole_hbm]
  · split
    · simp only [State.stopRun_hbm, State.record_hbm, State.setRole_hbm]
    · simp only [State.assignSpare_hbm, State.escalate_hbm, State.postHalt_hbm, State.record_hbm, State.setRole_hbm]

@[simp] theorem State.promote_hbm (s : State) (p : Nat) : (s.promote p).hbm = s.hbm := by
  simp [State.promote]

@[simp] theorem State.linkLost_hbm (s : State) (position port : Nat) : (s.linkLost position port).hbm = s.hbm := by
  unfold State.linkLost
  split <;> simp

@[simp] theorem State.portFailed_hbm (s : State) (position port : Nat) : (s.portFailed position port).hbm = s.hbm := by
  unfold State.portFailed
  dsimp only
  split
  · rfl
  · split
    · simp
    · split <;> simp

@[simp] theorem State.rerun_hbm (s : State) (e : LedgerEntry) : (s.rerun e).hbm = s.hbm := by
  simp [State.rerun]

@[simp] theorem State.hostUnit_hbm (s : State) (p : Nat) : (s.hostUnit p).hbm = s.hbm := by
  simp [State.hostUnit]

@[simp] theorem State.act_hbm (s : State) (e : LedgerEntry) : (s.act e).hbm = s.hbm := by
  unfold State.act
  split <;> simp

@[simp] theorem State.heardStop_hbm (s : State) (e : LedgerEntry) : (s.heardStop e).hbm = s.hbm := by
  simp [State.heardStop]

theorem State.spareLink_hbm {s s' : State} {o : Option Nat} {e : LedgerEntry} (h : s.spareLink o e = some s') : s'.hbm = s.hbm := by
  unfold State.spareLink at h
  split at h
  · split at h
    · cases h
      rfl
    · cases h
  · cases h

@[simp] theorem State.heard_hbm (s : State) (from_ : Option Nat) (e : LedgerEntry) : (s.heard from_ e).hbm = s.hbm := by
  unfold State.heard
  split
  · split
    · next h => simp [State.spareLink_hbm h]
    · simp
  · split <;> simp

@[simp] theorem State.takeoverFails_hbm (s : State) (lead : Option Nat) (pos : Nat) (k : W64) :
    (s.takeoverFails lead pos k).hbm = s.hbm := by
  unfold State.takeoverFails
  split <;> simp

@[simp] theorem State.afterRestore_hbm (s : State) : s.afterRestore.hbm = s.hbm := by
  unfold State.afterRestore
  dsimp only
  split <;> simp

@[simp] theorem State.reinstall_hbm (s : State) (m : Image) (tileMap : List Nat) (k : W64) :
    (s.reinstall m tileMap k).hbm = s.hbm := by
  simp [State.reinstall]

@[simp] theorem State.boot_hbm (s : State) : s.boot.hbm = s.hbm := by
  simp [State.boot]

@[simp] theorem State.warmBlocks_bytes (s : State) : s.warmBlocks.hbm.bytes = s.hbm.bytes := by
  simp [State.warmBlocks]

@[simp] theorem State.tellAllSenders_hbm (s : State) : s.tellAllSenders.hbm = s.hbm := by
  simp [State.tellAllSenders]

@[simp] theorem State.startDormas_hbm (s : State) : s.startDormas.hbm = s.hbm := by
  simp [State.startDormas]

@[simp] theorem State.fwAcked_hbm (s : State) (received status : Nat) : (s.fwAcked received status).hbm = s.hbm := by
  simp [State.fwAcked]

@[simp] theorem State.fwEnd_hbm (s : State) (code : Nat) : (s.fwEnd code).hbm = s.hbm := by
  simp [State.fwEnd]

@[simp] theorem State.fwAppend_hbm (s : State) (src offset : Nat) (data : List Byte) :
    (s.fwAppend src offset data).hbm = s.hbm := by
  simp [State.fwAppend]

@[simp] theorem State.steer_hbm (s : State) (w : RecWaypoint) (t4 : Nat) : (s.steer w t4).hbm = s.hbm := by
  simp [State.steer]

@[simp] theorem State.refSwitch_hbm (s : State) (b : Bool) : (s.refSwitch b).hbm = s.hbm := by
  simp [State.refSwitch]

@[simp] theorem State.selectRef_hbm (s : State) : s.selectRef.hbm = s.hbm := by
  simp [State.selectRef]

@[simp] theorem State.gsWrite_hbm (s : State) (first count o : Nat) (p : Part) : (s.gsWrite first count o p).hbm = s.hbm := by
  simp [State.gsWrite]

@[simp] theorem State.depotWrite_hbm (s : State) (d o : Nat) (p : Part) : (s.depotWrite d o p).hbm = s.hbm := by
  simp [State.depotWrite]

@[simp] theorem State.cvPortWrite_hbm (s : State) (k o : Nat) (p : Part) : (s.cvPortWrite k o p).hbm = s.hbm := by
  simp [State.cvPortWrite]

@[simp] theorem State.setHostPort_hbm (s : State) (h : Nat) (enable : Bool) (speed : Nat) :
    (s.setHostPort h enable speed).hbm = s.hbm := by
  simp [State.setHostPort]

@[simp] theorem State.hportWrite_hbm (s : State) (h o : Nat) (p : Part) : (s.hportWrite h o p).hbm = s.hbm := by
  simp [State.hportWrite]

@[simp] theorem State.powerCfgWrite_hbm (s : State) (p : Part) : (s.powerCfgWrite p).hbm = s.hbm := by
  simp [State.powerCfgWrite]

@[simp] theorem State.blockResetWrite_hbm (s : State) (g : Agent) (p : Part) : (s.blockResetWrite g p).hbm = s.hbm := by
  simp [State.blockResetWrite]

@[simp] theorem State.clockWrite_hbm (s : State) (g : Agent) (o : Nat) (p : Part) : (s.clockWrite g o p).hbm = s.hbm := by
  simp [State.clockWrite]

@[simp] theorem State.bcWdogWrite_hbm (s : State) (g : Agent) (p : Part) : (s.bcWdogWrite g p).hbm = s.hbm := by
  simp [State.bcWdogWrite]

@[simp] theorem State.baseWrite_hbm (s : State) (g : Agent) (o : Nat) (p : Part) : (s.baseWrite g o p).hbm = s.hbm := by
  simp [State.baseWrite]

@[simp] theorem State.partWrite_hbm (s : State) (g : Agent) (o : Nat) (p : Part) : (s.partWrite g o p).hbm = s.hbm := by
  simp [State.partWrite]

@[simp] theorem State.ctlWrite_hbm (s : State) (g : Agent) (off : Nat) (data : List Byte) :
    (s.ctlWrite g off data).hbm = s.hbm := by
  simp [State.ctlWrite]

@[simp] theorem State.gotFrames_hbm (s : State) (h n : Nat) : (s.gotFrames h n).hbm = s.hbm := by
  simp [State.gotFrames]

@[simp] theorem State.warmDrop_hbm (s : State) (port n : Nat) : (s.warmDrop port n).hbm = s.hbm := by
  simp [State.warmDrop]

@[simp] theorem State.noSession_hbm (s : State) (port n : Nat) : (s.noSession port n).hbm = s.hbm := by
  simp [State.noSession]

@[simp] theorem State.putOut_hbm (s : State) (port : Nat) (o : Output) : (s.putOut port o).hbm = s.hbm := by
  simp [State.putOut]

@[simp] theorem State.handshakeFail_hbm (s : State) : s.handshakeFail.hbm = s.hbm := by
  simp [State.handshakeFail]

@[simp] theorem State.openHalf_hbm (s : State) (port : Nat) (h : Hello1) : (s.openHalf port h).hbm = s.hbm := by
  simp [State.openHalf]

@[simp] theorem State.dropHalf_hbm (s : State) (id : Nat) : (s.dropHalf id).hbm = s.hbm := by
  simp [State.dropHalf]

@[simp] theorem State.endSessions_hbm (s : State) (f : Session → Bool) : (s.endSessions f).hbm = s.hbm := by
  simp [State.endSessions]

@[simp] theorem State.openSession_hbm (s : State) (x : HalfOpen) (port : Nat) : (s.openSession x port).hbm = s.hbm := by
  simp [State.openSession]

@[simp] theorem State.sendAck_hbm (s : State) (id : Nat) : (s.sendAck id).hbm = s.hbm := by
  unfold State.sendAck
  split <;> simp

@[simp] theorem State.loseSession_hbm (s : State) (id : Nat) : (s.loseSession id).hbm = s.hbm := by
  simp [State.loseSession]

@[simp] theorem State.followPlan_hbm (s : State) : s.followPlan.hbm = s.hbm := by
  simp [State.followPlan]

@[simp] theorem State.startFresh_hbm (s : State) : s.startFresh.hbm = s.hbm := by
  simp [State.startFresh]

@[simp] theorem State.openQp_hbm (s : State) (q : QpBody) : (s.openQp q).2.2.hbm = s.hbm := by
  simp [State.openQp]

@[simp] theorem State.afterLoad_hbm (s : State) : s.afterLoad.hbm = s.hbm := by
  simp [State.afterLoad]

@[simp] theorem State.joinTeam_hbm (s : State) (b : TeamBody) : (s.joinTeam b).hbm = s.hbm := by
  simp [State.joinTeam]

@[simp] theorem State.beginRun_hbm (s : State) (at_ : Nat) (step : W64) : (s.beginRun at_ step).hbm = s.hbm := by
  simp [State.beginRun]

@[simp] theorem State.modQp_hbm (s : State) (e : Nat) (f : Qp → Qp) : (s.modQp e f).hbm = s.hbm := by
  unfold State.modQp
  split <;> simp

@[simp] theorem State.qpEvent_hbm (s : State) (qpn syndrome offset : Nat) : (s.qpEvent qpn syndrome offset).hbm = s.hbm := by
  simp [State.qpEvent]

@[simp] theorem State.qpEventAnon_hbm (s : State) (qpn syndrome : Nat) : (s.qpEventAnon qpn syndrome).hbm = s.hbm := by
  simp [State.qpEventAnon]

@[simp] theorem State.qpOut_hbm (s : State) (q : Qp) (o : Output) : (s.qpOut q o).hbm = s.hbm := by
  simp [State.qpOut]

@[simp] theorem State.qpNak_hbm (s : State) (e : Nat) (q : Qp) (syndrome : Nat) : (s.qpNak e q syndrome).hbm = s.hbm := by
  simp [State.qpNak]

@[simp] theorem State.roceDrop_hbm (s : State) (port : Nat) : (s.roceDrop port).hbm = s.hbm := by
  simp [State.roceDrop]

@[simp] theorem State.roceDropAny_hbm (s : State) : s.roceDropAny.hbm = s.hbm := by
  simp [State.roceDropAny]

@[simp] theorem State.rnr_hbm (s : State) (q : Qp) : (s.rnr q).hbm = s.hbm := by
  simp [State.rnr]

@[simp] theorem State.qpInvalid_hbm (s : State) (e : Nat) (q : Qp) : (s.qpInvalid e q).hbm = s.hbm := by
  simp [State.qpInvalid]

@[simp] theorem State.sendBroken_hbm (s : State) (e : Nat) (q : Qp) : (s.sendBroken e q).hbm = s.hbm := by
  simp [State.sendBroken]

@[simp] theorem State.sendHost_hbm (s : State) (e : Nat) (q : Qp) (size : Nat) (data : List Byte) :
    (s.sendHost e q size data).hbm = s.hbm := by
  simp [State.sendHost]

@[simp] theorem State.roceSend_hbm (s : State) (e : Nat) (q : Qp) (data : List Byte) : (s.roceSend e q data).hbm = s.hbm := by
  unfold State.roceSend
  repeat' split
  all_goals simp

@[simp] theorem State.qpDenied_hbm (s : State) (e : Nat) (q : Qp) (va : Nat) : (s.qpDenied e q va).hbm = s.hbm := by
  simp [State.qpDenied]

@[simp] theorem State.otherDrop_hbm (s : State) (h : Nat) : (s.otherDrop h).hbm = s.hbm := by
  simp [State.otherDrop]

@[simp] theorem State.announce_hbm (s : State) (h : Nat) (a : BitVec 128) : (s.announce h a).hbm = s.hbm := by
  simp [State.announce]

@[simp] theorem State.countWaybill_hbm (s : State) : s.countWaybill.hbm = s.hbm := by
  simp [State.countWaybill]

@[simp] theorem State.gather_hbm (s : State) (id req : Nat) (input : List Byte) : (s.gather id req input).hbm = s.hbm := by
  simp [State.gather]

@[simp] theorem State.smb_hbm (s : State) (w v : Nat) : (s.smb w v).hbm = s.hbm := by
  simp [State.smb]

@[simp] theorem State.smbAlways_hbm (s : State) (w v : Nat) : (s.smbAlways w v).hbm = s.hbm := by
  simp [State.smbAlways]

@[simp] theorem State.smbDormas_hbm (s : State) (w v : Nat) : (s.smbDormas w v).hbm = s.hbm := by
  simp [State.smbDormas]

@[simp] theorem State.jtag_hbm (s : State) (ir : JtagIr) (out : List Output) : (s.jtag ir out).hbm = s.hbm := by
  simp [State.jtag]

@[simp] theorem State.primaryLeg_hbm (s : State) : s.primaryLeg.hbm = s.hbm := by
  simp [State.primaryLeg]

@[simp] theorem State.tick_hbm (s : State) : s.tick.hbm = s.hbm := by
  simp [State.tick]

@[simp] theorem State.idle_hbm (s : State) : s.idle.hbm = s.hbm := by
  simp [State.idle]

@[simp] theorem State.withFetchWord_hbm (s : State) (nbits w : Nat) : (s.withFetchWord nbits w).hbm = s.hbm := by
  unfold State.withFetchWord
  split <;> simp

end Sys2Proof.Machine
end

section
/-! The form of HBM's bytes through every step: what writes keeps the form (10_depots.md). -/

namespace Sys2Proof.Machine

open Sys2Proof

/-! ### Functions that leave HBM's bytes as they are -/

@[simp] theorem Hbm.bytes_ite (c : Prop) [Decidable c] (a b : Hbm) : (if c then a else b).bytes = if c then a.bytes else b.bytes :=
  apply_ite Hbm.bytes c a b

theorem foldl_bytes {α : Type} {f : State → α → State} (h : ∀ s x, (f s x).hbm.bytes = s.hbm.bytes) (l : List α)
    (s : State) : (l.foldl f s).hbm.bytes = s.hbm.bytes :=
  State.foldl_keep (fun s => s.hbm.bytes) f h l s

@[simp] theorem State.engineRead_bytes (s : State) (n : Nat) (g : W64) (len : Nat) :
    (s.engineRead n g len).1.hbm.bytes = s.hbm.bytes := by
  unfold State.engineRead
  split
  · rfl
  · split
    · simp
    · split
      · split <;> simp
      · split <;> simp

@[simp] theorem State.strmIndex_bytes (s : State) (n : Nat) (d : StrmDesc) (j : Nat) :
    (s.strmIndex n d j).1.hbm.bytes = s.hbm.bytes := by
  unfold State.strmIndex
  split <;> simp

@[simp] theorem State.gatherRow_bytes (s : State) (n : Nat) (d : StrmDesc) (j : Nat) :
    (s.gatherRow n d j).hbm.bytes = s.hbm.bytes := by
  unfold State.gatherRow
  dsimp only
  split <;> simp

@[simp] theorem State.mapApply_bytes (s : State) (m : MapEntry) : (s.mapApply m).hbm.bytes = s.hbm.bytes := by
  simp [State.mapApply]

@[simp] theorem mapGo_bytes (l : List MapEntry) : ∀ (s : State) (n : Nat), (mapGo l s n).1.hbm.bytes = s.hbm.bytes := by
  induction l with
  | nil => exact fun _ _ => rfl
  | cons m l ih =>
    intro s n
    unfold mapGo
    split
    · rfl
    · split
      · rfl
      · simp [ih]

@[simp] theorem State.mapRun_bytes (s : State) (id req : Nat) (l : List MapEntry) (n : Nat) :
    (s.mapRun id req l n).hbm.bytes = s.hbm.bytes := by
  unfold State.mapRun
  dsimp only
  split
  · simp
  · split <;> simp

@[simp] theorem State.mapResume_bytes (s : State) : s.mapResume.hbm.bytes = s.hbm.bytes := by
  unfold State.mapResume
  split <;> simp

@[simp] theorem State.readStage_bytes (s : State) (d : RedDesc) : (s.readStage d).1.hbm.bytes = s.hbm.bytes := by
  simp [State.readStage]

@[simp] theorem State.sendStage_bytes (s : State) (d : RedDesc) : (s.sendStage d).hbm.bytes = s.hbm.bytes := by
  unfold State.sendStage
  dsimp only
  split
  · simp
  · split <;> simp

@[simp] theorem State.arrayTouch_bytes (s : State) (f b len : Nat) : (s.arrayTouch f b len).hbm.bytes = s.hbm.bytes :=
  foldl_bytes (fun s (x : Nat × Nat) => State.hbmTouch_bytes s x.1 x.2 true) _ s

@[simp] theorem State.readRegion_bytes (s : State) (base size : Nat) : (s.readRegion base size).1.hbm.bytes = s.hbm.bytes := by
  simp [State.readRegion]

@[simp] theorem State.chunkTouch_bytes (s : State) (q tag : Nat) : (s.chunkTouch q tag).hbm.bytes = s.hbm.bytes :=
  foldl_bytes (fun s (x : Nat × Nat) => State.hbmTouch_bytes s x.1 x.2 true) _ s

@[simp] theorem State.sendChunk_bytes (s : State) (q : Nat) (tag : W64) (h : Nat) :
    (s.sendChunk q tag h).hbm.bytes = s.hbm.bytes := by
  simp [State.sendChunk]

@[simp] theorem State.fold_bytes (s : State) (step : W64) : (s.fold step).hbm.bytes = s.hbm.bytes := by
  have htouch : (s.outputs.foldl (fun s e => s.hbmTouch (s.outSpan e step.toNat).1 (s.outSpan e step.toNat).2 true) s).hbm.bytes
      = s.hbm.bytes := foldl_bytes (fun s e => State.hbmTouch_bytes s _ _ true) _ s
  unfold State.fold
  refine (foldl_bytes (fun s d => by simp) _ _).trans ?_
  exact htouch

@[simp] theorem State.endStep_bytes (s : State) : s.endStep.hbm.bytes = s.hbm.bytes := by
  simp [State.endStep]

@[simp] theorem State.sendLogEntry_bytes (s : State) (owner chip logOff : Nat) (e : Nat × W64 × Nat × Nat × Bool) :
    (s.sendLogEntry owner chip logOff e).hbm.bytes = s.hbm.bytes := by
  simp [State.sendLogEntry]

@[simp] theorem State.sendStaged_bytes (s : State) (owner chip chunkOff q slot : Nat) :
    (s.sendStaged owner chip chunkOff q slot).hbm.bytes = s.hbm.bytes := by
  simp [State.sendStaged]

@[simp] theorem State.serveFetch_bytes (s : State) (owner chip chunkOff logOff : Nat) :
    (s.serveFetch owner chip chunkOff logOff).hbm.bytes = s.hbm.bytes := by
  unfold State.serveFetch
  dsimp only
  split
  · simp
  · refine (foldl_bytes (fun s q => ?_) _ _).trans (foldl_bytes (fun s e => State.sendLogEntry_bytes s _ _ _ e) _ s)
    split <;> simp

@[simp] theorem State.repairReload_bytes (s : State) (m : Image) : (s.repairReload m).hbm.bytes = s.hbm.bytes := by
  unfold State.repairReload
  dsimp only
  split <;> simp

@[simp] theorem State.warmReset_bytes (s : State) (cause : BitVec 8) : (s.warmReset cause).hbm.bytes = s.hbm.bytes := by
  simp [State.warmReset, State.warmState]

@[simp] theorem State.takeLedger_bytes (s : State) (b : List Byte) : (s.takeLedger b).hbm.bytes = s.hbm.bytes := by
  simp [State.takeLedger]

@[simp] theorem State.rdmaRead_bytes (s : State) (e : Nat) (q : Qp) (va len : Nat) :
    (s.rdmaRead e q va len).hbm.bytes = s.hbm.bytes := by
  unfold State.rdmaRead
  dsimp only
  split <;> simp

/-! ### The form -/

/-- HBM's bytes are in their one form. -/
def State.HasForm (s : State) : Prop := Memory.wf s.hbm.bytes = true

theorem State.HasForm.of_bytes {s t : State} (h : s.HasForm) (e : t.hbm.bytes = s.hbm.bytes) : t.HasForm := by
  unfold State.HasForm
  rw [e]
  exact h

theorem State.HasForm.of_hbm {s t : State} (h : s.HasForm) (e : t.hbm = s.hbm) : t.HasForm :=
  h.of_bytes (congrArg Hbm.bytes e)

theorem State.HasForm.ite {c : Prop} [Decidable c] {a b : State} (ha : a.HasForm) (hb : b.HasForm) :
    (if c then a else b).HasForm := by
  split <;> assumption

theorem State.HasForm.foldl {α : Type} {f : State → α → State} (hf : ∀ s x, s.HasForm → (f s x).HasForm) (l : List α) :
    ∀ s : State, s.HasForm → (l.foldl f s).HasForm := by
  induction l with
  | nil => exact fun _ h => h
  | cons x l ih => exact fun s h => ih (f s x) (hf s x h)

/-! ### Functions that write -/

section
variable {s : State} (h : s.HasForm)
include h

theorem State.HasForm.hbmWrite (off : Nat) (data : List (Byte × Bool)) (wp : Bool) : (s.hbmWrite off data wp).HasForm :=
  State.hbmWrite_wf off data wp h

theorem State.HasForm.landWrite (r : RecWrite) : (s.landWrite r).HasForm := by
  unfold State.landWrite
  dsimp only
  split
  · exact h.hbmWrite _ _ _
  · split
    · split
      · exact h.of_hbm (State.modTile_hbm s _ _)
      · exact h
    · exact h

theorem State.HasForm.completeRed (r : RedDesc) (block : Nat) : (s.completeRed r block).HasForm := by
  unfold State.completeRed
  extract_lets b rs out s1 free s2 s3 s4
  have h2 : s2.HasForm := h.of_hbm (by simp [s2, s1])
  have h3 : s3.HasForm := by
    unfold s3
    split
    · exact State.HasForm.ite (h2.hbmWrite _ _ _) h2
    · exact h2
  have h4 : s4.HasForm := State.HasForm.ite (h3.of_hbm (by simp)) h3
  exact State.HasForm.ite ((h4.hbmWrite _ _ _).of_hbm (State.setRedBlock_hbm _ _ _ _)) h4

theorem State.HasForm.contribute (r : RedDesc) (block k : Nat) (c : Lanes) (arrival : Bool) :
    (s.contribute r block k c arrival).HasForm := by
  unfold State.contribute
  dsimp only
  have h1 (f : ArithFlags) (b : RedBlock) : ((s.depotFlags r.depot f).setRedBlock r.rid block b).HasForm := h.of_hbm (by simp)
  exact State.HasForm.ite ((h1 _ _).completeRed _ _) (h1 _ _)

theorem State.HasForm.localStage (d : RedDesc) : (s.localStage d).HasForm := by
  unfold State.localStage
  dsimp only
  refine State.HasForm.ite (State.HasForm.contribute (h.of_bytes ?_) _ _ _ _ _) h
  exact State.readStage_bytes s d

theorem State.HasForm.placeHbm (m : Image) : (s.placeHbm m).HasForm :=
  State.HasForm.foldl (fun _ _ hs => hs.hbmWrite _ _ _) _ s h

theorem State.HasForm.install (m : Image) (tileMap : List Nat) (k : W64) : (s.install m tileMap k).HasForm := by
  unfold State.install
  extract_lets s1 s2 s3
  have h2 : s2.HasForm := h.of_hbm (by simp [s2, s1])
  have hplaced : ((s2.placeProgram m k).placeHbm m).HasForm := (h2.of_hbm (by simp)).placeHbm m
  exact hplaced.of_hbm (State.measure_hbm _ m)

theorem State.HasForm.loadImage (position base size : Nat) (bind : List W64) (repair : List Nat) (k : W64) :
    (s.loadImage position base size bind repair k).1.HasForm := by
  have hread : (s.readRegion base size).1.HasForm := h.of_bytes (State.readRegion_bytes s base size)
  unfold State.loadImage
  dsimp only
  split
  · exact hread
  · exact hread.install _ _ _

theorem State.HasForm.commit (owner slot q : Nat) (tag : W64) (bytes : Nat) : (s.commit owner slot q tag bytes).HasForm := by
  have hfreed : (s.freedSlot owner q slot).2.HasForm := h.of_hbm (State.freedSlot_hbm s owner q slot)
  unfold State.commit
  dsimp only
  exact (hfreed.hbmWrite _ _ _).of_hbm ((State.sendMgmt_hbm _ _ _ _).trans (State.pruneLog_hbm _ _))

theorem State.HasForm.appendLog (r : RecLog) : (s.appendLog r).HasForm := by
  unfold State.appendLog
  dsimp only
  exact (h.hbmWrite _ _ _).of_hbm (State.sendMgmt_hbm _ _ _ _)

theorem State.HasForm.mendUnit (k : Nat) : (s.mendUnit k).HasForm := by
  unfold State.mendUnit
  dsimp only
  refine State.HasForm.ite h ?_
  split
  · exact h.hbmWrite _ _ _
  · exact h

theorem State.HasForm.resolveUnits : s.resolveUnits.HasForm := by
  unfold State.resolveUnits
  extract_lets s0 s1
  have h0 : s0.HasForm := State.HasForm.foldl (fun _ _ hs => hs.mendUnit _) _ s h
  have h1 : s1.HasForm := State.HasForm.ite h0 (h0.of_hbm (by simp))
  exact State.HasForm.ite (State.HasForm.ite (h1.of_hbm (by simp)) (h1.of_hbm (by simp))) (State.HasForm.ite (h1.of_hbm rfl) h1)

theorem State.HasForm.teamHalt : s.teamHalt.HasForm := (h.of_hbm (State.haltTiles_hbm s)).resolveUnits

theorem State.HasForm.takeReport (r : PReport) : (s.takeReport r).HasForm := by
  unfold State.takeReport
  extract_lets cls w s0 s1
  have h0 : s0.HasForm := h.of_hbm (State.keepUnit_hbm s r.place)
  have h1 : s1.HasForm := h0.of_hbm (by simp [s1])
  refine State.HasForm.ite (State.HasForm.ite h1.resolveUnits h1) (State.HasForm.ite (h0.of_hbm (by simp))
    (State.HasForm.ite (h0.of_hbm (by simp)) (State.HasForm.ite (h0.of_hbm (by simp)) (h0.of_hbm (by simp)))))

theorem State.HasForm.leadResume : s.leadResume.HasForm := by
  unfold State.leadResume
  dsimp only
  have h1 (r : Recovery) (k : W64) : (({ s with recov := r }).enter .recovering .none k).HasForm := h.of_hbm (by simp)
  exact State.HasForm.ite ((State.HasForm.ite (h1 _ _).resolveUnits (h1 _ _)).of_hbm (State.tryStart_hbm _)) h

theorem State.HasForm.takeStart (alt start : Nat) (mine : Bool) : (s.takeStart alt start mine).HasForm :=
  State.HasForm.ite (State.HasForm.ite h.leadResume (h.of_hbm (State.postStart_hbm _ _))) (h.of_hbm (State.acceptStart_hbm _ _ _))

theorem State.HasForm.takeOver (t : TeamBody) (pos : Nat) (k : W64) (alt : Nat) : (s.takeOver t pos k alt).HasForm := by
  unfold State.takeOver
  extract_lets bind lead s0
  have h0 : s0.HasForm := h.of_hbm (by simp [s0])
  have hload := h0.loadImage pos t.imageBase t.imageSize bind t.repair k
  split
  · next s1 r hr =>
    rw [hr] at hload
    exact hload.of_hbm (by simp)
  · next s1 hr =>
    rw [hr] at hload
    exact hload.of_hbm (by simp)

theorem State.HasForm.copyChunk (chunkOff : Nat) (x : Nat × W64) : (s.copyChunk chunkOff x).HasForm := by
  have hfold (l : List (Nat × Nat)) : ∀ acc : State × List (Byte × Bool), acc.1.HasForm → (l.foldl (fun acc sp =>
      (acc.1.hbmWrite sp.1 (acc.2.take sp.2) false, acc.2.drop sp.2)) acc).1.HasForm := by
    induction l with
    | nil => exact fun _ h => h
    | cons sp l ih => exact fun acc h => ih _ (h.hbmWrite _ _ _)
  exact hfold _ _ (h.of_bytes (State.hbmTouch_bytes s _ _ true))

theorem State.HasForm.replayBlock {logOff : Nat} {step : W64} {r : RedDesc} {i : Nat} {d : UpdDesc} {block : Nat} {u : State}
    (hu : s.replayBlock logOff step r i d block = some u) : u.HasForm := by
  unfold State.replayBlock at hu
  dsimp only at hu
  split at hu
  · obtain rfl := Option.some.inj hu
    exact h.of_hbm (by simp)
  · split at hu
    · cases hu
    · next x _ =>
      obtain rfl := Option.some.inj hu
      refine State.HasForm.of_hbm (State.HasForm.foldl (fun _ w hs => hs.hbmWrite w.1 w.2 true) x.writes _ (h.of_bytes ?_))
        ((State.modUpd_hbm _ _ _ _).trans (State.modDepot_hbm _ _ _))
      rw [State.depotFlags_hbm]
      exact (foldl_bytes (fun s (k : Nat × Nat × Nat) => State.arrayTouch_bytes s k.1 k.2.1 k.2.2) _ _).trans
        (State.hbmTouch_bytes s _ _ true)

theorem State.HasForm.recast (k : W64) (x : Nat × W64) : (s.recast k x).HasForm := by
  unfold State.recast
  split
  · refine State.HasForm.ite (State.HasForm.foldl (fun _ y hs => hs.hbmWrite y.1 y.2 true) _ _ (h.of_bytes ?_)) h
    simp
  · exact h

theorem State.HasForm.load (b : LoadBody) (id req : Nat) : (s.load b id req).HasForm := by
  unfold State.load
  refine State.HasForm.ite (h.of_hbm (by simp)) (State.HasForm.ite (h.of_hbm (by simp)) ?_)
  have hload := h.loadImage b.position b.imageBase b.imageSize b.bind b.repair 0
  split
  · next s1 r hr =>
    rw [hr] at hload
    exact hload.of_hbm (by simp)
  · next s1 hr =>
    rw [hr] at hload
    exact hload.of_hbm (by simp)

end

/-- A step of the replay keeps the form of the state that it goes on from. -/
theorem replayStep_hasForm (logOff : Nat) (chunks : List (Nat × W64)) (acc : Option State) (step : Nat)
    (h : ∀ s, acc = some s → s.HasForm) : ∀ u, State.replayStep logOff chunks acc step = some u → u.HasForm := by
  intro u hu
  obtain ⟨s, rfl, hs⟩ := Option.bind_eq_some_iff.mp hu
  refine foldl_option_keep State.HasForm (fun o x ho v hv => ?_) _ (some s) h u hs
  obtain ⟨w, rfl, hw⟩ := Option.bind_eq_some_iff.mp hv
  exact (ho w rfl).replayBlock hw

/-- A cold reset leaves HBM empty. -/
theorem State.coldState_hasForm (s : State) (cause : BitVec 8) : (s.coldState cause).HasForm := rfl

theorem State.coldReset_hasForm (s : State) (cause : BitVec 8) : (s.coldReset cause).HasForm :=
  (s.coldState_hasForm cause).of_hbm (State.boot_hbm _)

/-! ### What the commands answer -/

/-- A next state, where there is one, has the form. -/
def Res.HasForm : Res → Prop
  | .next s => s.HasForm
  | _ => True

theorem Res.HasForm.ite {c : Prop} [Decidable c] {a b : Res} (ha : Res.HasForm a) (hb : Res.HasForm b) :
    Res.HasForm (if c then a else b) := by
  split <;> assumption

section
variable {s : State} (h : s.HasForm)
include h

theorem State.issueR_hasForm {n : Nat} {x : BSlot} {f : Tile → State → Res} (hf : ∀ t s, s.HasForm → Res.HasForm (f t s)) :
    Res.HasForm (s.issueR n x f) :=
  Res.HasForm.ite (hf _ _ (h.of_hbm (State.take_hbm s n x))) h

theorem State.runLd_hasForm {n : Nat} {k : EngKind} {f : EngCmd → State → Res} (hf : ∀ c, Res.HasForm (f c s)) :
    Res.HasForm (s.runLd n k f) := by
  unfold State.runLd
  split
  · exact h
  · exact Res.HasForm.ite (Res.HasForm.ite (h.of_hbm (State.doneLd_hbm s n _)) (hf _)) h

theorem State.runSt_hasForm {n : Nat} {k : EngKind} {f : EngCmd → State → Res} (hf : ∀ c, Res.HasForm (f c s)) :
    Res.HasForm (s.runSt n k f) := by
  unfold State.runSt
  split
  · exact h
  · exact Res.HasForm.ite (Res.HasForm.ite (h.of_hbm (State.doneSt_hbm s n _)) (hf _)) h

theorem State.withTolls_hasForm {n : Nat} {c : EngCmd} {sem need : Nat} {go : EngCmd → State → Res}
    (hgo : ∀ c s, s.HasForm → Res.HasForm (go c s)) : Res.HasForm (s.withTolls n c sem need go) := by
  unfold State.withTolls
  refine Res.HasForm.ite (hgo _ _ h) ?_
  split
  · exact hgo _ _ (h.of_hbm (State.setTile_hbm s n _))
  · exact h.of_hbm (State.setTile_hbm s n _)

theorem State.recAct_hasForm {b : Rec} {f : State → State} (hf : ∀ s, s.HasForm → (f s).HasForm) :
    Res.HasForm (s.recAct b f) :=
  State.HasForm.ite (hf _ (h.of_hbm (State.took_hbm s _))) h

theorem State.withSession_hasForm {hd : CmdHdr} {f : Session → State → State} (hf : ∀ x s, s.HasForm → (f x s).HasForm) :
    (s.withSession hd f).HasForm := by
  unfold State.withSession
  refine State.HasForm.ite h ?_
  split
  · exact h.of_hbm (State.noSession_hbm s _ _)
  · exact hf _ _ (h.of_hbm (by simp))

theorem State.command_hasForm {hd : CmdHdr} {len : Nat} {observer ok legal : Bool} {act : Nat → Nat → State → State}
    (hact : ∀ id req s, s.HasForm → (act id req s).HasForm) : Res.HasForm (s.command hd len observer ok legal act) := by
  unfold State.command
  refine Res.HasForm.ite h ?_
  split
  · exact h.of_hbm (State.noSession_hbm s _ _)
  · next x _ =>
    extract_lets n s1
    have h1 : s1.HasForm := h.of_hbm (by simp [s1])
    exact Res.HasForm.ite h (Res.HasForm.ite (h1.of_hbm (State.respond_hbm s1 _ _ _ _ _))
      (Res.HasForm.ite (h1.of_hbm (State.respond_hbm s1 _ _ _ _ _)) (Res.HasForm.ite trivial (hact _ _ _ h1))))

theorem State.onQp_hasForm {qpn frames : Nat} {f : Nat → Qp → State → State} (hf : ∀ e q s, s.HasForm → (f e q s).HasForm) :
    (s.onQp qpn frames f).HasForm := by
  unfold State.onQp
  refine State.HasForm.ite h ?_
  split
  · exact h.of_hbm (State.roceDropAny_hbm s)
  · have h1 (p k : Nat) : (s.gotFrames p k).HasForm := h.of_hbm (State.gotFrames_hbm s p k)
    exact State.HasForm.ite ((h1 _ _).of_hbm (State.roceDrop_hbm _ _)) (hf _ _ _ (h1 _ _))

theorem State.jtagPins_hasForm (ir : JtagIr) : Res.HasForm (s.jtagPins ir) :=
  Res.HasForm.ite h (Res.HasForm.ite (h.of_hbm (State.jtag_hbm s ir [])) trivial)

theorem State.jtagPulse_hasForm (ir : JtagIr) : Res.HasForm (s.jtagPulse ir) := by
  have hpins := State.jtagPins_hasForm h ir
  unfold State.jtagPulse
  split
  · next s1 hs1 =>
    rw [hs1] at hpins
    exact State.HasForm.ite hpins hpins
  · exact hpins

theorem State.engineWrite_hasForm (n : Nat) (g : W64) (data : List (Byte × Bool)) (tolled : Bool) :
    Res.HasForm (s.engineWrite n g data tolled) := by
  have hmod (t : State) (ht : t.HasForm) (f : Tile → Tile) : (t.modTile n f).HasForm := ht.of_hbm (State.modTile_hbm t n f)
  unfold State.engineWrite
  extract_lets sent flag l
  refine Res.HasForm.ite (Res.HasForm.ite (hmod _ (h.of_hbm (State.tileCtlWrite_hbm s _ _ _)) _)
    (Res.HasForm.ite (hmod s h _) (hmod s h _))) (Res.HasForm.ite (Res.HasForm.ite trivial ?_)
    (Res.HasForm.ite (hmod _ (h.hbmWrite _ _ _) _) ?_))
  · split
    · next hs => exact hmod _ (h.of_hbm (State.sendScheduled_hbm hs)) _
    · exact hmod s h _
  · split
    · exact hmod s h _
    · have hown (f g : Tile → Tile) : ((s.modTile n f).modTile n g).HasForm := hmod _ (hmod s h f) g
      have hnet (l : List NetPkt) (g : Tile → Tile) : (({ s with net := l } : State).modTile n g).HasForm := hmod _ h g
      exact Res.HasForm.ite (hown _ _) (Res.HasForm.ite (hnet _ _) trivial)

end


/-! ### Every command -/

section
variable {s : State} (h : s.HasForm)
include h

theorem execLds_hasForm (n : Nat) (f : ScF) : Res.HasForm (execLds n f s) := by
  refine h.of_hbm (State.issueS_hbm fun t s => ?_)
  simp

theorem execBr_hasForm (n : Nat) (f : ScF) : Res.HasForm (execBr n f s) := by
  refine h.of_hbm (State.issueS_hbm fun t s => ?_)
  simp

theorem execBrc_hasForm (n : Nat) (f : ScF) : Res.HasForm (execBrc n f s) := by
  refine h.of_hbm (State.issueS_hbm fun t s => ?_)
  simp

theorem execRet_hasForm (n : Nat) (f : ScF) : Res.HasForm (execRet n f s) := by
  refine State.issueR_hasForm h fun t s h => ?_
  split
  · exact h.of_hbm (by simp)
  · trivial

theorem execLcset_hasForm (n : Nat) (f : ScF) : Res.HasForm (execLcset n f s) := by
  refine h.of_hbm (State.issueS_hbm fun t s => ?_)
  simp

theorem execFset_hasForm (n : Nat) (f : ScF) : Res.HasForm (execFset n f s) := by
  refine h.of_hbm (State.issueS_hbm fun t s => ?_)
  simp

theorem execMxFill_hasForm (n : Nat) (f : MxF) : Res.HasForm (execMxFill n f s) := by
  refine State.issueR_hasForm h fun t s h => ?_
  split
  · trivial
  · exact h.of_hbm (State.modTile_hbm s n _)

theorem execMxStream_hasForm (n : Nat) (f : MxF) : Res.HasForm (execMxStream n f s) := by
  refine State.issueR_hasForm h fun t s h => ?_
  split
  · trivial
  · exact Res.HasForm.ite trivial (h.of_hbm (by simp))

theorem execMxDrains_hasForm (n : Nat) (f : MxF) : Res.HasForm (execMxDrains n f s) := by
  refine State.issueR_hasForm h fun t s h => Res.HasForm.ite trivial (h.of_hbm ?_)
  simp

theorem execVcmp_hasForm (n : Nat) (f : VeF) : Res.HasForm (execVcmp n f s) := by
  refine h.of_hbm (State.issueS_hbm fun t s => ?_)
  simp

theorem execVnarrow_hasForm (n : Nat) (f : VeF) : Res.HasForm (execVnarrow n f s) := by
  refine State.issueR_hasForm h fun t s h => Res.HasForm.ite trivial (h.of_hbm ?_)
  simp

theorem execVwiden_hasForm (n : Nat) (f : VeF) : Res.HasForm (execVwiden n f s) := by
  refine State.issueR_hasForm h fun t s h => Res.HasForm.ite trivial (h.of_hbm ?_)
  simp

theorem execVpack_hasForm (n : Nat) (f : VeF) : Res.HasForm (execVpack n f s) := by
  refine State.issueR_hasForm h fun t s h => Res.HasForm.ite trivial (h.of_hbm ?_)
  simp

theorem execVunpack_hasForm (n : Nat) (f : VeF) : Res.HasForm (execVunpack n f s) := by
  refine State.issueR_hasForm h fun t s h => ?_
  dsimp only
  split
  · trivial
  · exact Res.HasForm.ite trivial (Res.HasForm.ite trivial (h.of_hbm (State.modTile_hbm s n _)))

theorem execKfirst_hasForm (n : Nat) (f : VeF) : Res.HasForm (execKfirst n f s) := by
  refine h.of_hbm (State.issueS_hbm fun t s => ?_)
  simp

theorem execVld_hasForm (n : Nat) (f : VeF) :
    Res.HasForm (execVld n f s) := h.of_hbm (State.issueCross_hbm fun e s => by cases e <;> simp)

theorem execVst_hasForm (n : Nat) (f : VeF) :
    Res.HasForm (execVst n f s) := h.of_hbm (State.issueCross_hbm fun e s => by cases e <;> simp)

theorem execVchain_hasForm (n : Nat) (f : VeF) : Res.HasForm (execVchain n f s) := by
  refine h.of_hbm (State.issueS_hbm fun t s => ?_)
  simp

theorem execWait_hasForm (n : Nat) (f : SyA) : Res.HasForm (execWait n f s) := by
  refine h.of_hbm (State.syWait_hbm fun s => ?_)
  simp

theorem execWaitK_hasForm (n : Nat) (f : SyA) : Res.HasForm (execWaitK n f s) := by
  refine h.of_hbm (State.syWait_hbm fun s => ?_)
  simp

theorem execRsig_hasForm (n : Nat) (f : SyB) : Res.HasForm (execRsig n f s) := by
  refine h.of_hbm (State.issueS_hbm fun t s => ?_)
  simp

theorem execArrive_hasForm (n : Nat) (f : SyC) : Res.HasForm (execArrive n f s) := by
  refine h.of_hbm (State.issueS_hbm fun t s => ?_)
  simp

theorem execBwait_hasForm (n : Nat) (f : SyC) : Res.HasForm (execBwait n f s) := by
  refine h.of_hbm (State.syWait_hbm fun s => ?_)
  simp

theorem execBelay_hasForm (n : Nat) (f : SyC) : Res.HasForm (execBelay n f s) := by
  unfold execBelay
  dsimp only
  refine State.HasForm.ite ?_ h
  refine State.HasForm.of_hbm (State.HasForm.ite h (h.of_hbm (by simp))) (State.syWait_hbm fun s => ?_)
  exact State.modTile_hbm s n _

theorem execRecv_hasForm (n : Nat) (f : SyE) : Res.HasForm (execRecv n f s) := by
  refine h.of_hbm (State.syWait_hbm fun s => ?_)
  split <;> simp

theorem execRecvR_hasForm (n : Nat) (f : SyE) : Res.HasForm (execRecvR n f s) := by
  refine h.of_hbm (State.syWait_hbm fun s => ?_)
  split <;> simp

theorem execPipelineWriteback_hasForm (n : Nat) : Res.HasForm (execPipelineWriteback n s) := by
  refine h.of_hbm ?_
  simp

theorem execBankStallEnd_hasForm (n : Nat) : Res.HasForm (execBankStallEnd n s) := by
  refine h.of_hbm ?_
  simp

theorem execTileDone_hasForm (n : Nat) : Res.HasForm (execTileDone n s) := by
  unfold execTileDone
  dsimp only
  exact State.HasForm.ite (State.HasForm.ite (State.HasForm.ite (h.of_hbm (by simp)) (h.of_hbm (State.modTile_hbm s n _)))
    (h.of_hbm (State.modTile_hbm s n _))) h

theorem execImemParity_hasForm (n : Nat) : Res.HasForm (execImemParity n s) := by
  refine h.of_hbm ?_
  simp

theorem execLdExecute_hasForm (n : Nat) : Res.HasForm (execLdExecute n s) := by
  refine State.runLd_hasForm h fun c => Res.HasForm.ite (h.of_hbm (by simp)) (Res.HasForm.ite trivial (h.of_bytes ?_))
  rw [State.modTile_hbm]
  exact State.engineRead_bytes s n _ _

theorem execLdStrmExecute_hasForm (n : Nat) : Res.HasForm (execLdStrmExecute n s) := by
  refine State.runLd_hasForm h fun c => ?_
  dsimp only
  refine Res.HasForm.ite (h.of_hbm (by simp)) (Res.HasForm.ite trivial (h.of_bytes ?_))
  simp

theorem execLdOvlExecute_hasForm (n : Nat) : Res.HasForm (execLdOvlExecute n s) := by
  refine State.runLd_hasForm h fun c => ?_
  dsimp only
  have h1 : (s.doneLd n c).HasForm := h.of_hbm (State.doneLd_hbm s n c)
  split
  · split
    · refine h1.of_bytes ?_
      simp
    · exact h1
  · exact h1

theorem execStExecute_hasForm (n : Nat) : Res.HasForm (execStExecute n s) := by
  refine State.runSt_hasForm h fun c => Res.HasForm.ite (h.of_hbm (by simp)) (Res.HasForm.ite trivial ?_)
  refine State.withTolls_hasForm h fun c s h => ?_
  have h1 (f : Tile → Tile) (ds : Detections) : ((s.modTile n f).detect n ds).HasForm := h.of_hbm (by simp)
  have hw (f : Tile → Tile) (ds : Detections) (g : W64) (data : List (Byte × Bool)) :=
    State.engineWrite_hasForm (h1 f ds) n g data c.tv
  dsimp only
  split
  · next s1 hs1 =>
    have hs := hs1 ▸ hw _ _ _ _
    exact State.HasForm.of_hbm hs (State.modTile_hbm s1 n _)
  · exact hw _ _ _ _

theorem execStStrmExecute_hasForm (n : Nat) : Res.HasForm (execStStrmExecute n s) := by
  refine State.runSt_hasForm h fun c => ?_
  dsimp only
  refine Res.HasForm.ite (h.of_hbm (by simp)) (Res.HasForm.ite trivial (Res.HasForm.ite (h.of_bytes (by simp)) ?_))
  refine State.withTolls_hasForm (h.of_bytes (by simp)) fun c s h => State.engineWrite_hasForm (h.of_hbm ?_) n _ _ _
  simp

theorem execStPostExecute_hasForm (n : Nat) :
    Res.HasForm (execStPostExecute n s) := State.runSt_hasForm h fun c => h.of_hbm (by simp)

theorem execSendExecute_hasForm (n : Nat) : Res.HasForm (execSendExecute n s) := by
  refine State.runSt_hasForm h fun c => ?_
  dsimp only
  refine Res.HasForm.ite (h.of_hbm (by simp)) (State.withTolls_hasForm (h.of_hbm (State.modTile_hbm s n _)) fun c s h => ?_)
  exact h.of_hbm (State.sendMessage_hbm s n c)

theorem execTollTake_hasForm (n : Nat) : Res.HasForm (execTollTake n s) := by
  unfold execTollTake
  split <;> refine h.of_hbm ?_ <;> simp

theorem execEngineCompletion_hasForm (n : Nat) (store : Bool) : Res.HasForm (execEngineCompletion n store s) := by
  unfold execEngineCompletion
  repeat' split
  all_goals refine h.of_hbm ?_
  all_goals simp

theorem execInboundWrite_hasForm (w : InWrite) : Res.HasForm (execInboundWrite w s) := by
  refine h.of_hbm ?_
  simp

theorem execRemoteSignal_hasForm (r : InSignal) : Res.HasForm (execRemoteSignal r s) := by
  refine h.of_hbm ?_
  simp

theorem execBelayArrival_hasForm (ref : W64) (tag : Nat) : Res.HasForm (execBelayArrival ref tag s) := by
  refine h.of_hbm ?_
  simp

theorem execMessageDelivery_hasForm (m : InMsg) : Res.HasForm (execMessageDelivery m s) := by
  refine h.of_hbm ?_
  simp

theorem execStageMessage_hasForm (n : Nat) (c : Nat) : Res.HasForm (execStageMessage n c s) := by
  unfold execStageMessage
  split <;> refine h.of_hbm ?_ <;> simp

theorem execPadSkip_hasForm (n : Nat) (c : Nat) : Res.HasForm (execPadSkip n c s) := by
  unfold execPadSkip
  split <;> refine h.of_hbm ?_ <;> simp

theorem execDuplicateSkip_hasForm (n : Nat) (c : Nat) : Res.HasForm (execDuplicateSkip n c s) := by
  unfold execDuplicateSkip
  split <;> refine h.of_hbm ?_ <;> simp

theorem execWaitWatchdog_hasForm (n : Nat) (toll : Bool) : Res.HasForm (execWaitWatchdog n toll s) := by
  refine h.of_hbm ?_
  simp

theorem execBoundaryWatchdog_hasForm (r : Nat) : Res.HasForm (execBoundaryWatchdog r s) := by
  unfold execBoundaryWatchdog
  split <;> refine h.of_hbm ?_ <;> simp

theorem execStretch_hasForm (r cycle : Nat) : Res.HasForm (execStretch r cycle s) := by
  refine h.of_hbm ?_
  simp

theorem execPartnerRst_hasForm (e : Nat) : Res.HasForm (execPartnerRst e s) := by
  refine h.of_hbm ?_
  simp

theorem execOwnResetEnd_hasForm (e : Nat) : Res.HasForm (execOwnResetEnd e s) := by
  refine h.of_hbm ?_
  simp

theorem execPartnerAckFall_hasForm (e : Nat) : Res.HasForm (execPartnerAckFall e s) := by
  refine h.of_hbm ?_
  simp

theorem execPartnerReady_hasForm (e : Nat) : Res.HasForm (execPartnerReady e s) := by
  refine h.of_hbm ?_
  simp

theorem execTimeBeacon_hasForm (region : Nat) : Res.HasForm (execTimeBeacon region s) := by
  refine h.of_hbm ?_
  simp

theorem execGtcRead_hasForm : Res.HasForm (execGtcRead s) := by
  refine h.of_hbm ?_
  simp

theorem execWaypointSend_hasForm (p : Nat) : Res.HasForm (execWaypointSend p s) := by
  refine h.of_hbm ?_
  simp

theorem execWaypointRecord_hasForm (p : Nat) (w : RecWaypoint) : Res.HasForm (execWaypointRecord p w s) := by
  refine h.of_hbm ?_
  simp

theorem execParentLost_hasForm : Res.HasForm (execParentLost s) := by
  refine h.of_hbm ?_
  simp

theorem execSettledTimeout_hasForm : Res.HasForm (execSettledTimeout s) := by
  refine h.of_hbm ?_
  simp

theorem execFreqRecord_hasForm (op instant : Nat) : Res.HasForm (execFreqRecord op instant s) := by
  unfold execFreqRecord
  dsimp only
  exact h.of_hbm (by simp only [State.refreshCeiling_hbm, hbm_ite, State.takeChange_hbm, State.flood_hbm, State.floodOn_hbm,
    State.took_hbm, ite_self])

theorem execFrequencySwitch_hasForm : Res.HasForm (execFrequencySwitch s) := by
  refine h.of_hbm ?_
  simp

theorem execReferenceLost_hasForm (input : Bool) : Res.HasForm (execReferenceLost input s) := by
  refine h.of_hbm ?_
  simp

theorem execReferenceGood_hasForm (input : Bool) : Res.HasForm (execReferenceGood input s) := by
  refine h.of_hbm ?_
  simp

theorem execRefSelect_hasForm : Res.HasForm (execRefSelect s) := by
  refine h.of_hbm ?_
  simp

theorem execCapabilityFlit_hasForm (p : Nat) (c : CapFlit) : Res.HasForm (execCapabilityFlit p c s) := by
  refine h.of_hbm ?_
  simp

theorem execAlignComplete_hasForm (p : Nat) (rtt : Nat) : Res.HasForm (execAlignComplete p rtt s) := by
  refine h.of_hbm ?_
  simp

theorem execSlotTransmit_hasForm (p : TxSlot) : Res.HasForm (execSlotTransmit p s) := by
  unfold execSlotTransmit
  dsimp only
  split
  · exact h.of_hbm (State.sendControl_hbm s _ _)
  · exact h.of_hbm (State.sendControl_hbm s _ _)
  · split <;> refine h.of_hbm ?_ <;> simp
  · exact h

theorem execSlotReceive_hasForm (p : Nat) (sl : Slot) (bad : Bool) (ecc : Bool) (corrected : FecCount) :
    Res.HasForm (execSlotReceive p sl bad ecc corrected s) := by
  refine h.of_hbm ?_
  simp

theorem execPortWatchdog_hasForm (p : Nat) : Res.HasForm (execPortWatchdog p s) := by
  unfold execPortWatchdog
  dsimp only
  split <;> refine h.of_hbm ?_ <;> simp

theorem execRetryLimit_hasForm (p : Nat) : Res.HasForm (execRetryLimit p s) := by
  refine h.of_hbm ?_
  simp

theorem execLaneFail_hasForm (p : Nat) : Res.HasForm (execLaneFail p s) := by
  refine h.of_hbm ?_
  simp

theorem execPostRecord_hasForm (r : RecSignal) : Res.HasForm (execPostRecord r s) := by
  refine State.recAct_hasForm h fun s h => h.of_hbm ?_
  simp

theorem execSignalRecord_hasForm (r : RecSignal) : Res.HasForm (execSignalRecord r s) := by
  refine State.recAct_hasForm h fun s h => h.of_hbm ?_
  simp

theorem execArriveRecord_hasForm (r : RecArrive) : Res.HasForm (execArriveRecord r s) := by
  refine State.recAct_hasForm h fun s h => h.of_hbm ?_
  simp

theorem execReleaseRecord_hasForm (r : RecRelease) : Res.HasForm (execReleaseRecord r s) := by
  refine State.recAct_hasForm h fun s h => h.of_hbm ?_
  simp

theorem execMsgRecord_hasForm (r : RecMsg) : Res.HasForm (execMsgRecord r s) := by
  refine State.recAct_hasForm h fun s h => h.of_hbm ?_
  simp

theorem execReduceRecord_hasForm (p : Nat) (r : RecReduce) : Res.HasForm (execReduceRecord p r s) := by
  unfold execReduceRecord
  extract_lets s0 drop
  have h0 : s0.HasForm := h.of_hbm (State.took_hbm s _)
  have hdrop (off : Nat) : (drop off).HasForm := h0.of_hbm (State.modPort_hbm s0 p _)
  dsimp only
  split
  · exact hdrop _
  · exact State.HasForm.ite (State.HasForm.ite (hdrop _) (State.HasForm.ite (hdrop _) (State.HasForm.ite (hdrop _)
      (h0.contribute _ _ _ _ _)))) (State.HasForm.ite (hdrop _) (h0.contribute _ _ _ _ _))

theorem execLogRecord_hasForm (r : RecLog) :
    Res.HasForm (execLogRecord r s) := State.recAct_hasForm h fun _ h => State.HasForm.ite h (h.appendLog r)

theorem execLogEntryResume_hasForm : Res.HasForm (execLogEntryResume s) := by
  unfold execLogEntryResume
  split
  · next r _ =>
    have hwait (x : Recovery) : ({ s with recov := x } : State).HasForm := h
    exact (hwait _).appendLog r
  · exact h

theorem execSwitchRecord_hasForm (p : Nat) (r : RecSwitch) : Res.HasForm (execSwitchRecord p r s) := by
  unfold execSwitchRecord
  dsimp only
  split <;> refine h.of_hbm ?_ <;> simp

theorem execSwitchLeg_hasForm : Res.HasForm (execSwitchLeg s) := by
  unfold execSwitchLeg
  dsimp only
  split
  · next r _ =>
    have h1 : (s.applySwitch r).HasForm := h.of_hbm (State.applySwitch_hbm s r)
    exact State.HasForm.ite (h1.teamHalt.of_hbm (State.tryStart_hbm _)) h1
  · exact h

theorem execPreviousTablesExpire_hasForm : Res.HasForm (execPreviousTablesExpire s) := by
  unfold execPreviousTablesExpire
  dsimp only
  split
  · exact State.HasForm.ite (h.of_hbm (foldl_hbm _ (fun s p => State.modPort_hbm s p _) _ s)) h
  · exact h

theorem execDetourRecord_hasForm (p : Nat) (r : RecDetour) (sl : Slot) : Res.HasForm (execDetourRecord p r sl s) := by
  unfold execDetourRecord
  split <;> refine h.of_hbm ?_ <;> simp

theorem execBrokenRecord_hasForm (chip tile ch : Nat) : Res.HasForm (execBrokenRecord chip tile ch s) := by
  refine State.recAct_hasForm h fun s h => h.of_hbm ?_
  simp

theorem execScrub_hasForm (d seg : Nat) : Res.HasForm (execScrub d seg s) := by
  unfold execScrub
  dsimp only
  refine State.HasForm.ite h (h.of_bytes ?_)
  rw [State.modStack_hbm]
  refine (foldl_bytes (fun s u => ?_) _ _).trans (foldl_bytes (fun s u => State.ueDetect_bytes s seg _ u true) _ s)
  exact State.ceCount_bytes s seg _

theorem execMigrationStart_hasForm (seg : Nat) : Res.HasForm (execMigrationStart seg s) := by
  unfold execMigrationStart
  dsimp only
  refine State.HasForm.ite h (State.HasForm.ite (h.of_bytes (State.wantMigration_bytes s seg)) ?_)
  split <;> refine h.of_bytes ?_ <;> simp

theorem execMigrationCopy_hasForm (d stack : Nat) : Res.HasForm (execMigrationCopy d stack s) := by
  unfold execMigrationCopy
  dsimp only
  split
  · refine State.HasForm.ite h ?_
    refine State.HasForm.of_hbm ?_ (State.modStack_hbm _ d stack _)
    refine Hbm.writeUnit_wf _ _ _ _ ?_
    rw [State.codeCheck_bytes]
    exact h
  · exact h

theorem execMigrationComplete_hasForm (d stack : Nat) : Res.HasForm (execMigrationComplete d stack s) := by
  unfold execMigrationComplete
  dsimp only
  split
  · refine State.HasForm.ite h (h.of_bytes ?_)
    simp
  · exact h

theorem execRowRetire_hasForm (d stack : Nat) : Res.HasForm (execRowRetire d stack s) := by
  unfold execRowRetire
  dsimp only
  split
  · refine State.HasForm.ite (h.of_bytes ?_) h
    simp
  · exact h

theorem execReduceBlockSend_hasForm (rid : Nat) : Res.HasForm (execReduceBlockSend rid s) := by
  unfold execReduceBlockSend
  dsimp only
  split
  · exact h
  · refine State.HasForm.ite (h.of_bytes (State.sendStage_bytes s _)) ?_
    split
    · exact State.HasForm.ite h (h.of_hbm (by simp))
    · exact State.HasForm.ite (h.localStage _) h

theorem execReduceSlotRelease_hasForm (rid block : Nat) : Res.HasForm (execReduceSlotRelease rid block s) := by
  unfold execReduceSlotRelease
  split <;> refine h.of_hbm ?_ <;> simp

theorem execD2dRetry_hasForm (d : Nat) (ecc : Bool) : Res.HasForm (execD2dRetry d ecc s) := by
  refine h.of_hbm ?_
  simp

theorem execD2dModuleLost_hasForm (d : Nat) : Res.HasForm (execD2dModuleLost d s) := by
  refine h.of_hbm ?_
  simp

theorem execUpdateHandoff_hasForm (rid block : Nat) : Res.HasForm (execUpdateHandoff rid block s) := by
  unfold execUpdateHandoff
  split <;> refine h.of_hbm ?_ <;> simp

theorem execUpdateBlock_hasForm (d u : Nat) : Res.HasForm (execUpdateBlock d u s) := by
  unfold execUpdateBlock
  split
  · exact h
  · split
    · exact h
    · refine Res.HasForm.ite h ?_
      split
      · exact h.of_hbm (by simp)
      · split
        · trivial
        · refine h.of_bytes ?_
          simp [foldl_bytes]

theorem execBlockWrittenBack_hasForm (d u : Nat) : Res.HasForm (execBlockWrittenBack d u s) := by
  unfold execBlockWrittenBack
  dsimp only
  split
  · exact h
  · split
    · exact h
    · next b _ _ _ x _ =>
      have hw (t : State) (ht : t.HasForm) : (b.writes.foldl (fun s w => s.hbmWrite w.1 w.2 true) t).HasForm :=
        State.HasForm.foldl (fun _ (w : Nat × List (Byte × Bool)) hs => hs.hbmWrite w.1 w.2 true) _ t ht
      have h0 : s.fresh.2.HasForm := h.of_hbm (State.fresh_hbm s)
      have h2 (f : UpdUnit → UpdUnit) := (hw _ h0).of_hbm (State.modUpd_hbm _ d u f)
      exact State.HasForm.ite h (State.HasForm.ite (h.of_hbm (State.modUpd_hbm s d u _))
        (State.HasForm.ite (h2 _) ((h2 _).of_hbm (State.updArrive_hbm _ _ _))))

theorem execPoisonReport_hasForm (r : PReport) : Res.HasForm (execPoisonReport r s) := by
  unfold execPoisonReport
  have hout (l : List PReport) : ({ s with reportsOut := l } : State).HasForm := h
  exact State.HasForm.ite ((hout _).takeReport r) h

theorem execTileFault_hasForm (n : Nat) : Res.HasForm (execTileFault n s) := by
  refine h.of_hbm ?_
  simp

theorem execBaseCampArrival_hasForm : Res.HasForm (execBaseCampArrival s) := by
  unfold execBaseCampArrival
  split <;> refine h.of_hbm ?_ <;> simp

theorem execCairnChunk_hasForm : Res.HasForm (execCairnChunk s) := by
  unfold execCairnChunk
  refine State.HasForm.ite h ?_
  split
  · split
    · exact h.of_bytes (State.sendChunk_bytes s _ _ _)
    · exact h
  · exact h

theorem execCairnCommit_hasForm (owner slot q : Nat) (tag : W64) (bytes : Nat) :
    Res.HasForm (execCairnCommit owner slot q tag bytes s) := by
  unfold execCairnCommit
  dsimp only
  split
  · exact State.recAct_hasForm h fun _ h => h.commit owner slot q tag bytes
  · exact h.commit owner slot q tag bytes

theorem execCairnAck_hasForm (owner slot q : Nat) (tag : W64) : Res.HasForm (execCairnAck owner slot q tag s) := by
  refine h.of_hbm ?_
  simp

theorem execLogAck_hasForm (owner rid block : Nat) : Res.HasForm (execLogAck owner rid block s) := by
  refine h.of_hbm ?_
  simp

theorem execHeartbeatSend_hasForm : Res.HasForm (execHeartbeatSend s) := by
  refine h.of_hbm ?_
  simp

theorem execHeartbeat_hasForm (sender step gtc : W64) : Res.HasForm (execHeartbeat sender step gtc s) := by
  refine h.of_hbm ?_
  simp

theorem execHeartbeatTimeout_hasForm (pos : Nat) : Res.HasForm (execHeartbeatTimeout pos s) := by
  refine h.of_hbm ?_
  simp

theorem execReport_hasForm (e : LedgerEntry) : Res.HasForm (execReport e s) := by
  refine h.of_hbm ?_
  simp

theorem execMirror_hasForm (e : LedgerEntry) : Res.HasForm (execMirror e s) := by
  refine h.of_hbm ?_
  simp

theorem execHaltRecord_hasForm (team : Nat) (k : W64) (instant : Nat) : Res.HasForm (execHaltRecord team k instant s) := by
  refine h.of_hbm ?_
  simp

theorem execTakeover_hasForm (pos : Nat) (k : W64) (spare alt : Nat) : Res.HasForm (execTakeover pos k spare alt s) := by
  unfold execTakeover
  extract_lets words from_ s1 again
  have h1 : s1.HasForm := h.of_hbm (by simp [s1])
  split
  · exact State.HasForm.ite (h1.takeOver _ _ _ _) h1
  · exact h1

theorem execFetch_hasForm (owner spareChip chunkOff logOff : Nat) (firstTag : W64) :
    Res.HasForm (execFetch owner spareChip chunkOff logOff firstTag s) := h.of_bytes (by simp)

theorem execRestore_hasForm : Res.HasForm (execRestore s) := by
  unfold execRestore
  split
  · exact h
  · next chunkOff logOff _ =>
    refine Res.HasForm.ite h ?_
    have h1 (r : Recovery) (l : List (Nat × W64)) : (l.foldl (fun (s : State) x => s.copyChunk chunkOff x) { s with recov :=
  r }).HasForm :=
      State.HasForm.foldl (fun _ x hs => hs.copyChunk _ x) _ _ h
    dsimp only
    split
    · trivial
    · next s2 hs2 =>
      have h2 : s2.HasForm := foldl_option_keep State.HasForm (fun o step ho => replayStep_hasForm _ _ o step ho) _ (some _)
        (fun u hu => Option.some.inj hu ▸ h1 _ _) s2 hs2
      exact (State.HasForm.foldl (fun _ x hs => hs.recast _ x) _ s2 h2).of_hbm (State.afterRestore_hbm _)

theorem execRestored_hasForm (pos : Nat) (k : W64) : Res.HasForm (execRestored pos k s) := by
  refine h.of_hbm ?_
  simp

theorem execStartRecord_hasForm (team alt : Nat) (k : W64) (swInstant startInstant : Nat) :
    Res.HasForm (execStartRecord team alt k swInstant startInstant s) := by
  unfold execStartRecord
  dsimp only
  have h1 (l : List W64) : (s.tookMgmt 0x09 l).HasForm := h.of_hbm (State.tookMgmt_hbm s _ l)
  exact State.HasForm.ite (h1 _) (State.HasForm.ite ((h1 _).takeStart _ _ _) h)

theorem execRepairReload_hasForm : Res.HasForm (execRepairReload s) := by
  unfold execRepairReload
  split
  · exact State.HasForm.ite (h.of_bytes (State.repairReload_bytes s _)) h
  · exact h

theorem execProgramStart_hasForm (r : Nat) : Res.HasForm (execProgramStart r s) := by
  refine h.of_hbm ?_
  simp

theorem execCeiling_hasForm (sender : W64) (c : Nat) : Res.HasForm (execCeiling sender c s) := by
  refine h.of_hbm ?_
  simp

theorem execCeilingRefresh_hasForm : Res.HasForm (execCeilingRefresh s) := by
  refine h.of_hbm ?_
  simp

theorem execCeilingExpire_hasForm (sender : W64) : Res.HasForm (execCeilingExpire sender s) := by
  refine h.of_hbm ?_
  simp

theorem execPowerSample_hasForm (avs0 : List Nat) (avs1 : List Nat) : Res.HasForm (execPowerSample avs0 avs1 s) := by
  refine h.of_hbm ?_
  simp

theorem execTemperatureSample_hasForm (rows depots : List Int) (base : Int) (hbm : List Nat) :
    Res.HasForm (execTemperatureSample rows depots base hbm s) := by
  refine h.of_hbm ?_
  exact foldl_hbm _ (fun s k => State.modStack_hbm s _ _ _) _ _

theorem execThrottleEvaluation_hasForm : Res.HasForm (execThrottleEvaluation s) := by
  refine h.of_hbm ?_
  simp

theorem execTokenWindow_hasForm (r : Nat) : Res.HasForm (execTokenWindow r s) := by
  refine h.of_hbm ((State.modRow_hbm _ r _).trans ?_)
  exact foldl_hbm _ (fun s n => State.modTile_hbm s n _) _ s

theorem execRegulatorFault_hasForm (_rail : Nat) : Res.HasForm (execRegulatorFault _rail s) := by
  refine h.of_hbm ?_
  simp

theorem execAvsTimeout_hasForm (_rail : Nat) : Res.HasForm (execAvsTimeout _rail s) := by
  refine h.of_hbm ?_
  simp

theorem execWearMonitorSample_hasForm (deltas : List Int) : Res.HasForm (execWearMonitorSample deltas s) := by
  refine h.of_hbm ?_
  simp

theorem execReplanHours_hasForm : Res.HasForm (execReplanHours s) := by
  refine h.of_hbm ?_
  simp

theorem execWearLedgerEmit_hasForm : Res.HasForm (execWearLedgerEmit s) := by
  refine h.of_hbm ?_
  simp

theorem execTelemetryRewrite_hasForm : Res.HasForm (execTelemetryRewrite s) := by
  refine h.of_hbm ?_
  simp

theorem execSidebandEvaluation_hasForm : Res.HasForm (execSidebandEvaluation s) := by
  refine h.of_hbm ?_
  simp

theorem execBcWdogKick_hasForm (value : BitVec 8) : Res.HasForm (execBcWdogKick value s) := by
  refine h.of_hbm ?_
  simp

theorem execSramUncorrectable_hasForm : Res.HasForm (execSramUncorrectable s) := State.HasForm.ite (h.of_bytes (by simp)) h

theorem execSoftwareRequest_hasForm : Res.HasForm (execSoftwareRequest s) := State.HasForm.ite (h.of_bytes (by simp)) h

theorem execPowerOn_hasForm (hot : Bool) (src : Nat) : Res.HasForm (execPowerOn hot src s) := by
  unfold execPowerOn
  dsimp only
  have hcold : (s.coldState 0x01).HasForm := State.coldState_hasForm s 0x01
  refine State.HasForm.ite h (State.HasForm.ite hcold (hcold.of_hbm (State.boot_hbm _)))

theorem execBrownOut_hasForm (_rail : Nat) :
    Res.HasForm (execBrownOut _rail s) :=
  State.HasForm.ite (State.HasForm.of_hbm (State.HasForm.ite h (State.coldState_hasForm s 0x02)) rfl) h

theorem execRstNAssert_hasForm (lowNs : Nat) : Res.HasForm (execRstNAssert lowNs s) := by
  unfold execRstNAssert
  dsimp only
  have hcold (c : Prop) [Decidable c] (k : Nat) (p : Package) :
      ({ (if c then ({ s with freeCtr :=
  k } : State).coldState 0x03 else { s with freeCtr := k }) with pkg := p } : State).HasForm :=
    State.HasForm.ite (a := State.coldState _ 0x03) (State.coldState_hasForm _ 0x03) h
  exact State.HasForm.ite h (State.HasForm.ite (hcold _ _ _) h)

theorem execRstNRelease_hasForm (smba : BitVec 3) (testmode : Bool) : Res.HasForm (execRstNRelease smba testmode s) := by
  refine h.of_hbm ?_
  simp

theorem execTetherReset_hasForm : Res.HasForm (execTetherReset s) := State.HasForm.ite (h.of_bytes (by simp)) h

theorem execFirmwareCheck_hasForm : Res.HasForm (execFirmwareCheck s) := by
  refine h.of_hbm ?_
  simp

theorem execTripRelease_hasForm : Res.HasForm (execTripRelease s) := by
  refine h.of_hbm ?_
  simp

theorem execBlockIdle_hasForm : Res.HasForm (execBlockIdle s) := by
  refine h.of_hbm ?_
  simp

theorem execBlockResetTimeout_hasForm : Res.HasForm (execBlockResetTimeout s) := by
  refine h.of_hbm ?_
  simp

theorem execDiscover_hasForm (port : Nat) (nonce : List Byte) : Res.HasForm (execDiscover port nonce s) := by
  refine h.of_hbm ?_
  simp

theorem execFw_hasForm (src offset : Nat) (data : List Byte) : Res.HasForm (execFw src offset data s) := by
  unfold execFw
  repeat' split
  all_goals refine h.of_hbm ?_
  all_goals simp

theorem execFwVerify_hasForm : Res.HasForm (execFwVerify s) := by
  refine h.of_hbm ?_
  simp

theorem execFeederTimeout_hasForm : Res.HasForm (execFeederTimeout s) := by
  refine h.of_hbm ?_
  simp

theorem execHello1_hasForm (port : Nat) (x : Hello1) : Res.HasForm (execHello1 port x s) := by
  unfold execHello1
  dsimp only
  have h1 : (s.gotFrames port 1).HasForm := h.of_hbm (State.gotFrames_hbm s port 1)
  exact State.HasForm.ite (h.of_hbm (State.warmDrop_hbm s port 1)) (State.HasForm.ite (h1.of_hbm (State.handshakeFail_hbm _))
    (State.HasForm.ite h1 (h1.of_hbm (State.openHalf_hbm _ port x))))

theorem execHello3_hasForm (hd : CmdHdr) (hsig : List Byte) : Res.HasForm (execHello3 hd hsig s) := by
  unfold execHello3
  repeat' split
  all_goals refine h.of_hbm ?_
  all_goals simp

theorem execHalfOpenTimeout_hasForm (session : Nat) : Res.HasForm (execHalfOpenTimeout session s) := by
  refine h.of_hbm ?_
  simp

theorem execAck_hasForm (hd : CmdHdr) (ackSeq : Nat) : Res.HasForm (execAck hd ackSeq s) := by
  refine State.withSession_hasForm h fun x s h => h.of_hbm ?_
  simp

theorem execClose_hasForm (hd : CmdHdr) : Res.HasForm (execClose hd s) := by
  refine State.withSession_hasForm h fun x s h => h.of_hbm ?_
  simp

theorem execTetherResend_hasForm (session : Nat) : Res.HasForm (execTetherResend session s) := by
  unfold execTetherResend
  repeat' split
  all_goals refine h.of_hbm ?_
  all_goals simp

theorem execSessionTimeout_hasForm (session : Nat) : Res.HasForm (execSessionTimeout session s) := by
  refine h.of_hbm ?_
  simp

theorem execRead_hasForm (hd : CmdHdr) (addr : Nat) (len : Nat) : Res.HasForm (execRead hd addr len s) := by
  refine State.command_hasForm h fun id req s h => h.of_hbm ?_
  simp

theorem execWrite_hasForm (hd : CmdHdr) (addr : Nat) (data : List Byte) : Res.HasForm (execWrite hd addr data s) := by
  refine State.command_hasForm h fun id req s h => h.of_hbm ?_
  simp

theorem execTelemetry_hasForm (hd : CmdHdr) : Res.HasForm (execTelemetry hd s) := by
  refine State.command_hasForm h fun id req s h => h.of_hbm ?_
  simp

theorem execFaultlog_hasForm (hd : CmdHdr) (first : Nat) (count : Nat) : Res.HasForm (execFaultlog hd first count s) := by
  refine State.command_hasForm h fun id req s h => h.of_hbm ?_
  simp

theorem execWearPut_hasForm (hd : CmdHdr) (ledger : List Byte) :
    Res.HasForm (execWearPut hd ledger s) := State.command_hasForm h fun id req s h =>
    State.HasForm.ite (h.of_bytes (by simp)) (h.of_hbm (by simp))

theorem execWearNone_hasForm (hd : CmdHdr) : Res.HasForm (execWearNone hd s) := by
  refine State.command_hasForm h fun id req s h => h.of_hbm ?_
  simp

theorem execWearEmit_hasForm (hd : CmdHdr) : Res.HasForm (execWearEmit hd s) := by
  refine State.command_hasForm h fun id req s h => h.of_hbm ?_
  simp

theorem execWearGet_hasForm (hd : CmdHdr) (offset : Nat) (len : Nat) : Res.HasForm (execWearGet hd offset len s) := by
  refine State.command_hasForm h fun id req s h => h.of_hbm ?_
  simp

theorem execReplan_hasForm (hd : CmdHdr) : Res.HasForm (execReplan hd s) := by
  refine State.command_hasForm h fun id req s h => h.of_hbm ?_
  simp

theorem execMap_hasForm (hd : CmdHdr) (entries : List MapEntry) :
    Res.HasForm (execMap hd entries s) := Res.HasForm.ite h (State.command_hasForm h fun id req s h =>
    State.HasForm.ite (h.of_bytes (State.mapRun_bytes s id req entries 0)) (h.of_hbm (State.respond_hbm s _ _ _ _ _)))

theorem execTime_hasForm (hd : CmdHdr) (root : Bool) (parent alt1 alt2 : Nat) :
    Res.HasForm (execTime hd root parent alt1 alt2 s) := by
  refine State.command_hasForm h fun id req s h => h.of_hbm ?_
  simp

theorem execRoute_hasForm (hd : CmdHdr) (ports : BitVec 16) (hops : Nat) : Res.HasForm (execRoute hd ports hops s) := by
  refine State.command_hasForm h fun id req s h => h.of_hbm ?_
  simp

theorem execObservers_hasForm (hd : CmdHdr) (keys : List (List Byte)) : Res.HasForm (execObservers hd keys s) := by
  refine State.command_hasForm h fun id req s h => h.of_hbm ?_
  simp

theorem execRelease_hasForm (hd : CmdHdr) : Res.HasForm (execRelease hd s) := by
  refine State.command_hasForm h fun id req s h => h.of_hbm ?_
  simp

theorem execMacsec_hasForm (hd : CmdHdr) (m : MacsecBody) : Res.HasForm (execMacsec hd m s) := by
  refine State.command_hasForm h fun id req s h => h.of_hbm ?_
  simp

theorem execSvn_hasForm (hd : CmdHdr) (new : Nat) : Res.HasForm (execSvn hd new s) := by
  refine State.command_hasForm h fun id req s h => h.of_hbm ?_
  simp

theorem execQpOpen_hasForm (hd : CmdHdr) (q : QpBody) : Res.HasForm (execQpOpen hd q s) := by
  refine State.command_hasForm h fun id req s h => ?_
  split
  · exact h.of_hbm (State.respond_hbm s _ _ _ _ _)
  · exact h.of_hbm (by simp)

theorem execQpClose_hasForm (hd : CmdHdr) (qpn : Nat) : Res.HasForm (execQpClose hd qpn s) := by
  refine State.command_hasForm h fun id req s h => ?_
  repeat' split
  all_goals refine h.of_hbm ?_
  all_goals simp

theorem execTeam_hasForm (hd : CmdHdr) (b : TeamBody) : Res.HasForm (execTeam hd b s) := by
  refine State.command_hasForm h fun id req s h => ?_
  repeat' split
  all_goals refine h.of_hbm ?_
  all_goals simp

theorem execStart_hasForm (hd : CmdHdr) (at_ : Nat) (step : W64) : Res.HasForm (execStart hd at_ step s) := by
  refine State.command_hasForm h fun id req s h => h.of_hbm ?_
  simp

theorem execHalt_hasForm (hd : CmdHdr) : Res.HasForm (execHalt hd s) := by
  refine State.command_hasForm h fun id req s h => ?_
  dsimp only
  refine State.HasForm.ite (h.of_hbm (State.respond_hbm s _ _ _ _ _)) (State.HasForm.ite (h.of_hbm (State.leadHalt_hbm _)) ?_)
  split
  · exact h.of_hbm (State.sendMgmt_hbm _ _ _ _)
  · exact h.of_hbm (State.leadHalt_hbm _)

theorem execResume_hasForm (hd : CmdHdr) : Res.HasForm (execResume hd s) := by
  refine State.command_hasForm h fun id req s h => State.HasForm.ite ?_ (h.of_hbm (State.respond_hbm s _ _ _ _ _))
  have h1 (r : Recovery) : ({ s with recov := r } : State).HasForm := h
  dsimp only
  refine State.HasForm.ite (h1 _).leadResume ?_
  split
  · exact (State.HasForm.ite (h1 _).resolveUnits (h1 _)).of_hbm (State.sendMgmt_hbm _ _ _ _)
  · exact (h1 _).leadResume

theorem execReset_hasForm (hd : CmdHdr) (kind : Nat) (index : Nat) : Res.HasForm (execReset hd kind index s) := by
  refine State.command_hasForm h fun id req s h => h.of_hbm ?_
  simp

theorem execQuote_hasForm (hd : CmdHdr) (nonce : List Byte) : Res.HasForm (execQuote hd nonce s) := by
  refine State.command_hasForm h fun id req s h => h.of_hbm ?_
  simp

theorem execWaybill_hasForm (hd : CmdHdr) (scope : Nat) (inputDigest : List Byte) :
    Res.HasForm (execWaybill hd scope inputDigest s) := by
  refine State.command_hasForm h fun id req s h => h.of_hbm ?_
  simp

theorem execRoceSend_hasForm (qpn : Nat) (data : List Byte) : Res.HasForm (execRoceSend qpn data s) := by
  refine State.onQp_hasForm h fun e q s h => h.of_hbm ?_
  simp

theorem execRdmaWrite_hasForm (qpn : Nat) (rkey : Nat) (va : Nat) (data : List Byte) :
    Res.HasForm (execRdmaWrite qpn rkey va data s) := State.onQp_hasForm h fun e q s h =>
    State.HasForm.ite ((h.hbmWrite _ _ _).of_hbm (State.qpOut_hbm _ _ _)) (h.of_hbm (State.qpDenied_hbm s e q va))

theorem execRdmaReadRequest_hasForm (qpn : Nat) (rkey : Nat) (va : Nat) (len : Nat) :
    Res.HasForm (execRdmaReadRequest qpn rkey va len s) := State.onQp_hasForm h fun e q s h =>
    State.HasForm.ite (h.of_bytes (State.rdmaRead_bytes s e q va len)) (h.of_hbm (State.qpDenied_hbm s e q va))

theorem execCnp_hasForm (qpn : Nat) : Res.HasForm (execCnp qpn s) := by
  refine State.onQp_hasForm h fun e q s h => h.of_hbm ?_
  simp

theorem execPfcFrame_hasForm (port : Nat) (pause : Nat) : Res.HasForm (execPfcFrame port pause s) := by
  refine h.of_hbm ?_
  simp

theorem execRouterAdvertisement_hasForm (port : Nat) (pfx : BitVec 64) : Res.HasForm (execRouterAdvertisement port pfx s) := by
  refine h.of_hbm ?_
  simp

theorem execNeighbourDiscovery_hasForm (port : Nat) (target : BitVec 128) (_dad : Bool) :
    Res.HasForm (execNeighbourDiscovery port target _dad s) := by
  refine h.of_hbm ?_
  simp

theorem execIcmpv6Echo_hasForm (port : Nat) (dst : BitVec 128) (payload : List Byte) :
    Res.HasForm (execIcmpv6Echo port dst payload s) := by
  refine h.of_hbm ?_
  simp

theorem execHostLinkChange_hasForm (port : Nat) (up : Bool) (speed : Nat) : Res.HasForm (execHostLinkChange port up speed s) := by
  refine h.of_hbm ?_
  simp

theorem execStepDigest_hasForm (pos : Nat) (poison : Bool) (step : W64) (sd : List Byte) :
    Res.HasForm (execStepDigest pos poison step sd s) := by
  refine h.of_hbm ?_
  simp

theorem execChain_hasForm (pos : Nat) (km1 : W64) (c : List Byte) : Res.HasForm (execChain pos km1 c s) := by
  refine h.of_hbm ?_
  simp

theorem execWbReq_hasForm (req : W64) (last : W64) (inputDigest : List Byte) :
    Res.HasForm (execWbReq req last inputDigest s) := by
  unfold execWbReq
  dsimp only
  have h1 : (s.tookMgmt 0x43 ([req, last] ++ digestWords inputDigest)).HasForm := h.of_hbm (State.tookMgmt_hbm s _ _)
  refine State.HasForm.ite h1 ?_
  split
  · exact h1.of_hbm (State.sendMgmt_hbm _ _ _ _)
  · exact h1

theorem execWbPart_hasForm (req : W64) (seg : List Byte) : Res.HasForm (execWbPart req seg s) := by
  unfold execWbPart
  dsimp only
  split <;> refine h.of_hbm ?_ <;> simp

theorem execWbPartTimeout_hasForm : Res.HasForm (execWbPartTimeout s) := by
  unfold execWbPartTimeout
  split <;> refine h.of_hbm ?_ <;> simp

theorem execSamplePreload_hasForm (shift : List Bool) : Res.HasForm (execSamplePreload shift s) := by
  refine h.of_hbm ?_
  simp

theorem execDbgReset_hasForm : Res.HasForm (execDbgReset s) := h.of_bytes (by simp)

theorem execStackTrained_hasForm (d stack : Nat) : Res.HasForm (execStackTrained d stack s) := by
  refine h.of_hbm ?_
  simp

theorem execFrameDiscard_hasForm (port : Nat) (kind : DropKind) : Res.HasForm (execFrameDiscard port kind s) := by
  refine h.of_hbm ?_
  simp

theorem execInvalidRequest_hasForm (qpn : Nat) : Res.HasForm (execInvalidRequest qpn s) := by
  refine State.onQp_hasForm h fun e q s h => h.of_hbm ?_
  simp

theorem execCapOpWrite_hasForm (op : Nat) : Res.HasForm (execCapOpWrite op s) := by
  refine h.of_hbm ?_
  simp

end

/-- Every command keeps the form: most touch no byte of HBM, and what writes keeps it (`State.hbmWrite_wf`). -/
theorem exec_hasForm {s : State} (h : s.HasForm) : ∀ i : Instr, Res.HasForm (exec i s)
  | .nop _ => h.of_hbm (State.issue_hbm s _ _ _)
  | .add _ _ => h.of_hbm (State.alu2_hbm s _ _ _ _)
  | .sub _ _ => h.of_hbm (State.alu2_hbm s _ _ _ _)
  | .and _ _ => h.of_hbm (State.alu2_hbm s _ _ _ _)
  | .or _ _ => h.of_hbm (State.alu2_hbm s _ _ _ _)
  | .xor _ _ => h.of_hbm (State.alu2_hbm s _ _ _ _)
  | .shl _ _ => h.of_hbm (State.alu2_hbm s _ _ _ _)
  | .shr _ _ => h.of_hbm (State.alu2_hbm s _ _ _ _)
  | .sar _ _ => h.of_hbm (State.alu2_hbm s _ _ _ _)
  | .mul _ _ => h.of_hbm (State.alu2_hbm s _ _ _ _)
  | .mulhu _ _ => h.of_hbm (State.alu2_hbm s _ _ _ _)
  | .divu _ _ => h.of_hbm (State.alu2_hbm s _ _ _ _)
  | .remu _ _ => h.of_hbm (State.alu2_hbm s _ _ _ _)
  | .slt _ _ => h.of_hbm (State.alu2_hbm s _ _ _ _)
  | .sltu _ _ => h.of_hbm (State.alu2_hbm s _ _ _ _)
  | .seq _ _ => h.of_hbm (State.alu2_hbm s _ _ _ _)
  | .min _ _ => h.of_hbm (State.alu2_hbm s _ _ _ _)
  | .minu _ _ => h.of_hbm (State.alu2_hbm s _ _ _ _)
  | .max _ _ => h.of_hbm (State.alu2_hbm s _ _ _ _)
  | .maxu _ _ => h.of_hbm (State.alu2_hbm s _ _ _ _)
  | .sel _ _ => h.of_hbm (State.issueG_hbm s _ _ _ _ _)
  | .clz _ _ => h.of_hbm (State.alu1_hbm s _ _ _ _)
  | .popc _ _ => h.of_hbm (State.alu1_hbm s _ _ _ _)
  | .addi _ _ => h.of_hbm (State.alu1_hbm s _ _ _ _)
  | .andi _ _ => h.of_hbm (State.alu1_hbm s _ _ _ _)
  | .ori _ _ => h.of_hbm (State.alu1_hbm s _ _ _ _)
  | .xori _ _ => h.of_hbm (State.alu1_hbm s _ _ _ _)
  | .shli _ _ => h.of_hbm (State.alu1_hbm s _ _ _ _)
  | .shri _ _ => h.of_hbm (State.alu1_hbm s _ _ _ _)
  | .sari _ _ => h.of_hbm (State.alu1_hbm s _ _ _ _)
  | .muli _ _ => h.of_hbm (State.alu1_hbm s _ _ _ _)
  | .slti _ _ => h.of_hbm (State.alu1_hbm s _ _ _ _)
  | .sltiu _ _ => h.of_hbm (State.alu1_hbm s _ _ _ _)
  | .movi _ _ => h.of_hbm (State.issueG_hbm s _ _ _ _ _)
  | .movhi _ _ => h.of_hbm (State.alu1_hbm s _ _ _ _)
  | .fadd _ _ => h.of_hbm (State.fp2_hbm s _ _ _)
  | .fsub _ _ => h.of_hbm (State.fp2_hbm s _ _ _)
  | .fmul _ _ => h.of_hbm (State.fp2_hbm s _ _ _)
  | .ffma _ _ => h.of_hbm (State.fpOp_hbm s _ _ _ _)
  | .fmin _ _ => h.of_hbm (State.fp2_hbm s _ _ _)
  | .fmax _ _ => h.of_hbm (State.fp2_hbm s _ _ _)
  | .fcmp _ _ => h.of_hbm (State.fp2_hbm s _ _ _)
  | .fcvtFi _ _ => h.of_hbm (State.fpOp_hbm s _ _ _ _)
  | .fcvtIf _ _ => h.of_hbm (State.fpOp_hbm s _ _ _ _)
  | .lds n f => execLds_hasForm h n f
  | .sts _ _ => h.of_hbm (State.issue_hbm s _ _ _)
  | .br n f => execBr_hasForm h n f
  | .brc n f => execBrc_hasForm h n f
  | .jal _ _ => h.of_hbm (State.issue_hbm s _ _ _)
  | .ret n f => execRet_hasForm h n f
  | .loop _ _ => h.of_hbm (State.issue_hbm s _ _ _)
  | .iswap _ _ => h.of_hbm (State.issue_hbm s _ _ _)
  | .lcset n f => execLcset_hasForm h n f
  | .lcseti _ _ => h.of_hbm (State.issue_hbm s _ _ _)
  | .lcget _ _ => h.of_hbm (State.issueG_hbm s _ _ _ _ _)
  | .lcidx _ _ => h.of_hbm (State.issueG_hbm s _ _ _ _ _)
  | .fset n f => execFset_hasForm h n f
  | .fseti _ _ => h.of_hbm (State.issue_hbm s _ _ _)
  | .fget _ _ => h.of_hbm (State.issueG_hbm s _ _ _ _ _)
  | .tid _ _ => h.of_hbm (State.issueG_hbm s _ _ _ _ _)
  | .lpos _ _ => h.of_hbm (State.issueG_hbm s _ _ _ _ _)
  | .rdstep _ _ => h.of_hbm (State.issueG_hbm s _ _ _ _ _)
  | .mxNop _ => h.of_hbm (State.issue_hbm s _ _ _)
  | .mxFill n f => execMxFill_hasForm h n f
  | .mxStream n f => execMxStream_hasForm h n f
  | .mxRowmul _ _ => h.of_hbm (State.issue_hbm s _ _ _)
  | .mxDrainv _ _ => h.of_hbm (State.issue_hbm s _ _ _)
  | .mxDrains n f => execMxDrains_hasForm h n f
  | .vnop _ => h.of_hbm (State.issue_hbm s _ _ _)
  | .vadd _ _ => h.of_hbm (State.issue_hbm s _ _ _)
  | .vsub _ _ => h.of_hbm (State.issue_hbm s _ _ _)
  | .vmul _ _ => h.of_hbm (State.issue_hbm s _ _ _)
  | .vfma _ _ => h.of_hbm (State.issue_hbm s _ _ _)
  | .vmax _ _ => h.of_hbm (State.issue_hbm s _ _ _)
  | .vmin _ _ => h.of_hbm (State.issue_hbm s _ _ _)
  | .vabs _ _ => h.of_hbm (State.issue_hbm s _ _ _)
  | .vneg _ _ => h.of_hbm (State.issue_hbm s _ _ _)
  | .vldexp _ _ => h.of_hbm (State.issue_hbm s _ _ _)
  | .vcmp n f => execVcmp_hasForm h n f
  | .vand _ _ => h.of_hbm (State.issue_hbm s _ _ _)
  | .vor _ _ => h.of_hbm (State.issue_hbm s _ _ _)
  | .vxor _ _ => h.of_hbm (State.issue_hbm s _ _ _)
  | .vshl _ _ => h.of_hbm (State.issue_hbm s _ _ _)
  | .vshr _ _ => h.of_hbm (State.issue_hbm s _ _ _)
  | .vsar _ _ => h.of_hbm (State.issue_hbm s _ _ _)
  | .vmov _ _ => h.of_hbm (State.issue_hbm s _ _ _)
  | .vbcast _ _ => h.of_hbm (State.issue_hbm s _ _ _)
  | .vsplat _ _ => h.of_hbm (State.issue_hbm s _ _ _)
  | .viota _ _ => h.of_hbm (State.issue_hbm s _ _ _)
  | .vextr _ _ => h.of_hbm (State.issue_hbm s _ _ _)
  | .vinsl _ _ => h.of_hbm (State.issue_hbm s _ _ _)
  | .vnarrow n f => execVnarrow_hasForm h n f
  | .vwiden n f => execVwiden_hasForm h n f
  | .vcvtFi _ _ => h.of_hbm (State.issue_hbm s _ _ _)
  | .vcvtIf _ _ => h.of_hbm (State.issue_hbm s _ _ _)
  | .vpack n f => execVpack_hasForm h n f
  | .vunpack n f => execVunpack_hasForm h n f
  | .vcurve _ _ => h.of_hbm (State.issue_hbm s _ _ _)
  | .vrsum _ _ => h.of_hbm (State.issue_hbm s _ _ _)
  | .vrmax _ _ => h.of_hbm (State.issue_hbm s _ _ _)
  | .vrmin _ _ => h.of_hbm (State.issue_hbm s _ _ _)
  | .vrisum _ _ => h.of_hbm (State.issue_hbm s _ _ _)
  | .vcompress _ _ => h.of_hbm (State.issue_hbm s _ _ _)
  | .vexpand _ _ => h.of_hbm (State.issue_hbm s _ _ _)
  | .vperm _ _ => h.of_hbm (State.issue_hbm s _ _ _)
  | .vrot _ _ => h.of_hbm (State.issue_hbm s _ _ _)
  | .kand _ _ => h.of_hbm (State.issue_hbm s _ _ _)
  | .kor _ _ => h.of_hbm (State.issue_hbm s _ _ _)
  | .kxor _ _ => h.of_hbm (State.issue_hbm s _ _ _)
  | .kandn _ _ => h.of_hbm (State.issue_hbm s _ _ _)
  | .kfirst n f => execKfirst_hasForm h n f
  | .kpopc _ _ => h.of_hbm (State.issue_hbm s _ _ _)
  | .vld n f => execVld_hasForm h n f
  | .vst n f => execVst_hasForm h n f
  | .vchain n f => execVchain_hasForm h n f
  | .ldNop _ => h.of_hbm (State.issue_hbm s _ _ _)
  | .ld _ _ => h.of_hbm (State.enqueue_hbm s _ _ _ _)
  | .ldStrm _ _ => h.of_hbm (State.enqueue_hbm s _ _ _ _)
  | .ldOvl _ _ => h.of_hbm (State.enqueue_hbm s _ _ _ _)
  | .stNop _ => h.of_hbm (State.issue_hbm s _ _ _)
  | .st _ _ => h.of_hbm (State.enqueue_hbm s _ _ _ _)
  | .stStrm _ _ => h.of_hbm (State.enqueue_hbm s _ _ _ _)
  | .stPost _ _ => h.of_hbm (State.enqueue_hbm s _ _ _ _)
  | .syNop _ => h.of_hbm (State.issue_hbm s _ _ _)
  | .wait n f => execWait_hasForm h n f
  | .waitK n f => execWaitK_hasForm h n f
  | .sig _ _ => h.of_hbm (State.issue_hbm s _ _ _)
  | .sdec _ _ => h.of_hbm (State.issue_hbm s _ _ _)
  | .rsig n f => execRsig_hasForm h n f
  | .arrive n f => execArrive_hasForm h n f
  | .bwait n f => execBwait_hasForm h n f
  | .belay n f => execBelay_hasForm h n f
  | .send _ _ => h.of_hbm (State.enqueue_hbm s _ _ _ _)
  | .recv n f => execRecv_hasForm h n f
  | .recvR n f => execRecvR_hasForm h n f
  | .loopEnd _ _ => h.of_hbm (State.issue_hbm s _ _ _)
  | .stop _ => h.of_hbm (State.issue_hbm s _ _ _)
  | .pipelineWriteback n => execPipelineWriteback_hasForm h n
  | .bankStallEnd n => execBankStallEnd_hasForm h n
  | .tileDone n => execTileDone_hasForm h n
  | .imemParity n => execImemParity_hasForm h n
  | .ldExecute n => execLdExecute_hasForm h n
  | .ldStrmExecute n => execLdStrmExecute_hasForm h n
  | .ldOvlExecute n => execLdOvlExecute_hasForm h n
  | .stExecute n => execStExecute_hasForm h n
  | .stStrmExecute n => execStStrmExecute_hasForm h n
  | .stPostExecute n => execStPostExecute_hasForm h n
  | .sendExecute n => execSendExecute_hasForm h n
  | .tollTake n => execTollTake_hasForm h n
  | .engineCompletion n store => execEngineCompletion_hasForm h n store
  | .inboundWrite w => execInboundWrite_hasForm h w
  | .remoteSignal r => execRemoteSignal_hasForm h r
  | .belayArrival ref tag => execBelayArrival_hasForm h ref tag
  | .messageDelivery m => execMessageDelivery_hasForm h m
  | .stageMessage n c => execStageMessage_hasForm h n c
  | .padSkip n c => execPadSkip_hasForm h n c
  | .duplicateSkip n c => execDuplicateSkip_hasForm h n c
  | .waitWatchdog n toll => execWaitWatchdog_hasForm h n toll
  | .boundaryWatchdog r => execBoundaryWatchdog_hasForm h r
  | .stretch r cycle => execStretch_hasForm h r cycle
  | .partnerRst e => execPartnerRst_hasForm h e
  | .ownResetEnd e => execOwnResetEnd_hasForm h e
  | .partnerAckFall e => execPartnerAckFall_hasForm h e
  | .partnerReady e => execPartnerReady_hasForm h e
  | .timeBeacon region => execTimeBeacon_hasForm h region
  | .gtcRead => execGtcRead_hasForm h
  | .waypointSend p => execWaypointSend_hasForm h p
  | .waypointRecord p w => execWaypointRecord_hasForm h p w
  | .parentLost => execParentLost_hasForm h
  | .settledTimeout => execSettledTimeout_hasForm h
  | .freqRecord op instant => execFreqRecord_hasForm h op instant
  | .frequencySwitch => execFrequencySwitch_hasForm h
  | .referenceLost input => execReferenceLost_hasForm h input
  | .referenceGood input => execReferenceGood_hasForm h input
  | .refSelect => execRefSelect_hasForm h
  | .clockFailure => State.HasForm.ite (State.coldReset_hasForm s 0x04) h
  | .portEnable _ => h.of_hbm (State.modPort_hbm s _ _)
  | .portDisable _ => h.of_hbm (State.disablePort_hbm s _)
  | .signalPresent _ => h.of_hbm (State.modPort_hbm s _ _)
  | .trainComplete _ => h.of_hbm (State.modPort_hbm s _ _)
  | .trainTimeout _ _ => h.of_hbm (State.modPort_hbm s _ _)
  | .linkRetryTimer _ => h.of_hbm (State.modPort_hbm s _ _)
  | .capabilityFlit p c => execCapabilityFlit_hasForm h p c
  | .alignComplete p rtt => execAlignComplete_hasForm h p rtt
  | .slotTransmit p => execSlotTransmit_hasForm h p
  | .slotReceive p sl bad ecc corrected => execSlotReceive_hasForm h p sl bad ecc corrected
  | .retryTimeout _ => h.of_hbm (State.modPort_hbm s _ _)
  | .portWatchdog p => execPortWatchdog_hasForm h p
  | .retryLimit p => execRetryLimit_hasForm h p
  | .laneFail p => execLaneFail_hasForm h p
  | .queueRoom _ _ => h.of_hbm (State.modPort_hbm s _ _)
  | .writeRecord r => Res.HasForm.ite h (State.recAct_hasForm h fun _ h => h.landWrite r)
  | .postRecord r => execPostRecord_hasForm h r
  | .signalRecord r => execSignalRecord_hasForm h r
  | .arriveRecord r => execArriveRecord_hasForm h r
  | .releaseRecord r => execReleaseRecord_hasForm h r
  | .msgRecord r => execMsgRecord_hasForm h r
  | .reduceRecord p r => execReduceRecord_hasForm h p r
  | .logRecord r => execLogRecord_hasForm h r
  | .logEntryResume => execLogEntryResume_hasForm h
  | .switchRecord p r => execSwitchRecord_hasForm h p r
  | .switchLeg => execSwitchLeg_hasForm h
  | .previousTablesExpire => execPreviousTablesExpire_hasForm h
  | .detourRecord p r sl => execDetourRecord_hasForm h p r sl
  | .brokenRecord chip tile ch => execBrokenRecord_hasForm h chip tile ch
  | .scrub d seg => execScrub_hasForm h d seg
  | .migrationStart seg => execMigrationStart_hasForm h seg
  | .migrationCopy d stack => execMigrationCopy_hasForm h d stack
  | .migrationComplete d stack => execMigrationComplete_hasForm h d stack
  | .rowRetire d stack => execRowRetire_hasForm h d stack
  | .reduceBlockSend rid => execReduceBlockSend_hasForm h rid
  | .reduceSlotRelease rid block => execReduceSlotRelease_hasForm h rid block
  | .d2dRetry d ecc => execD2dRetry_hasForm h d ecc
  | .d2dModuleLost d => execD2dModuleLost_hasForm h d
  | .updateHandoff rid block => execUpdateHandoff_hasForm h rid block
  | .updateBlock d u => execUpdateBlock_hasForm h d u
  | .blockWrittenBack d u => execBlockWrittenBack_hasForm h d u
  | .poisonReport r => execPoisonReport_hasForm h r
  | .tileFault n => execTileFault_hasForm h n
  | .baseCampArrival => execBaseCampArrival_hasForm h
  | .stepEnd => State.HasForm.ite (h.of_bytes (State.endStep_bytes s)) h
  | .cairnChunk => execCairnChunk_hasForm h
  | .cairnCommit owner slot q tag bytes => execCairnCommit_hasForm h owner slot q tag bytes
  | .cairnAck owner slot q tag => execCairnAck_hasForm h owner slot q tag
  | .logAck owner rid block => execLogAck_hasForm h owner rid block
  | .heartbeatSend => execHeartbeatSend_hasForm h
  | .heartbeat sender step gtc => execHeartbeat_hasForm h sender step gtc
  | .heartbeatTimeout pos => execHeartbeatTimeout_hasForm h pos
  | .report e => execReport_hasForm h e
  | .mirror e => execMirror_hasForm h e
  | .haltRecord team k instant => execHaltRecord_hasForm h team k instant
  | .takeover pos k spare alt => execTakeover_hasForm h pos k spare alt
  | .fetch owner spareChip chunkOff logOff firstTag => execFetch_hasForm h owner spareChip chunkOff logOff firstTag
  | .restore => execRestore_hasForm h
  | .restored pos k => execRestored_hasForm h pos k
  | .startRecord team alt k swInstant startInstant => execStartRecord_hasForm h team alt k swInstant startInstant
  | .repairReload => execRepairReload_hasForm h
  | .programStart r => execProgramStart_hasForm h r
  | .ceiling sender c => execCeiling_hasForm h sender c
  | .ceilingRefresh => execCeilingRefresh_hasForm h
  | .ceilingExpire sender => execCeilingExpire_hasForm h sender
  | .powerSample avs0 avs1 => execPowerSample_hasForm h avs0 avs1
  | .temperatureSample rows depots base hbm => execTemperatureSample_hasForm h rows depots base hbm
  | .throttleEvaluation => execThrottleEvaluation_hasForm h
  | .tokenWindow r => execTokenWindow_hasForm h r
  | .regulatorFault rail => execRegulatorFault_hasForm h rail
  | .avsTimeout rail => execAvsTimeout_hasForm h rail
  | .wearMonitorSample deltas => execWearMonitorSample_hasForm h deltas
  | .replanHours => execReplanHours_hasForm h
  | .wearLedgerEmit => execWearLedgerEmit_hasForm h
  | .telemetryRewrite => execTelemetryRewrite_hasForm h
  | .sidebandEvaluation => execSidebandEvaluation_hasForm h
  | .bcWdogKick value => execBcWdogKick_hasForm h value
  | .bcWatchdog => State.HasForm.ite (h.of_bytes (State.warmReset_bytes s 0x06)) h
  | .lockup _ => State.HasForm.ite h (h.of_bytes (State.warmReset_bytes s 0x09))
  | .sramUncorrectable => execSramUncorrectable_hasForm h
  | .softwareRequest => execSoftwareRequest_hasForm h
  | .powerOn hot src => execPowerOn_hasForm h hot src
  | .brownOut rail => execBrownOut_hasForm h rail
  | .rstNAssert lowNs => execRstNAssert_hasForm h lowNs
  | .rstNRelease smba testmode => execRstNRelease_hasForm h smba testmode
  | .tetherReset => execTetherReset_hasForm h
  | .firmwareCheck => execFirmwareCheck_hasForm h
  | .thermalTrip _ => State.HasForm.ite (State.coldState_hasForm s s.rst.cause) h
  | .tripRelease => execTripRelease_hasForm h
  | .blockResetTile _ => h.of_hbm (State.goBlock_hbm s _ _)
  | .blockResetRow _ => h.of_hbm (State.goBlock_hbm s _ _)
  | .blockResetDepot _ => h.of_hbm (State.goBlock_hbm s _ _)
  | .blockResetCaravanPort _ => h.of_hbm (State.goBlock_hbm s _ _)
  | .blockResetHostPort _ => h.of_hbm (State.goBlock_hbm s _ _)
  | .blockIdle => execBlockIdle_hasForm h
  | .blockResetTimeout => execBlockResetTimeout_hasForm h
  | .registerWrite _ _ _ => h.of_hbm (State.ctlWrite_hbm s _ _ _)
  | .discover port nonce => execDiscover_hasForm h port nonce
  | .fw src offset data => execFw_hasForm h src offset data
  | .fwVerify => execFwVerify_hasForm h
  | .feederTimeout => execFeederTimeout_hasForm h
  | .hello1 port x => execHello1_hasForm h port x
  | .hello3 hd hsig => execHello3_hasForm h hd hsig
  | .halfOpenTimeout session => execHalfOpenTimeout_hasForm h session
  | .ack hd ackSeq => execAck_hasForm h hd ackSeq
  | .close hd => execClose_hasForm h hd
  | .tetherResend session => execTetherResend_hasForm h session
  | .tetherKeepalive _ => h.of_hbm (State.sendAck_hbm s _)
  | .sessionTimeout session => execSessionTimeout_hasForm h session
  | .read hd addr len => execRead_hasForm h hd addr len
  | .write hd addr data => execWrite_hasForm h hd addr data
  | .telemetry hd => execTelemetry_hasForm h hd
  | .faultlog hd first count => execFaultlog_hasForm h hd first count
  | .wearPut hd ledger => execWearPut_hasForm h hd ledger
  | .wearNone hd => execWearNone_hasForm h hd
  | .wearEmit hd => execWearEmit_hasForm h hd
  | .wearGet hd offset len => execWearGet_hasForm h hd offset len
  | .replan hd => execReplan_hasForm h hd
  | .map hd entries => execMap_hasForm h hd entries
  | .time hd root parent alt1 alt2 => execTime_hasForm h hd root parent alt1 alt2
  | .route hd ports hops => execRoute_hasForm h hd ports hops
  | .observers hd keys => execObservers_hasForm h hd keys
  | .release hd => execRelease_hasForm h hd
  | .macsec hd m => execMacsec_hasForm h hd m
  | .svn hd new => execSvn_hasForm h hd new
  | .qpOpen hd q => execQpOpen_hasForm h hd q
  | .qpClose hd qpn => execQpClose_hasForm h hd qpn
  | .load _ b => State.command_hasForm h fun id req _ h => h.load b id req
  | .team hd b => execTeam_hasForm h hd b
  | .start hd at_ step => execStart_hasForm h hd at_ step
  | .halt hd => execHalt_hasForm h hd
  | .resume hd => execResume_hasForm h hd
  | .reset hd kind index => execReset_hasForm h hd kind index
  | .quote hd nonce => execQuote_hasForm h hd nonce
  | .waybill hd scope inputDigest => execWaybill_hasForm h hd scope inputDigest
  | .roceSend qpn data => execRoceSend_hasForm h qpn data
  | .rdmaWrite qpn rkey va data => execRdmaWrite_hasForm h qpn rkey va data
  | .rdmaReadRequest qpn rkey va len => execRdmaReadRequest_hasForm h qpn rkey va len
  | .cnp qpn => execCnp_hasForm h qpn
  | .pfcFrame port pause => execPfcFrame_hasForm h port pause
  | .routerAdvertisement port pfx => execRouterAdvertisement_hasForm h port pfx
  | .neighbourDiscovery port target dad => execNeighbourDiscovery_hasForm h port target dad
  | .icmpv6Echo port dst payload => execIcmpv6Echo_hasForm h port dst payload
  | .hostLinkChange port up speed => execHostLinkChange_hasForm h port up speed
  | .stepDigest pos poison s_ sd => execStepDigest_hasForm h pos poison s_ sd
  | .chain pos km1 c => execChain_hasForm h pos km1 c
  | .wbReq req last inputDigest => execWbReq_hasForm h req last inputDigest
  | .wbPart req seg => execWbPart_hasForm h req seg
  | .wbPartTimeout => execWbPartTimeout_hasForm h
  | .smbChipInfo => h.of_hbm (State.smbAlways_hbm s _ _)
  | .smbTemperature => h.of_hbm (State.smbAlways_hbm s _ _)
  | .smbPkgStatus => h.of_hbm (State.smbAlways_hbm s _ _)
  | .smbDevState => h.of_hbm (State.smbDormas_hbm s _ _)
  | .smbResetCause => h.of_hbm (State.smbDormas_hbm s _ _)
  | .smbPackagePower => h.of_hbm (State.smbDormas_hbm s _ _)
  | .bypass => h.of_hbm (State.jtag_hbm s _ _)
  | .idcode => h.of_hbm (State.jtag_hbm s _ _)
  | .samplePreload shift => execSamplePreload_hasForm h shift
  | .extest => State.jtagPins_hasForm h _
  | .clamp => State.jtagPins_hasForm h _
  | .highz => State.jtagPins_hasForm h _
  | .extestPulse => State.jtagPulse_hasForm h _
  | .extestTrain => State.jtagPulse_hasForm h _
  | .dbgReset => execDbgReset_hasForm h
  | .stackTrained d stack => execStackTrained_hasForm h d stack
  | .frameDiscard port kind => execFrameDiscard_hasForm h port kind
  | .invalidRequest qpn => execInvalidRequest_hasForm h qpn
  | .capOpWrite op => execCapOpWrite_hasForm h op
  | .hpCfgWrite _ _ _ => h.of_hbm (State.setHostPort_hbm s _ _ _)
  | .vaonPowerUp => State.coldState_hasForm s s.rst.cause

/-- Settles O5: the form is an invariant of every step, of the idle cycle and of each command (`exec_hasForm`). -/
theorem stepKeepsMemoryForm : Obligations.StepKeepsMemoryForm := by
  intro s t h hst
  have hstep : Res.HasForm (step s) := by
    unfold step
    split
    · exact State.HasForm.of_hbm h (State.idle_hbm s)
    · next c rest _ => exact exec_hasForm (s := { s with pending := rest }) h c
  rw [hst] at hstep
  exact hstep

end Sys2Proof.Machine
end

section
/-! Commands to the engines and what the engines do with them (05_scratchpad_streams.md, 06_belays_channels.md). -/

namespace Sys2Proof.Machine

open Sys2Proof

/-! ### Enqueueing (R122, R129, R149) -/

theorem State.enqueue_eq {s0 : State} {n : Nat} {x : BSlot} {c : Tile → EngCmd} {poison : Tile → Bool} (h : s0.mayIssue n x = true) :
    let s := s0.take n x
    let t := s.tile n
    s0.enqueue n x c poison = (s.setTile n (if x = .ld then t.enqueueLd { c t with dead := poison t }
      else t.enqueueSt { c t with dead := poison t })).ctrlPoisonIf n (poison t) :=
  State.issueS_run h _

/-- Where the tail is no `send` of the bundle that enqueues, the command joins the tail. -/
theorem Tile.enqueueSt_of_tail {t : Tile} {c : EngCmd}
    (h : ∀ l, t.stq.getLast? = some l → l.fresh = false ∨ l.kind ≠ .send ∨ c.kind = .send) : t.enqueueSt c = t.joinSt c := by
  unfold Tile.enqueueSt
  split
  · next l hl =>
    refine if_neg fun hc => ?_
    obtain ⟨hfresh, hsend, hkind⟩ := hc
    rcases h l hl with h | h | h
    · rw [h] at hfresh
      cases hfresh
    · exact h hsend
    · exact hkind h
  · rfl

theorem Tile.joinSt_of_room {t : Tile} {c : EngCmd} (h : t.stq.length < 512) :
    t.joinSt c = { t with stq := t.stq ++ [{ c with fresh := true }] } := if_pos h

/-- The ST slot's command goes ahead of the `send` of its own bundle. -/
theorem Tile.enqueueSt_ahead {t : Tile} {c l : EngCmd} {q : List EngCmd} (hq : t.stq = q ++ [l]) (hfresh : l.fresh = true)
    (hsend : l.kind = .send) (hc : c.kind ≠ .send) (hlen : t.stq.length < 512) :
    t.enqueueSt c = { t with stq := q ++ [{ c with fresh := true }, l] } := by
  have hl : ({ l with fresh := true } : EngCmd) = l := by rw [← hfresh]
  have hq' : q.length + 1 < 512 := by simpa [hq] using hlen
  have hlast : t.stq.getLast? = some l := by simp [hq]
  unfold Tile.enqueueSt
  rw [hlast]
  simp only [hfresh, hsend, hc, true_and, ne_eq, not_false_eq_true, if_true]
  have hfirst : ({ t with stq := t.stq.dropLast } : Tile).joinSt c = { t with stq := q ++ [{ c with fresh := true }] } := by
    rw [hq, List.dropLast_concat]
    exact Tile.joinSt_of_room (by simpa using Nat.lt_of_succ_lt hq')
  rw [hfirst, Tile.joinSt_of_room (by simpa using hq'), hl]
  simp

theorem State.tile_take (s : State) (n : Nat) (x : BSlot) : (s.take n x).tile n = (s.tile n).take x :=
  State.tile_modTile s n _

/-- The command of `send`. -/
def sendCmd (d : SyD) (t : Tile) : EngCmd :=
  { kind := .send, sv := d.sv = 1, sem := d.sem.toNat, a := t.gv d.ga, oc := d.oc.toNat, len := d.len.toNat + 1 }

/-- Settles O26: a command joins its queue by `State.enqueue_eq`, and the ST slot's by `Tile.enqueueSt_ahead` where a `send` waits. -/
theorem enqueueResults : Obligations.EnqueueResults := by
  intro n f d s0 t0 base copy strm msg loads stores
  have hload {i : Instr} {c : Tile → EngCmd} {p : Tile → Bool} (hi : exec i s0 = .next (s0.enqueue n .ld c p)) :
      loads i (c (t0.take .ld)) (p (t0.take .ld)) := by
    intro h
    have hrun := hi.trans (congrArg Host.Outcome.next (State.enqueue_eq h))
    rw [State.tile_take] at hrun
    intro s t
    have ht : t = t0.take .ld := State.tile_take s0 n .ld
    rw [ht]
    exact hrun
  have hstore {i : Instr} {x : BSlot} {c : Tile → EngCmd} {p : Tile → Bool} (hx : x ≠ .ld)
      (hi : exec i s0 = .next (s0.enqueue n x c p)) : stores i x (c (t0.take x)) (p (t0.take x)) := by
    intro h s t c1
    have ht : t = t0.take x := State.tile_take s0 n x
    have hrun := hi.trans (congrArg Host.Outcome.next (State.enqueue_eq h))
    rw [if_neg hx] at hrun
    change exec i s0 = .next ((s.setTile n (t.enqueueSt { c t with dead := p t })).ctrlPoisonIf n (p t)) at hrun
    unfold c1
    rw [← ht]
    have enqueued (u v : Tile) (huv : u = v) :
        (.next ((s.setTile n u).ctrlPoisonIf n (p t)) : Res) = .next ((s.setTile n v).ctrlPoisonIf n (p t)) := by rw [huv]
    refine ⟨fun hl => ?_, fun q l hq hfresh hsend hc hlen => ?_⟩
    · exact hrun.trans (enqueued _ _ (Tile.enqueueSt_of_tail hl))
    · exact hrun.trans (enqueued _ _ (Tile.enqueueSt_ahead hq hfresh hsend hc hlen))
  exact ⟨hload (c := copyCmd .ld f) (p := copyPoison f) rfl, hload (c := streamCmd .ldStrm f) (p := streamPoison f) rfl,
    hload (c := fun _ => lsBase .ldOvl f) (p := fun _ => false) rfl,
    hstore (x := .st) (c := copyCmd .st f) (p := copyPoison f) (by decide) rfl,
    hstore (x := .st) (c := streamCmd .stStrm f) (p := streamPoison f) (by decide) rfl,
    hstore (x := .st) (c := fun t => { lsBase .stPost f with b := t.gv f.gb }) (p := fun t => t.gp f.gb) (by decide) rfl,
    hstore (x := .sy) (p := fun t => t.gp d.ga) (c := sendCmd d) (by decide) rfl⟩

/-! ### What the engines reach (R124, R135 to R137) -/

theorem StrmDesc.stray_iff {d : StrmDesc} {x : Nat} {p : Bool} :
    d.stray x p = true ↔ p = true ∨ d.tlen ≤ (x + 2 ^ 32 - d.bias) % 2 ^ 32 := by
  rw [StrmDesc.stray, Bool.or_eq_true, decide_eq_true_eq]
  rfl

section
variable {s s1 : State} {n j x : Nat} {d : StrmDesc} {p : Bool}

/-- A stray row leaves zeros under SZERO and is counted (R132). -/
theorem State.gatherRow_stray (hx : s.strmIndex n d j = (s1, x, p)) (h : d.stray x p = true) :
    s.gatherRow n d j = (if d.szero = true then s1.modTile n fun t => t.landLoad (d.localAddr j) (List.replicate (64 * d.runits) (0, p))
      else s1).modTile n Tile.stray := by
  unfold State.gatherRow
  rw [hx]
  exact if_pos h

theorem State.gatherRow_row (hx : s.strmIndex n d j = (s1, x, p)) (h : d.stray x p = false) :
    s.gatherRow n d j = (s1.engineRead n (d.tableAddr x) (64 * d.runits)).1.modTile n
      fun t => t.landLoad (d.localAddr j) (s1.engineRead n (d.tableAddr x) (64 * d.runits)).2 := by
  unfold State.gatherRow
  rw [hx]
  exact if_neg (by rw [h]; decide)

end

/-- Settles O27: each clause is one branch of the read, of the write and of the gather. -/
theorem engineTargetResults : Obligations.EngineTargetResults := by
  refine ⟨?_, ?_, ?_⟩
  · intro n g len s zeros off chip space
    have hhere (hc : chip = s.position) : ¬ gaChip g ≠ s.position := not_not.mpr hc
    have htile (hc : chip = s.position) (hs : space = 1) : s.engineRead n g len = match s.physicalOf (off / 2 ^ 21) with
        | some m => (s.detect m ((s.tile m).spad.detects (off % 2 ^ 21) len), (s.tile m).spad.read (off % 2 ^ 21) len)
        | none => (s.modTile n Tile.stray, zeros) := by
      have h0 : ¬ gaSpace g = 0 := fun h0 => absurd (hs.symm.trans h0) (by decide)
      exact (if_neg (hhere hc)).trans ((if_neg h0).trans ((if_pos hs).trans rfl))
    have hctl (hc : chip = s.position) (hs : space = 2) : s.engineRead n g len
        = if (securityWindow off || securityWindow (off + len - 1)) = true
          then (s.modTile n fun t => { t with engCtrlDiscard := true }, zeros)
          else (s.ctlTouch off len, (s.ctlBytes off len).map fun b => (b, false)) := by
      have h0 : ¬ gaSpace g = 0 := fun h0 => absurd (hs.symm.trans h0) (by decide)
      have h1 : ¬ gaSpace g = 1 := fun h1 => absurd (hs.symm.trans h1) (by decide)
      exact (if_neg (hhere hc)).trans ((if_neg h0).trans (if_neg h1))
    refine ⟨fun hc => if_pos hc, fun hc hs => ?_, fun hc hs m hm => ?_, fun hc hs hm => ?_, fun hc hs hw => ?_, fun hc hs hw => ?_⟩
    · exact congrArg Prod.snd ((if_neg (hhere hc)).trans (if_pos hs))
    · rw [htile hc hs, hm]
    · rw [htile hc hs, hm]
      rfl
    · exact (hctl hc hs).trans (if_pos hw)
    · exact congrArg Prod.snd ((hctl hc hs).trans (if_neg (by rw [hw]; decide)))
  · intro n g data tv s off chip space l own sent noRoute
    have hspace {a b : Nat} (hs : space = a) (hab : a ≠ b) : ¬ gaSpace g = b := fun h => hab (hs.symm.trans h)
    have hhbm (hc : chip = s.position) (hs : space = 0) : s.engineWrite n g data tv = .next (sent (s.hbmWrite off data true)) :=
      (if_neg (hspace hs (by decide))).trans ((if_neg (not_not.mpr hc)).trans (if_pos hs))
    have htile (b : Bool) (hc : chip = s.position) (hs : space = 1) : s.engineWrite n g data b
        = match s.physicalOf (off / 2 ^ 21) with
          | none => .next (s.modTile n Tile.stray)
          | some m =>
            if m = n then .next (sent (s.modTile n fun t => t.takeData (off % 2 ^ 21) data))
            else if b = true then
              .next (sent { s with net := s.net ++ [.write ⟨n, m, off % 2 ^ 21, bytesGrans (data.length / 4) data⟩] })
            else .fault .noToll :=
      (if_neg (hspace hs (by decide))).trans ((if_neg (not_not.mpr hc)).trans ((if_neg (hspace hs (by decide))).trans rfl))
    have hfar (b : Bool) (hc : chip ≠ s.position) (hs : space ≠ 2) : s.engineWrite n g data b
        = if gaSpace g = 1 ∧ (!b) = true then .fault .noToll
          else match s.sendScheduled 0 l chip (.write ⟨l, g, bytesUnits ((data.length + 63) / 64) data⟩) with
            | some s' => .next (sent s')
            | none => noRoute :=
      (if_neg hs).trans ((if_pos hc).trans rfl)
    have hroute (hc : chip ≠ s.position) (hs : space = 0 ∨ space = 1 ∧ tv = true) : s.engineWrite n g data tv
        = match s.sendScheduled 0 l chip (.write ⟨l, g, bytesUnits ((data.length + 63) / 64) data⟩) with
          | some s' => .next (sent s')
          | none => noRoute := by
      rcases hs with hs | ⟨hs, htv⟩
      · exact (hfar tv hc (by rw [hs]; decide)).trans (if_neg fun h => hspace hs (by decide) h.1)
      · exact (hfar tv hc (by rw [hs]; decide)).trans (if_neg fun h => by rw [htv] at h; cases h.2)
    have hctl (hs : space = 2) : s.engineWrite n g data tv
        = if chip = s.position ∧ own ≤ off ∧ off + data.length ≤ own + 0x10_0000 then
            .next (sent (s.tileCtlWrite n (off - own) (data.map Prod.fst)))
          else if chip ≠ s.position ∧ (s.route? 0 l chip).isNone = true then noRoute
          else .next (s.setTile n { s.tile n with engCtrlDiscard := true }) :=
      if_pos hs
    refine ⟨hhbm, fun hc hs hm => ?_, fun hc hs hm => ?_, fun hc hs m hm hmn => ⟨?_, ?_⟩, fun hc hs => ⟨fun hr => ?_, fun u hr => ?_⟩,
      fun hc hs => ?_, fun hs hc hr => ?_, fun hs hc hlo hhi => ?_, fun hs h => ?_⟩
    · rw [htile tv hc hs, hm]
      rfl
    · rw [htile tv hc hs, hm]
      exact if_pos rfl
    · rw [htile true hc hs, hm]
      exact (if_neg hmn).trans (if_pos rfl)
    · rw [htile false hc hs, hm]
      exact (if_neg hmn).trans (if_neg (by decide))
    · rw [hroute hc hs, hr]
    · rw [hroute hc hs, hr]
    · exact (hfar false hc (by rw [hs]; decide)).trans (if_pos ⟨hs, rfl⟩)
    · exact (hctl hs).trans ((if_neg fun h => hc h.1).trans (if_pos ⟨hc, by rw [hr]; rfl⟩))
    · exact (hctl hs).trans (if_pos ⟨hc, hlo, hhi⟩)
    · refine (hctl hs).trans ((if_neg ?_).trans (if_neg ?_))
      · rintro ⟨hc, hlo, hhi⟩
        rcases h with ⟨-, h⟩ | ⟨h, -⟩
        · omega
        · exact h hc
      · rintro ⟨hc, hr⟩
        rcases h with ⟨h, -⟩ | ⟨-, h⟩
        · exact hc h
        · exact h (Option.isNone_iff_eq_none.mp hr)
  · intro n d j s r x row near lands counts
    have hx : s.strmIndex n d j = x := by
      unfold State.strmIndex x
      split <;> rfl
    refine ⟨fun h => ?_, fun hp hrow => ?_⟩
    · refine State.gatherRow_stray (s1 := x.1) (x := x.2.1) (p := x.2.2) hx ?_
      exact StrmDesc.stray_iff.mpr h
    · refine State.gatherRow_row (s1 := x.1) (x := x.2.1) (p := x.2.2) hx ?_
      refine Bool.eq_false_iff.mpr fun h => (StrmDesc.stray_iff.mp h).elim (fun h => ?_) (Nat.not_le_of_lt hrow)
      rw [hp] at h
      cases h

end Sys2Proof.Machine
end
section
/-! The load engine at the head of its queue (R123, R130 to R132, R160, R74). -/

namespace Sys2Proof.Machine

open Sys2Proof

/-! ### Detections leave the queues alone -/

@[simp] theorem State.tile_markGrans (s : State) (n : Nat) (ds : Detections) (m : Nat) : (s.markGrans n ds).tile m = s.tile m :=
  State.foldl_keep (fun s => s.tile m) (fun s a => s.mark (.granule n a)) (fun _ _ => rfl) ds s

@[simp] theorem State.tile_detect (s : State) (n : Nat) (ds : Detections) : (s.detect n ds).tile n = (s.tile n).detect ds := by
  rw [State.detect, State.tile_markGrans, State.tile_modTile]

@[simp] theorem Tile.detect_ldq (t : Tile) (ds : Detections) : (t.detect ds).ldq = t.ldq := by
  cases ds <;> rfl

@[simp] theorem Tile.detect_stq (t : Tile) (ds : Detections) : (t.detect ds).stq = t.stq := by
  cases ds <;> rfl

section
variable {n : Nat} {c : EngCmd} {q : List EngCmd} {s : State} {k : EngKind} {f : EngCmd → State → Res}

/-- A command of the engine's kind at the head of the load queue runs, unless poison lets it act on nothing. -/
theorem State.runLd_head (hq : (s.tile n).ldq = c :: q) (hr : (s.tile n).ready c c.kind = true) (hk : c.kind = k) :
    s.runLd n k f = if c.dead = true then .next (s.doneLd n c) else f c s := by
  subst hk
  unfold State.runLd
  rw [hq]
  exact if_pos hr

theorem exec_runLd_dead {i : Instr} (hq : (s.tile n).ldq = c :: q) (hr : (s.tile n).ready c c.kind = true) (hk : c.kind = k)
    (hd : c.dead = true) (hi : exec i s = s.runLd n k f) : exec i s = .next (s.doneLd n c) :=
  hi.trans ((State.runLd_head hq hr hk).trans (if_pos hd))

theorem exec_runLd_live {i : Instr} (hq : (s.tile n).ldq = c :: q) (hr : (s.tile n).ready c c.kind = true) (hk : c.kind = k)
    (hd : c.dead = false) (hi : exec i s = s.runLd n k f) : exec i s = f c s :=
  hi.trans ((State.runLd_head hq hr hk).trans (if_neg (by rw [hd]; decide)))

theorem Tile.setLd_eq {t : Tile} {c1 : EngCmd} (hq : t.ldq = c :: q) : t.setLd c1 = { t with ldq := c1 :: q } := by
  rw [Tile.setLd, hq]
  rfl

theorem State.doneLd_eq (hq : (s.tile n).ldq = c :: q) :
    s.doneLd n c = s.setTile n { s.tile n with ldq := { c with done := true } :: q } := by
  rw [State.doneLd, State.modTile, Tile.setLd_eq hq]

/-- The descriptor of a stream that has none yet is read from the scratchpad (R130). -/
theorem State.strmStart_ld (hq : (s.tile n).ldq = c :: q) (hc : c.desc = none) :
    let t := s.tile n
    let d := strmDesc (t.spad.read c.descAddr 64)
    s.strmStart n c Tile.setLd = ((s.setTile n { t with
        ldq := { c with desc := some d } :: q, engMisalign := t.engMisalign || decide (c.b.toNat % 64 ≠ 0),
        engBadDesc := t.engBadDesc || d.bad }).detect n (t.spad.detects c.descAddr 64), d, { c with desc := some d }) := by
  intro t d
  unfold State.strmStart
  rw [hc]
  simp only [State.modTile]
  rw [Tile.setLd_eq hq]

/-- A copy's unit lands its bytes, and the command goes on to the next (R123). -/
theorem exec_ldExecute_unit (hq : (s.tile n).ldq = c :: q) (hr : (s.tile n).ready c c.kind = true) (hk : c.kind = .ld)
    (hd : c.dead = false) (hlen : c.length.1 ≠ 0) (hbad : gaBad (word4 c.b) = false) :
    let r := s.engineRead n (gaMove (word4 c.b) c.unit.1) c.unit.2
    exec (.ldExecute n) s = .next (r.1.modTile n fun t =>
      ((t.landLoad ((c.localAddr + c.unit.1) % spadBytes) r.2).setLd c.step).copyFlags c) := by
  intro r
  refine (exec_runLd_live (i := .ldExecute n) hq hr hk hd (Eq.refl (execLdExecute n s)) :).trans ?_
  simp only [if_neg hlen, hbad, Bool.false_eq_true, if_false]
  rfl

end

/-! ### Overlay fills (R74) -/

/-- The bundles of an overlay stand in its half, each at its place. -/
theorem Tile.imem_fillHalf (half : Nat) (data : List Byte) (t : Tile) {i : Nat} (hi : i < data.length / 48) :
    (t.fillHalf half data).imem.get (half * 4096 + i) 0 = BitVec.ofNat 384 (leNat ((data.drop (48 * i)).take 48)) := by
  have hfold (k : Nat) : i < k → ((List.range k).foldl (fun (t : Tile) i =>
      { t with imem := t.imem.set (half * 4096 + i) (bundleOf ((data.drop (48 * i)).take 48)),
               imemBad := t.imemBad.erase (half * 4096 + i) }) t).imem.get (half * 4096 + i) 0
      = bundleOf ((data.drop (48 * i)).take 48) := by
    induction k with
    | zero => intro h; omega
    | succ k ih =>
      intro h
      rw [List.range_succ, List.foldl_append]
      by_cases hk : i = k
      · subst hk
        exact SMap.get_set_self _ _ _ _
      · exact (SMap.get_set_ne _ _ _ (by omega)).trans (ih (by omega))
  exact hfold _ hi

/-- Settles O28: the head of the queue runs (`State.runLd_head`), and each kind moves one unit or row. -/
theorem loadEngineResults : Obligations.LoadEngineResults := by
  intro n c q s hq hr t len far size near ended flagged c1 b first rowDone
  refine ⟨fun hd => ⟨fun hk => ?_, fun hk => ?_, fun hk => ?_⟩, fun hk hd hlen => ?_, fun hk hd hlen hbad => ?_,
    fun hk hd hlen hbad => ?_, fun hk hd hc => ?_, fun d hk hd hc hbad hrows haddr => ?_, fun hk hd m l x hm hl hx => ?_⟩
  · exact (exec_runLd_dead (i := .ldExecute n) hq hr hk hd (Eq.refl (execLdExecute n s))).trans (congrArg _ (State.doneLd_eq hq))
  · exact (exec_runLd_dead (i := .ldStrmExecute n) hq hr hk hd (Eq.refl (execLdStrmExecute n s))).trans (congrArg _ (State.doneLd_eq hq))
  · exact (exec_runLd_dead (i := .ldOvlExecute n) hq hr hk hd (Eq.refl (execLdOvlExecute n s))).trans (congrArg _ (State.doneLd_eq hq))
  · refine (exec_runLd_live (i := .ldExecute n) hq hr hk hd (Eq.refl (execLdExecute n s)) :).trans ((if_pos hlen).trans ?_)
    rw [State.doneLd_eq hq, State.modTile, State.tile_setTile, State.setTile_setTile]
    rfl
  · intro r u
    refine (exec_ldExecute_unit hq hr hk hd hlen hbad).trans ?_
    simp only [State.modTile, Tile.copyFlags, Tile.setLd, Tile.landLoad, Tile.takeData]
    rfl
  · exact (exec_runLd_live (i := .ldExecute n) hq hr hk hd (Eq.refl (execLdExecute n s)) :).trans ((if_neg hlen).trans (if_pos hbad))
  · intro d cd
    have hrun : exec (.ldStrmExecute n) s = if d.bad = true ∨ cd.rows d = 0 then .next ((first d).doneLd n cd)
        else if d.badAddress = true then .fault .badAddress else .next (rowDone cd d ((first d).gatherRow n d cd.row)) := by
      refine (exec_runLd_live (i := .ldStrmExecute n) hq hr hk hd (Eq.refl (execLdStrmExecute n s)) :).trans ?_
      rw [State.strmStart_ld hq hc]
      rfl
    have hfirst : ((first d).tile n).ldq = cd :: q := by
      unfold first
      rw [State.tile_detect, Tile.detect_ldq, State.tile_setTile]
    refine ⟨fun h => hrun.trans ((if_pos h).trans (congrArg _ (State.doneLd_eq hfirst))), fun hb hrows haddr => ?_,
      fun hb hrows haddr => ?_⟩
    · exact hrun.trans ((if_neg fun h => h.elim (fun h => by rw [hb] at h; cases h) hrows).trans (if_pos haddr))
    · exact hrun.trans ((if_neg fun h => h.elim (fun h => by rw [hb] at h; cases h) hrows).trans (if_neg (by rw [haddr]; decide)))
  · refine (exec_runLd_live (i := .ldStrmExecute n) hq hr hk hd (Eq.refl (execLdStrmExecute n s)) :).trans ?_
    have hstart : s.strmStart n c Tile.setLd = (s, d, c) := by
      unfold State.strmStart
      rw [hc]
    rw [hstart]
    exact (if_neg (by rw [hbad]; simpa using hrows)).trans (if_neg (by rw [haddr]; decide))
  · have hrun : exec (.ldOvlExecute n) s = .next (((s.doneLd n c).hbmTouch (m.base + x.offset) x.data.length true).modTile n
        fun t => t.fillHalf (c.imm / 4096 % 2) (s.overlayBytes m x)) := by
      refine (exec_runLd_live (i := .ldOvlExecute n) hq hr hk hd (Eq.refl (execLdOvlExecute n s)) :).trans ?_
      rw [hm, hl]
      simp only [hx]
    have htouch := State.HbmOnly.touch (s.doneLd n c) (m.base + x.offset) x.data.length true
    have htouch := State.HbmOnly.touch (s.doneLd n c) (m.base + x.offset) x.data.length true
    refine ⟨_, hrun, fun i hi _ => ?_, ?_, ?_, fun k hk => ?_⟩
    · rw [State.tile_modTile]
      exact Tile.imem_fillHalf _ _ _ hi
    · rw [htouch]
      rfl
    · simp
    · rw [State.tile_modTile_ne _ _ hk, htouch]
      exact (State.tile_modTile_ne s (fun t => t.setLd { c with done := true }) hk :)

end Sys2Proof.Machine
end

section
/-! The store engine at the head of its queue, its tolls, and completion (R123 to R137, R153, R163, R169). -/

namespace Sys2Proof.Machine

open Sys2Proof

/-- A change of a semaphore changes nothing else of its tile. -/
theorem Tile.semSub_eq (t : Tile) (i k : Nat) :
    ∃ m o u, t.semSub i k = { t with sems := m, syncSemOvf := o, syncSemUnf := u } := by
  unfold Tile.semSub Tile.setSem
  dsimp only
  split <;> exact ⟨_, _, _, rfl⟩

/-- What `sendMessage`, posts and stores ask of the chip's place is not changed by a tile and its detections. -/
theorem State.position_detect (s : State) (n : Nat) (ds : Detections) : (s.detect n ds).position = s.position :=
  (State.foldl_keep State.position (fun s a => s.mark (.granule n a)) (fun _ _ => rfl) ds _).trans rfl

section
variable {n : Nat} {c : EngCmd} {q : List EngCmd} {s : State} {k : EngKind} {f : EngCmd → State → Res}

/-- A command of the engine's kind at the head of the store queue, which waits for no tolls, runs unless it is dead. -/
theorem State.runSt_head (hq : (s.tile n).stq = c :: q) (hr : (s.tile n).ready c c.kind = true) (hw : c.waiting = 0)
    (hk : c.kind = k) : s.runSt n k f = if c.dead = true then .next (s.doneSt n c) else f c s := by
  subst hk
  unfold State.runSt
  rw [hq]
  exact if_pos (by rw [hr, hw]; rfl)

theorem exec_runSt_dead {i : Instr} (hq : (s.tile n).stq = c :: q) (hr : (s.tile n).ready c c.kind = true) (hw : c.waiting = 0)
    (hk : c.kind = k) (hd : c.dead = true) (hi : exec i s = s.runSt n k f) : exec i s = .next (s.doneSt n c) :=
  hi.trans ((State.runSt_head hq hr hw hk).trans (if_pos hd))

theorem exec_runSt_live {i : Instr} (hq : (s.tile n).stq = c :: q) (hr : (s.tile n).ready c c.kind = true) (hw : c.waiting = 0)
    (hk : c.kind = k) (hd : c.dead = false) (hi : exec i s = s.runSt n k f) : exec i s = f c s :=
  hi.trans ((State.runSt_head hq hr hw hk).trans (if_neg (by rw [hd]; decide)))

theorem Tile.setSt_eq {t : Tile} {c1 : EngCmd} (hq : t.stq = c :: q) : t.setSt c1 = { t with stq := c1 :: q } := by
  rw [Tile.setSt, hq]
  rfl

theorem State.doneSt_eq (hq : (s.tile n).stq = c :: q) :
    s.doneSt n c = s.setTile n { s.tile n with stq := { c with done := true } :: q } := by
  rw [State.doneSt, State.modTile, Tile.setSt_eq hq]

theorem State.strmStart_st (hq : (s.tile n).stq = c :: q) (hc : c.desc = none) :
    let t := s.tile n
    let d := strmDesc (t.spad.read c.descAddr 64)
    s.strmStart n c Tile.setSt = ((s.setTile n { t with
        stq := { c with desc := some d } :: q, engMisalign := t.engMisalign || decide (c.b.toNat % 64 ≠ 0),
        engBadDesc := t.engBadDesc || d.bad }).detect n (t.spad.detects c.descAddr 64), d, { c with desc := some d }) := by
  intro t d
  unfold State.strmStart
  rw [hc]
  simp only [State.modTile]
  rw [Tile.setSt_eq hq]

/-- A `send` through a port that has become BROKEN is discarded (R169). -/
theorem Tile.dropSend_eq {t : Tile} (hq : t.stq = c :: q) :
    t.dropSend c = { t with
      stq := { c with done := true, waiting := 0 } :: q, syncReaderGone := true, tollCount := 0,
      oc := t.oc.set c.oc { t.oc.get c.oc {} with discarded := (t.oc.get c.oc {}).discarded + 1, readerGone := true } } := by
  rw [Tile.dropSend, Tile.setSt_eq hq]
  rfl

/-! ### Tolls (R134) -/

/-- The state in which the head of the store queue has taken its tolls. -/
def State.tollsTaken (s : State) (n : Nat) (c : EngCmd) (q : List EngCmd) (sem need : Nat) : State :=
  s.setTile n { (s.tile n).semSub sem need with stq := { c with tolls := need } :: q, tollCount := 0 }

variable {sem need : Nat} {go : EngCmd → State → Res}

theorem State.withTolls_held (h : need = 0 ∨ c.tolls ≠ 0) : s.withTolls n c sem need go = go c s := if_pos h

theorem State.withTolls_taken (hq : (s.tile n).stq = c :: q) (hw : c.waiting = 0) (h0 : need ≠ 0) (ht : c.tolls = 0)
    (hn : need ≤ (s.tile n).tollsIn sem) :
    s.withTolls n c sem need go = go { c with tolls := need } (s.tollsTaken n c q sem need) := by
  have hc : ({ c with tolls := need, waiting := 0 } : EngCmd) = { c with tolls := need } := by rw [← hw]
  obtain ⟨m, o, u, hsub⟩ := (s.tile n).semSub_eq sem need
  have hq' : ((s.tile n).semSub sem need).stq = c :: q := by rw [hsub]; exact hq
  unfold State.withTolls
  rw [if_neg (by simp [h0, ht]), Tile.askTolls, if_pos hn, hc, Tile.setSt_eq hq']
  rfl

theorem State.withTolls_waits (hq : (s.tile n).stq = c :: q) (ht : c.tolls = 0) (hn : (s.tile n).tollsIn sem < need) :
    s.withTolls n c sem need go = .next (s.setTile n { s.tile n with stq := { c with waiting := need } :: q }) := by
  have h0 : need ≠ 0 := by omega
  unfold State.withTolls
  rw [if_neg (by simp [h0, ht]), Tile.askTolls, if_neg (by omega), Tile.setSt_eq hq]

/-- The head of the queue stays ready for its engine when it has taken its tolls. -/
theorem State.tollsTaken_head (hr : (s.tile n).ready c c.kind = true) :
    ((s.tollsTaken n c q sem need).tile n).stq = { c with tolls := need } :: q
      ∧ ((s.tollsTaken n c q sem need).tile n).ready { c with tolls := need } c.kind = true := by
  obtain ⟨m, o, u, hsub⟩ := (s.tile n).semSub_eq sem need
  unfold State.tollsTaken
  rw [State.tile_setTile, hsub]
  exact ⟨rfl, hr⟩

end

/-! ### What a command with its tolls does -/

/-- One unit of a copy (R123). -/
def State.copyUnit (n : Nat) (c : EngCmd) (s : State) : Res :=
  let a := (c.localAddr + c.unit.1) % spadBytes
  let t := s.tile n
  match ((s.modTile n fun t => t.setSt c.step).detect n (t.spad.detects a c.unit.2)).engineWrite n
      (gaMove (word4 c.b) c.unit.1) (t.spad.read a c.unit.2) c.tv with
  | .next s1 => .next (s1.modTile n fun t => t.copyFlags c)
  | r => r

/-- One row of a stream, at table row `x` (R131). -/
def State.streamRow (n : Nat) (d : StrmDesc) (x : Nat) (c : EngCmd) (s : State) : Res :=
  let t := s.tile n
  let a := d.localAddr c.row
  ((s.modTile n fun t => t.setSt (c.nextRow d)).detect n (t.spad.detects a (64 * d.runits))).engineWrite n
    (d.tableAddr x) (t.spad.read a (64 * d.runits)) c.tv

section
variable {n : Nat} {c : EngCmd} {q : List EngCmd} {s : State}

theorem exec_stExecute_unit (hq : (s.tile n).stq = c :: q) (hr : (s.tile n).ready c c.kind = true) (hw : c.waiting = 0)
    (hk : c.kind = .st) (hd : c.dead = false) (hlen : c.length.1 ≠ 0) (hbad : gaBad (word4 c.b) = false) :
    exec (.stExecute n) s
      = s.withTolls n c c.toll (if c.tv = true then (c.length.1 + 63) / 64 else 0) (State.copyUnit n) := by
  refine (exec_runSt_live (i := .stExecute n) hq hr hw hk hd (Eq.refl (execStExecute n s)) :).trans ?_
  simp only [if_neg hlen, hbad, Bool.false_eq_true, if_false]
  rfl

theorem exec_stStrmExecute_row {d : StrmDesc} (hq : (s.tile n).stq = c :: q) (hr : (s.tile n).ready c c.kind = true)
    (hw : c.waiting = 0) (hk : c.kind = .stStrm) (hd : c.dead = false) (hc : c.desc = some d) (hbad : d.bad = false)
    (hrows : c.rows d ≠ 0) (haddr : d.badAddress = false) (hi : d.isrc = 0) :
    exec (.stStrmExecute n) s = if d.stray c.row false = true then .next (s.modTile n fun t => (t.setSt (c.nextRow d)).stray)
      else s.withTolls n c c.toll (if c.tv = true then d.runits else 0) (State.streamRow n d c.row) := by
  refine (exec_runSt_live (i := .stStrmExecute n) hq hr hw hk hd (Eq.refl (execStStrmExecute n s)) :).trans ?_
  have hstart : s.strmStart n c Tile.setSt = (s, d, c) := by
    unfold State.strmStart
    rw [hc]
  have hidx : s.strmIndex n d c.row = (s, c.row, false) := if_pos hi
  simp only [hstart, hbad, hrows, haddr, hidx, Bool.false_eq_true, or_self, if_false]
  rfl

end

theorem exec_sendExecute_live {n : Nat} {c : EngCmd} {q : List EngCmd} {s : State} (hq : (s.tile n).stq = c :: q)
    (hr : (s.tile n).ready c c.kind = true) (hw : c.waiting = 0) (hk : c.kind = .send) (hd : c.dead = false) :
    let o := (s.tile n).oc.get c.oc {}
    let u := { s.tile n with engMisalign := (s.tile n).engMisalign || decide (c.a.toNat % 64 ≠ 0) }
    exec (.sendExecute n) s = if o.broken = true ∧ c.tolls = 0 then .next ((s.setTile n u).modTile n fun t => t.dropSend c)
      else (s.setTile n u).withTolls n c o.toll (o.plan c.len).1 fun c s => .next (s.sendMessage n c) := by
  intro o u
  exact (exec_runSt_live (i := .sendExecute n) hq hr hw hk hd (Eq.refl (execSendExecute n s)) :)

theorem OPort.plan_ne_zero (o : OPort) {l : Nat} (h : l ≠ 0) : (o.plan l).1 ≠ 0 := by
  unfold OPort.plan
  dsimp only
  split
  · exact h
  · exact fun hsum => h (Nat.eq_zero_of_add_eq_zero hsum).2

/-- The take of tolls changes semaphores alone, whatever the tile's flags are. -/
theorem Tile.semSub_misalign (t : Tile) (b : Bool) (i k : Nat) :
    ({ t with engMisalign := b } : Tile).semSub i k = { t.semSub i k with engMisalign := b } := by
  by_cases h : t.inCycle = true
  · exact (if_pos h).trans (by rw [Tile.semSub, Tile.setSem, if_pos h]; rfl)
  · exact (if_neg h).trans (by rw [Tile.semSub, Tile.setSem, if_neg h]; rfl)

/-- The flag of a misaligned address may be set before the tolls are taken or after. -/
theorem State.tollsTaken_misalign (s : State) (n : Nat) (c : EngCmd) (q : List EngCmd) (sem need : Nat) :
    let mis (t : Tile) : Tile := { t with engMisalign := t.engMisalign || decide (c.a.toNat % 64 ≠ 0) }
    (s.tollsTaken n c q sem need).setTile n (mis ((s.tollsTaken n c q sem need).tile n))
      = (s.setTile n (mis (s.tile n))).tollsTaken n c q sem need := by
  intro mis
  obtain ⟨m, o, u, hsub⟩ := (s.tile n).semSub_eq sem need
  have hmis := (s.tile n).semSub_misalign (mis (s.tile n)).engMisalign sem need
  rw [hsub] at hmis
  unfold State.tollsTaken
  rw [State.setTile_setTile, State.setTile_setTile, State.tile_setTile, State.tile_setTile, hsub]
  refine congrArg (s.setTile n) ?_
  have hm : (mis (s.tile n)).semSub sem need = _ := hmis
  rw [hm]

/-- A message to a tile of this chip goes over the die network (R163). -/
theorem State.net_sendMessage {s : State} {n : Nat} {c : EngCmd} :
    let o := (s.tile n).oc.get c.oc {}
    o.chip = s.position → (s.sendMessage n c).net = s.net ++ [.msg ⟨some n, o.tile, o.ch, o.seq.toNat, (o.plan c.len).2.2, o.wrPos,
      (o.plan c.len).2.1, (s.tile n).spad.readGrans (c.a.toNat % spadBytes / 64 * 64) (64 * c.len)⟩] := by
  intro o hchip
  have hnet (u : State) (ds : Detections) : (u.detect n ds).net = u.net :=
    (State.foldl_keep State.net (fun s a => s.mark (.granule n a)) (fun _ _ => rfl) ds _).trans rfl
  unfold State.sendMessage
  simp only [o] at hchip
  simp only [if_pos hchip, hnet]
  rfl

/-- Settles O29: the head of the store queue runs (`State.runSt_head`) once it holds its tolls (`State.withTolls_taken`). -/
theorem storeEngineResults : Obligations.StoreEngineResults := by
  intro n c q s hq hr hw t done len flagged far size near units took sent
  refine ⟨fun hd => ⟨fun hk => ?_, fun hk => ?_, fun hk => ?_, fun hk => ?_⟩, fun hd hk hlen => ?_, fun hd hk hlen hbad => ?_,
    fun hd hk hlen hbad htoll => ?_, fun hd hk hlen hbad htv htoll => ⟨fun hn => ?_, fun hn => ?_⟩, fun hd hk => ?_,
    fun hd hk hc => ?_, fun d hd hk hc hbad hrows haddr hi => ?_, fun hd hk => ?_⟩
  · exact (exec_runSt_dead (i := .stExecute n) hq hr hw hk hd (Eq.refl (execStExecute n s))).trans (congrArg _ (State.doneSt_eq hq))
  · exact (exec_runSt_dead (i := .stStrmExecute n) hq hr hw hk hd (Eq.refl (execStStrmExecute n s))).trans (congrArg _ (State.doneSt_eq hq))
  · exact (exec_runSt_dead (i := .stPostExecute n) hq hr hw hk hd (Eq.refl (execStPostExecute n s))).trans (congrArg _ (State.doneSt_eq hq))
  · exact (exec_runSt_dead (i := .sendExecute n) hq hr hw hk hd (Eq.refl (execSendExecute n s))).trans (congrArg _ (State.doneSt_eq hq))
  · refine (exec_runSt_live (i := .stExecute n) hq hr hw hk hd (Eq.refl (execStExecute n s)) :).trans ((if_pos hlen).trans ?_)
    rw [State.doneSt_eq hq, State.modTile, State.tile_setTile, State.setTile_setTile]
    rfl
  · exact (exec_runSt_live (i := .stExecute n) hq hr hw hk hd (Eq.refl (execStExecute n s)) :).trans
      ((if_neg hlen).trans (if_pos hbad))
  · intro s1 data
    have hrun : exec (.stExecute n) s = State.copyUnit n c s :=
      (exec_stExecute_unit hq hr hw hk hd hlen hbad).trans (State.withTolls_held (htoll.imp (fun h => if_neg (by rw [h]; decide)) id))
    have hunit : State.copyUnit n c s = match s1.engineWrite n far data c.tv with
        | .next u => .next (u.modTile n fun t => t.copyFlags c)
        | r => r := by
      unfold State.copyUnit
      simp only [State.modTile]
      rw [Tile.setSt_eq hq]
      rfl
    have hnext (u : State) (hu : s1.engineWrite n far data c.tv = .next u) :
        exec (.stExecute n) s = .next (u.setTile n (flagged (u.tile n))) := by
      rw [hrun, hunit, hu]
      rfl
    refine ⟨hnext, fun e he => ?_, fun hchip hspace => hnext _ ?_⟩
    · rw [hrun, hunit, he]
    · obtain ⟨hhbm, -⟩ := engineTargetResults.2.1 n far data c.tv s1
      have hpos : s1.position = s.position := (State.position_detect _ n _).trans rfl
      exact hhbm (hchip.trans hpos.symm) hspace
  · refine (exec_stExecute_unit hq hr hw hk hd hlen hbad).trans ?_
    rw [if_pos htv]
    exact State.withTolls_waits hq htoll hn
  · refine (exec_stExecute_unit hq hr hw hk hd hlen hbad).trans ?_
    obtain ⟨hq1, hr1⟩ := State.tollsTaken_head (q := q) (sem := c.toll) (need := (len + 63) / 64) hr
    have h0 : (len + 63) / 64 ≠ 0 := by omega
    rw [if_pos htv, State.withTolls_taken hq hw h0 htoll hn]
    refine Eq.symm ((exec_stExecute_unit (c := { c with tolls := (len + 63) / 64 }) hq1 hr1 hw hk hd hlen hbad).trans ?_)
    exact State.withTolls_held (.inr h0)
  · have hrun : exec (.stPostExecute n) s = .next ((s.setTile n (done t)).signalFrom n 0 c.b (c.imm % 256)) := by
      refine (exec_runSt_live (i := .stPostExecute n) hq hr hw hk hd (Eq.refl (execStPostExecute n s)) :).trans ?_
      rw [State.doneSt_eq hq]
    exact ⟨hrun, fun hchip => hrun.trans (congrArg Host.Outcome.next (if_pos hchip))⟩
  · intro a d cd s1
    have hs1 : (s1.tile n).stq = cd :: q := by
      unfold s1
      rw [State.tile_detect, Tile.detect_stq, State.tile_setTile]
    have hrun (hok : ¬ (d.bad = true ∨ c.rows d = 0) → d.badAddress = true) : exec (.stStrmExecute n) s
        = if d.bad = true ∨ cd.rows d = 0 then .next (s1.doneSt n cd) else .fault .badAddress := by
      refine (exec_runSt_live (i := .stStrmExecute n) hq hr hw hk hd (Eq.refl (execStStrmExecute n s)) :).trans ?_
      rw [State.strmStart_st hq hc]
      by_cases hbad : d.bad = true ∨ c.rows d = 0
      · exact (if_pos hbad).trans (if_pos hbad).symm
      · exact (if_neg hbad).trans ((if_pos (hok hbad)).trans (if_neg hbad).symm)
    refine ⟨fun h => (hrun fun hn => absurd h hn).trans ((if_pos h).trans (congrArg _ (State.doneSt_eq hs1))), fun hb hrows haddr => ?_⟩
    exact (hrun fun _ => haddr).trans (if_neg fun h => h.elim (fun h => by rw [hb] at h; cases h) hrows)
  · intro row g near c1 s1 data
    have hrun := exec_stStrmExecute_row hq hr hw hk hd hc hbad hrows haddr hi
    have hstray : d.stray c.row false = true ↔ d.tlen ≤ row := StrmDesc.stray_iff.trans (by simp [row])
    refine ⟨fun hrow => ?_, fun hrow htoll hunits => ?_, fun hrow htv htoll hn => ?_, fun hrow htv htoll hpos hn => ?_⟩
    · rw [hrun, if_pos (hstray.mpr hrow), State.modTile, Tile.setSt_eq hq]
      rfl
    · have hmove : exec (.stStrmExecute n) s = s1.engineWrite n g data c.tv := by
        rw [hrun, if_neg fun h => absurd (hstray.mp h) (by omega),
          State.withTolls_held (htoll.imp (fun h => if_neg (by rw [h]; decide)) id)]
        unfold State.streamRow
        simp only [State.modTile]
        rw [Tile.setSt_eq hq]
        rfl
      obtain ⟨hhbm, -⟩ := engineTargetResults.2.1 n g data c.tv s1
      have hpos : s1.position = s.position := (State.position_detect _ n _).trans rfl
      exact ⟨hmove, fun hchip hspace => hmove.trans (hhbm (hchip.trans hpos.symm) hspace)⟩
    · rw [hrun, if_neg fun h => absurd (hstray.mp h) (by omega), if_pos htv]
      exact State.withTolls_waits hq htoll hn
    · obtain ⟨hq1, hr1⟩ := State.tollsTaken_head (q := q) (sem := c.toll) (need := d.runits) hr
      have h0 : d.runits ≠ 0 := by omega
      have hrow' : ¬ d.stray c.row false = true := fun h => absurd (hstray.mp h) (by omega)
      rw [hrun, if_neg hrow', if_pos htv, State.withTolls_taken hq hw h0 htoll hn]
      refine Eq.symm ((exec_stStrmExecute_row (c := { c with tolls := d.runits }) hq1 hr1 hw hk hd hc hbad hrows haddr hi).trans ?_)
      exact (if_neg hrow').trans (State.withTolls_held (.inr h0))
  · intro o u
    have hrun := exec_sendExecute_live hq hr hw hk hd
    have hqu : ((s.setTile n u).tile n).stq = c :: q := by rw [State.tile_setTile]; exact hq
    refine ⟨fun hb ht => ?_, fun hb ht hn => ?_, fun hb ht hlen hn => ?_, fun ht => ⟨?_, fun data hdata hchip => ?_⟩⟩
    · rw [hrun, if_pos ⟨hb, ht⟩, State.modTile, State.tile_setTile, State.setTile_setTile, Tile.dropSend_eq (t := u) hq]
    · rw [hrun, if_neg (by rw [hb]; simp), State.withTolls_waits hqu ht (by rw [State.tile_setTile]; exact hn),
        State.tile_setTile, State.setTile_setTile]
    · have h0 : (o.plan c.len).1 ≠ 0 := o.plan_ne_zero hlen
      obtain ⟨hq1, hr1⟩ := State.tollsTaken_head (q := q) (sem := o.toll) (need := (o.plan c.len).1) hr
      rw [hrun, if_neg (by rw [hb]; simp), State.withTolls_taken hqu hw h0 ht (by rw [State.tile_setTile]; exact hn)]
      refine Eq.symm ((exec_sendExecute_live (c := { c with tolls := (o.plan c.len).1 }) hq1 hr1 hw hk hd).trans ?_)
      rw [if_neg fun h => h0 h.2, State.withTolls_held (.inr h0)]
      exact congrArg (fun s => Host.Outcome.next (State.sendMessage s n { c with tolls := (o.plan c.len).1 }))
        (s.tollsTaken_misalign n c q o.toll (o.plan c.len).1)
    · rw [hrun, if_neg fun h => ht h.2, State.withTolls_held (.inr ht)]
    · have hnet := State.net_sendMessage (s := s.setTile n u) (n := n) (c := c)
      rw [State.tile_setTile] at hnet
      rw [hdata]
      exact hnet hchip

/-! ### Tolls and completion (R125, R127, R134, R159, R169) -/

/-- What a store engine that waits for tolls does in a row cycle. -/
def Tile.tollTurn (t : Tile) (c : EngCmd) : Tile :=
  if c.kind = .send ∧ (t.oc.get c.oc {}).broken then t.dropSend c
  else if c.waiting ≤ t.tollsIn (t.tollSem c) then
    { (t.semSub (t.tollSem c) c.waiting).setSt { c with tolls := c.waiting, waiting := 0 } with tollCount := 0 }
  else
    { t with
      tollWait := t.tollWait + 1, tollCount := if t.wdogLimit = 0 then t.tollCount else t.tollCount + 1,
      oc := if c.kind = .send then t.oc.upd c.oc {} fun o => { o with stall := o.stall + 1 } else t.oc }

section
variable {n : Nat} {c : EngCmd} {q : List EngCmd} {s : State}

/-- A store engine that waits for tolls spends a row cycle on it. -/
theorem exec_tollTake_waiting (hst : (s.tile n).st ≠ .fault) (hq : (s.tile n).stq = c :: q) (hw : 0 < c.waiting) :
    exec (.tollTake n) s = .next (s.setTile n ((s.tile n).tollTurn c)) := by
  change execTollTake n s = _
  unfold execTollTake
  rw [hq]
  exact congrArg Host.Outcome.next (if_pos (And.intro hw hst))

theorem exec_engineCompletion_load (hst : (s.tile n).st ≠ .fault) (hq : (s.tile n).ldq = c :: q) (hdone : c.done = true) :
    exec (.engineCompletion n false) s = .next (s.modTile n fun t => { t.signalDone c with ldq := q, ldDone := t.ldDone + 1 }) := by
  change execEngineCompletion n false s = _
  unfold execEngineCompletion
  rw [if_neg hst, if_neg (by decide), hq]
  exact congrArg Host.Outcome.next (if_pos hdone)

theorem exec_engineCompletion_store (hst : (s.tile n).st ≠ .fault) (hq : (s.tile n).stq = c :: q) (hdone : c.done = true)
    (hl : s.storesLanded n = true) :
    exec (.engineCompletion n true) s = .next (s.modTile n fun t => { t.signalDone c with stq := q, stDone := t.stDone + 1 }) := by
  change execEngineCompletion n true s = _
  unfold execEngineCompletion
  rw [if_neg hst, if_pos rfl, hq]
  exact congrArg Host.Outcome.next (if_pos (And.intro hdone hl))

end

/-- Settles O30: a waiting engine by `exec_tollTake_waiting`, a completed command by the branch of its queue. -/
theorem completionResults : Obligations.CompletionResults := by
  intro n c q s hst t o sem signal
  refine ⟨fun hq hw hb => ?_, fun hq hw hk hb => ?_, fun hq hdone => ?_, fun hq hdone hl => ?_⟩
  · refine ⟨fun hn => (exec_tollTake_waiting hst hq hw).trans ?_, fun hn => (exec_tollTake_waiting hst hq hw).trans ?_⟩
    · obtain ⟨m, v, u, hsub⟩ := t.semSub_eq sem c.waiting
      have hq' : (t.semSub sem c.waiting).stq = c :: q := by rw [hsub]; exact hq
      have htake : (t.semSub sem c.waiting).setSt { c with tolls := c.waiting, waiting := 0 }
        = { t.semSub sem c.waiting with stq := { c with tolls := c.waiting, waiting := 0 } :: q } := Tile.setSt_eq hq'
      have hturn : t.tollTurn c
          = { (t.semSub sem c.waiting).setSt { c with tolls := c.waiting, waiting := 0 } with tollCount := 0 } :=
        (if_neg hb).trans (if_pos hn)
      rw [htake] at hturn
      exact congrArg (fun u : Tile => Host.Outcome.next (s.setTile n u)) hturn
    · exact congrArg (fun u : Tile => Host.Outcome.next (s.setTile n u)) ((if_neg hb).trans (if_neg (Nat.not_le.mpr hn)))
  · have hturn : t.tollTurn c = t.dropSend c := if_pos ⟨hk, hb⟩
    rw [Tile.dropSend_eq hq] at hturn
    exact (exec_tollTake_waiting hst hq hw).trans (congrArg (fun u : Tile => Host.Outcome.next (s.setTile n u)) hturn)
  · exact exec_engineCompletion_load hst hq hdone
  · exact exec_engineCompletion_store hst hq hdone hl

end Sys2Proof.Machine
end


section
/-! The sync slot: semaphores, belay ports, channels and what reaches a tile over the die network. -/

namespace Sys2Proof.Machine

open Sys2Proof

/-! ### Semaphore arithmetic -/

/-- What an array with every entry changed holds. -/
theorem SMap.get?_map {α : Type} (f : α → α) (m : SMap α) (i : Nat) :
    SMap.get? (m.map fun x : Nat × α => (x.1, f x.2)) i = (SMap.get? m i).map f := by
  induction m with
  | nil => rfl
  | cons y l ih =>
    obtain ⟨k, v⟩ := y
    simp only [List.map_cons, SMap.get?, ih]
    split <;> rfl

theorem SMap.get_map {α : Type} (f : α → α) (m : SMap α) (i : Nat) (d : α) :
    SMap.get (m.map fun x : Nat × α => (x.1, f x.2)) i (f d) = f (SMap.get m i d) := by
  simp only [SMap.get, SMap.get?_map, Option.getD_map]

/-- A semaphore that nothing has touched settles to itself. -/
theorem Tile.sem_settleSems (t : Tile) (i : Nat) : t.settleSems.sem i = (t.sem i).settle :=
  SMap.get_map Sem.settle t.sems i {}

theorem Tile.sem_endRow (t : Tile) (i : Nat) : t.endRow.sem i = (t.sem i).settle := t.sem_settleSems i

theorem Tile.setSem_open {t : Tile} (h : t.inCycle = true) (i : Nat) (m : Sem) : t.setSem i m = { t with sems := t.sems.set i m } :=
  if_pos h

theorem Tile.sem_setSem_open {t : Tile} (h : t.inCycle = true) (i : Nat) (m : Sem) : (t.setSem i m).sem i = m := by
  rw [t.setSem_open h]
  exact SMap.get_set_self t.sems i m {}

theorem Tile.sem_setSem_open_ne {t : Tile} (h : t.inCycle = true) {i j : Nat} (m : Sem) (hj : j ≠ i) :
    (t.setSem i m).sem j = t.sem j := by
  rw [t.setSem_open h]
  exact SMap.get_set_ne t.sems m {} hj

theorem Tile.sem_setSem_closed {t : Tile} (h : t.inCycle = false) (i : Nat) (m : Sem) : (t.setSem i m).sem i = m.settle := by
  have hs : t.setSem i m = ({ t with sems := t.sems.set i m } : Tile).settleSems := if_neg (by simp [h])
  rw [hs, Tile.sem_settleSems]
  exact congrArg Sem.settle (SMap.get_set_self t.sems i m {})

/-- Settling: the increments saturate first, then the decrements stop at zero. -/
theorem Sem.settle_spec (m : Sem) :
    let v := Nat.min 0xFFFF (m.value + m.incs)
    m.settle.value = v - m.decs ∧ m.settle.value ≤ 0xFFFF ∧ m.settle.incs = 0 ∧ m.settle.decs = 0
    ∧ (m.settle.ovf = true ↔ m.ovf = true ∨ 0xFFFF < m.value + m.incs) ∧ (m.settle.unf = true ↔ m.unf = true ∨ v < m.decs) := by
  have hc : Nat.min (m.value + m.incs) 0xFFFF = Nat.min 0xFFFF (m.value + m.incs) := Nat.min_comm _ _
  have hv : Nat.min 0xFFFF (m.value + m.incs) ≤ 0xFFFF := Nat.min_le_left _ _
  simp only [Sem.settle, hc, Bool.or_eq_true, decide_eq_true_eq, iff_self, and_self, true_and, and_true]
  exact Nat.le_trans (Nat.sub_le _ _) hv

/-- Settles O31: a settled array holds the settled entry of each index, and an open row cycle only gathers. -/
theorem semaphoreArithmetic : Obligations.SemaphoreArithmetic := by
  unfold Obligations.SemaphoreArithmetic
  exact ⟨fun m _ => m.settle_spec, fun t i k => ⟨t.sem_endRow i,
    fun h => ⟨Tile.sem_setSem_open h _ _, Tile.sem_setSem_open h _ _,
      fun j hj => ⟨Tile.sem_setSem_open_ne h _ hj, Tile.sem_setSem_open_ne h _ hj⟩⟩,
    fun h => ⟨Tile.sem_setSem_closed h _ _, Tile.sem_setSem_closed h _ _⟩⟩⟩

/-! ### Waits -/

/-- The row cycle of a bundle at the head of issue whose wait holds: it issues. -/
theorem State.syWait_go {s : State} {n : Nat} {cond : Tile → Bool} {go : State → State} {hold : Tile → Tile}
    (h : (s.tile n).atHead = true) (hc : cond ((s.nextHold n).tile n) = true) :
    s.syWait n cond go hold = go ((s.nextHold n).modTile n Tile.release) :=
  (if_pos h).trans (if_pos hc)

/-- The row cycle of a bundle at the head of issue whose wait does not hold: it holds. -/
theorem State.syWait_hold {s : State} {n : Nat} {cond : Tile → Bool} {go : State → State} {hold : Tile → Tile}
    (h : (s.tile n).atHead = true) (hc : cond ((s.nextHold n).tile n) = false) :
    s.syWait n cond go hold = (s.nextHold n).setTile n (hold ((s.nextHold n).tile n)).holdCycle :=
  (if_pos h).trans (if_neg (by simp [hc]))

/-- A wait whose issue only changes the tile. -/
theorem State.syWait_modTile {s : State} {n : Nat} {cond : Tile → Bool} {f : Tile → Tile} {hold : Tile → Tile}
    (h : (s.tile n).atHead = true) (hc : cond ((s.nextHold n).tile n) = true) :
    s.syWait n cond (fun s => s.modTile n f) hold = (s.nextHold n).setTile n (f ((s.nextHold n).tile n).release) := by
  rw [State.syWait_go h hc, State.modTile, State.modTile, State.tile_setTile, State.setTile_setTile]

/-! ### Signals and arrivals over the die network -/

theorem State.signalFrom_own {s : State} {n src : Nat} {ref : W64} {inc : Nat} (h : refChip ref = s.position) :
    s.signalFrom n src ref inc = { s with net := s.net ++ [.signal ⟨if src = 0 then some n else none, ref, inc⟩] } := if_pos h

theorem State.signalFrom_route {s u : State} {n src : Nat} {ref : W64} {inc : Nat} (h : refChip ref ≠ s.position)
    (hu : s.sendScheduled src ((s.logicalOf n).getD 0) (refChip ref)
      (if src = 0 then .post ⟨(s.logicalOf n).getD 0, inc, ref⟩ else .signal ⟨(s.logicalOf n).getD 0, inc, ref⟩) = some u) :
    s.signalFrom n src ref inc = u := by
  unfold State.signalFrom
  rw [if_neg h]
  simp only [hu]

theorem State.signalFrom_noRoute {s : State} {n src : Nat} {ref : W64} {inc : Nat} (h : refChip ref ≠ s.position)
    (hu : s.sendScheduled src ((s.logicalOf n).getD 0) (refChip ref)
      (if src = 0 then .post ⟨(s.logicalOf n).getD 0, inc, ref⟩ else .signal ⟨(s.logicalOf n).getD 0, inc, ref⟩) = none) :
    s.signalFrom n src ref inc = s.modTile n fun t => { t with syncNoRoute := true } := by
  unfold State.signalFrom
  rw [if_neg h]
  simp only [hu]

theorem State.arriveFrom_own {s : State} {n chip index tag : Nat} (h : chip = s.position) :
    s.arriveFrom n chip index tag = { s with net := s.net ++ [.arrive (refGlobal chip index) tag] } := if_pos h

theorem State.arriveFrom_route {s u : State} {n chip index tag : Nat} (h : chip ≠ s.position)
    (hu : s.sendScheduled 1 ((s.logicalOf n).getD 0) chip (.arrive ⟨(s.logicalOf n).getD 0, tag, refGlobal chip index⟩) = some u) :
    s.arriveFrom n chip index tag = u := by
  unfold State.arriveFrom
  rw [if_neg h]
  simp only [hu]

theorem State.arriveFrom_noRoute {s : State} {n chip index tag : Nat} (h : chip ≠ s.position)
    (hu : s.sendScheduled 1 ((s.logicalOf n).getD 0) chip (.arrive ⟨(s.logicalOf n).getD 0, tag, refGlobal chip index⟩) = none) :
    s.arriveFrom n chip index tag = s.modTile n fun t => { t with syncNoRoute := true } := by
  unfold State.arriveFrom
  rw [if_neg h]
  simp only [hu]

theorem State.arrivePort_invalid {s : State} {n bp : Nat} (h : ((s.tile n).bp.get bp {}).valid = false) :
    s.arrivePort n bp = s.modTile n fun t => { t with bp := t.bp.set bp ((s.tile n).bp.get bp {}).arrived } :=
  if_neg fun hc => Bool.false_ne_true (h.symm.trans hc)

theorem State.arrivePort_valid {s : State} {n bp : Nat} (h : ((s.tile n).bp.get bp {}).valid = true) :
    s.arrivePort n bp = (s.modTile n fun t => { t with bp := t.bp.set bp ((s.tile n).bp.get bp {}).arrived }).arriveFrom n
      ((s.tile n).bp.get bp {}).chip ((s.tile n).bp.get bp {}).index ((s.tile n).bp.get bp {}).next.toNat :=
  if_pos h

/-- Settles O32: a wait is one row cycle at the head of issue; `rsig` and `arrive` send as their route says. -/
theorem semaphoreResults : Obligations.SemaphoreResults := by
  unfold Obligations.SemaphoreResults
  refine ⟨fun n f s0 => ?waits, fun n f b s0 h => ?sends⟩
  case waits =>
    intro s t i k issued held
    refine ⟨fun h hk => ?_, fun h hk => ?_, fun h => ⟨(exec_issue (c := .sig n f) h rfl :), (exec_issue (c := .sdec n f) h rfl :)⟩⟩
    · have hc : decide (f.n.toNat ≤ (((s0.nextHold n).tile n).sem f.sem.toNat).value) = true := decide_eq_true hk
      exact ⟨congrArg Host.Outcome.next (State.syWait_modTile h hc), congrArg Host.Outcome.next (State.syWait_go h hc)⟩
    · have hc : decide (f.n.toNat ≤ (((s0.nextHold n).tile n).sem f.sem.toNat).value) = false := decide_eq_false (by exact Nat.not_le.mpr hk)
      exact ⟨congrArg Host.Outcome.next (State.syWait_hold h hc), congrArg Host.Outcome.next (State.syWait_hold h hc)⟩
  case sends =>
    intro s t ref l p s1 dest
    have hrsig : exec (.rsig n f) s0 = .next (if t.gp f.ga then s.ctrlPoison n else s.signalFrom n 1 ref f.n.toNat) :=
      (exec_issueS (c := .rsig n f) h rfl :)
    have harr : exec (.arrive n b) s0 = .next (s.arrivePort n b.bp.toNat) := (exec_issueS (c := .arrive n b) h rfl :)
    refine ⟨fun hp => ?_, fun hp hown => ?_, fun hp hne => ⟨fun hu => ?_, fun u hu => ?_⟩, fun hv => ?_, fun hv hown => ?_,
      fun hv hne => ⟨fun hu => ?_, fun u hu => ?_⟩⟩
    · rw [hrsig, if_pos hp]
    · rw [hrsig, if_neg (by simp [hp]), State.signalFrom_own hown]
      rfl
    · rw [hrsig, if_neg (by simp [hp]), State.signalFrom_noRoute hne hu]
      rfl
    · rw [hrsig, if_neg (by simp [hp]), State.signalFrom_route hne hu]
    · rw [harr, State.arrivePort_invalid hv]
      rfl
    · rw [harr, State.arrivePort_valid hv]
      exact congrArg Host.Outcome.next (State.arriveFrom_own hown)
    · rw [harr, State.arrivePort_valid hv]
      exact congrArg Host.Outcome.next (State.arriveFrom_noRoute hne hu)
    · rw [harr, State.arrivePort_valid hv]
      exact congrArg Host.Outcome.next (State.arriveFrom_route hne hu)

/-! ### Belay ports -/

/-- What is sent on the schedule waits at the ports. -/
theorem State.sendScheduled_ports {s s' : State} {src detail dest : Nat} {r : Rec} (h : s.sendScheduled src detail dest r = some s') :
    s' = { s with ports := s'.ports } := by
  have hall : ∀ u ∈ s.sendScheduled src detail dest r, u = { s with ports := u.ports } := by
    unfold State.sendScheduled
    split
    · exact fun u hu => by cases hu; rfl
    · split
      · split
        · exact fun u hu => by cases hu; rfl
        · exact fun u hu => absurd hu (by simp)
      · exact fun u hu => absurd hu (by simp)
  exact hall s' h

/-- An arrival without a route only sets SYNC_STATUS. -/
theorem State.tile_arriveFrom (s : State) (n chip index tag : Nat) :
    ∃ b, (s.arriveFrom n chip index tag).tile n = { s.tile n with syncNoRoute := b } := by
  by_cases hown : chip = s.position
  · rw [State.arriveFrom_own hown]
    exact ⟨_, rfl⟩
  · cases hu : s.sendScheduled 1 ((s.logicalOf n).getD 0) chip (.arrive ⟨(s.logicalOf n).getD 0, tag, refGlobal chip index⟩) with
    | none => rw [State.arriveFrom_noRoute hown hu, State.tile_modTile]; exact ⟨_, rfl⟩
    | some u =>
      rw [State.arriveFrom_route hown hu, State.sendScheduled_ports hu]
      exact ⟨_, rfl⟩

/-- An arrival of a port changes the port and, without a route, SYNC_STATUS. -/
theorem State.tile_arrivePort (s : State) (n bp : Nat) :
    ∃ p b, (s.arrivePort n bp).tile n = { s.tile n with bp := p, syncNoRoute := b } := by
  cases hv : ((s.tile n).bp.get bp {}).valid with
  | false => rw [State.arrivePort_invalid hv, State.tile_modTile]; exact ⟨_, _, rfl⟩
  | true =>
    rw [State.arrivePort_valid hv]
    obtain ⟨b, hb⟩ := State.tile_arriveFrom (s.modTile n fun t => { t with bp := t.bp.set bp ((s.tile n).bp.get bp {}).arrived }) n
      ((s.tile n).bp.get bp {}).chip ((s.tile n).bp.get bp {}).index ((s.tile n).bp.get bp {}).next.toNat
    rw [hb, State.tile_modTile]
    exact ⟨_, _, rfl⟩

/-- `belay`'s first row cycle: its port arrives. -/
def State.belayFirst (s : State) (n bp : Nat) : State := (s.arrivePort n bp).modTile n fun t => { t with belaySent := true }

theorem State.tile_belayFirst (s : State) (n bp : Nat) :
    ∃ p b, (s.belayFirst n bp).tile n = { s.tile n with bp := p, syncNoRoute := b, belaySent := true } := by
  obtain ⟨p, b, h⟩ := s.tile_arrivePort n bp
  rw [State.belayFirst, State.tile_modTile, h]
  exact ⟨p, b, rfl⟩

/-- The wait of `belay`: its issue arms the crossings. -/
def State.belayWait (s : State) (n bp : Nat) : State :=
  s.syWait n (fun t => (t.bp.get bp {}).released)
    (fun s => s.modTile n fun t => { t.armCrossings bp with belaySent := false }) id

theorem exec_belay_again {s : State} {n : Nat} {b : SyC} (h : (s.tile n).atHead = true) (hb : (s.tile n).belaySent = true) :
    exec (.belay n b) s = .next (s.belayWait n b.bp.toNat) := by
  change execBelay n b s = _
  unfold execBelay
  rw [if_pos h, if_pos hb]
  rfl

theorem exec_belay_first {s : State} {n : Nat} {b : SyC} (h : (s.tile n).atHead = true) (hb : (s.tile n).belaySent = false) :
    exec (.belay n b) s = .next ((s.belayFirst n b.bp.toNat).belayWait n b.bp.toNat) := by
  change execBelay n b s = _
  unfold execBelay
  rw [if_pos h, if_neg (by simp [hb])]
  rfl

/-- A bundle that does not hold begins no new row cycle. -/
theorem State.nextHold_fresh {s : State} {n : Nat} (h : (s.tile n).syHold = false) : s.nextHold n = s := if_neg (by simp [h])

/-- Settles O33: `belay` arrives in its first row cycle and is from then on the wait that `bwait` is. -/
theorem belayResults : Obligations.BelayResults := by
  unfold Obligations.BelayResults
  intro n b s0 h s t bp held armed
  refine ⟨fun hr => ?_, fun hr => ?_, fun hb hr => ?_, fun hb hr => ?_, fun hb hy => ?_⟩
  · exact congrArg Host.Outcome.next (State.syWait_modTile (cond := fun t => (t.bp.get b.bp.toNat {}).released) h hr)
  · exact congrArg Host.Outcome.next (State.syWait_hold (cond := fun t => (t.bp.get b.bp.toNat {}).released) h hr)
  · rw [exec_belay_again h hb]
    exact congrArg Host.Outcome.next (State.syWait_modTile (cond := fun t => (t.bp.get b.bp.toNat {}).released) h hr)
  · rw [exec_belay_again h hb]
    exact congrArg Host.Outcome.next (State.syWait_hold (cond := fun t => (t.bp.get b.bp.toNat {}).released) h hr)
  · intro s1 t1
    obtain ⟨p, nr, ht⟩ := s0.tile_belayFirst n bp
    have hhead : ((s0.belayFirst n bp).tile n).atHead = true := by rw [ht]; exact h
    have hfresh : (s0.belayFirst n bp).nextHold n = s0.belayFirst n bp := State.nextHold_fresh (by rw [ht]; exact hy)
    have ht1 : (s0.belayFirst n bp).tile n = t1 := State.tile_modTile (s0.arrivePort n bp) n _
    have hset : ∀ v, (s0.belayFirst n bp).setTile n v = s1.setTile n v := fun v => State.setTile_setTile s1 n t1 v
    rw [exec_belay_first h hb]
    refine ⟨fun hr => congrArg Host.Outcome.next ?_, fun hr => congrArg Host.Outcome.next ?_⟩
    · refine (State.syWait_hold (cond := fun t => (t.bp.get bp {}).released) hhead (by rw [hfresh, ht1]; exact hr)).trans ?_
      rw [hfresh, ht1, hset]
      rfl
    · refine (State.syWait_modTile (cond := fun t => (t.bp.get bp {}).released) hhead (by rw [hfresh, ht1]; exact hr)).trans ?_
      rw [hfresh, ht1, hset]
      rfl

/-! ### Receives -/

theorem SMap.get_upd_self {α : Type} (m : SMap α) (a : Nat) (d : α) (f : α → α) :
    SMap.get (SMap.upd m a d f) a d = f (SMap.get m a d) := SMap.get_set_self m a _ d

theorem SMap.get_upd_ne {α : Type} (m : SMap α) {a x : Nat} (d : α) (f : α → α) (h : x ≠ a) :
    SMap.get (SMap.upd m a d f) x d = SMap.get m x d := SMap.get_set_ne m _ d h

/-- Entries changed one after another, each once. -/
theorem SMap.get_foldl_upd {α : Type} (d : α) (f : α → α) (x : Nat) :
    ∀ (l : List Nat) (m : SMap α), l.Nodup →
      SMap.get (l.foldl (fun m a => SMap.upd m a d f) m) x d = if x ∈ l then f (SMap.get m x d) else SMap.get m x d
  | [], _, _ => rfl
  | a :: l, m, h => by
    obtain ⟨ha, hl⟩ := List.nodup_cons.mp h
    rw [List.foldl_cons, SMap.get_foldl_upd d f x l _ hl]
    by_cases hx : x = a
    · subst hx
      rw [if_neg ha, if_pos (List.mem_cons_self), SMap.get_upd_self]
    · rw [SMap.get_upd_ne m d f hx]
      simp [hx]

/-- Each selected channel counts the row cycle. -/
theorem Tile.ch_stallChans (t : Tile) (mask : BitVec 16) {c : Nat} (hc : c < 16) :
    (t.stallChans mask).ch.get c {} = if mask.getLsbD c = true then { t.ch.get c {} with recvStall := (t.ch.get c {}).recvStall + 1 }
      else t.ch.get c {} := by
  refine (SMap.get_foldl_upd {} _ c ((List.range 16).filter fun c => mask.getLsbD c) t.ch (List.nodup_range.filter _)).trans ?_
  simp [hc]

/-- Channel `c` is selected and holds a staged message. -/
def Tile.readyChan (t : Tile) (mask : BitVec 16) (c : Nat) : Bool := mask.getLsbD c && (t.ch.get c {}).staged.isSome

theorem Tile.readyChans_eq (t : Tile) (mask : BitVec 16) (r : Nat) :
    t.readyChans mask r = ((List.range 16).map fun k => (r + k) % 16).filter (t.readyChan mask) := rfl

theorem Tile.readyChans_nil {t : Tile} {mask : BitVec 16} (r : Nat) (h : ∀ c, c < 16 → t.readyChan mask c = false) :
    t.readyChans mask r = [] := by
  rw [t.readyChans_eq, List.filter_eq_nil_iff]
  intro c hc
  obtain ⟨k, -, rfl⟩ := List.mem_map.mp hc
  simp [h ((r + k) % 16) (Nat.mod_lt _ (by decide))]

/-- The search from channel `r` finds the ready channel that stands nearest to it. -/
theorem Tile.readyChans_head {t : Tile} {mask : BitVec 16} {c r : Nat} (hr : r < 16) (hc : c < 16) (hready : t.readyChan mask c = true)
    (hfirst : ∀ d, d < 16 → t.readyChan mask d = true → (c + 16 - r) % 16 ≤ (d + 16 - r) % 16) :
    ∃ l, t.readyChans mask r = c :: l := by
  have hhead : (t.readyChans mask r).head? = some c := by
    rw [t.readyChans_eq, List.head?_filter, List.find?_map, Option.map_eq_some_iff]
    refine ⟨(c + 16 - r) % 16, List.find?_range_eq_some.mpr ⟨?_, List.mem_range.mpr (Nat.mod_lt _ (by decide)), fun j hj => ?_⟩, ?_⟩
    · change t.readyChan mask ((r + (c + 16 - r) % 16) % 16) = true
      rw [show (r + (c + 16 - r) % 16) % 16 = c by omega]
      exact hready
    · change (!t.readyChan mask ((r + j) % 16)) = true
      by_contra hn
      have := hfirst ((r + j) % 16) (Nat.mod_lt _ (by decide)) (by simpa using hn)
      omega
    · omega
  cases hl : t.readyChans mask r with
  | nil => simp [hl] at hhead
  | cons d l =>
    rw [hl, List.head?_cons, Option.some.injEq] at hhead
    exact ⟨l, by rw [hhead]⟩

theorem Tile.rotation_eq (t : Tile) : t.rotation = (t.lastRecv).elim 0 fun c => (c + 1) % 16 := by
  unfold Tile.rotation
  cases t.lastRecv <;> rfl

theorem Tile.rotation_lt (t : Tile) : t.rotation < 16 := by
  unfold Tile.rotation
  split
  · exact Nat.mod_lt _ (by decide)
  · decide

/-- The message of a channel goes into registers and its entries back to the sender. -/
theorem State.receive_staged {s : State} {n c : Nat} {f : SyE} {m : Staged} (h : ((s.tile n).ch.get c {}).staged = some m) :
    s.receive n c f = (s.setTile n { s.tile n with
      flight := (s.tile n).flight ++ [⟨(s.tile n).cyc + 1, .v f.vd.toNat (m.data ++ List.replicate (128 - m.data.length) ⟨0, false⟩)⟩,
        ⟨(s.tile n).cyc + 1, .g f.gd.toNat (recvWord m c) false⟩],
      ch := (s.tile n).ch.set c { (s.tile n).ch.get c {} with
        staged := none, received := ((s.tile n).ch.get c {}).received + 1,
        rdPos := if ((s.tile n).ch.get c {}).size = 0 then 0 else (m.pos + m.len) % ((s.tile n).ch.get c {}).size } }).grant n c
      m.len := by
  unfold State.receive
  simp only [h, State.modTile, Tile.fly, List.append_assoc, List.cons_append, List.nil_append]

theorem Tile.readyChan_of_staged {t : Tile} {mask : BitVec 16} {c : Nat} {m : Staged} (hm : mask.getLsbD c = true)
    (h : (t.ch.get c {}).staged = some m) : t.readyChan mask c = true := by
  rw [Tile.readyChan, hm, h]
  rfl

theorem Tile.readyChan_iff {t : Tile} {mask : BitVec 16} {c : Nat} :
    t.readyChan mask c = true ↔ mask.getLsbD c = true ∧ (t.ch.get c {}).staged ≠ none := by
  simp [Tile.readyChan, Option.isSome_iff_ne_none]

/-- With a channel ready the receive issues. -/
theorem Tile.readyChans_ne_nil {t : Tile} {mask : BitVec 16} {c : Nat} (hc : c < 16) (h : t.readyChan mask c = true) :
    (!(t.readyChans mask 0).isEmpty) = true := by
  have hmem : c ∈ t.readyChans mask 0 := by
    rw [t.readyChans_eq, List.mem_filter]
    exact ⟨List.mem_map.mpr ⟨c, List.mem_range.mpr hc, by omega⟩, h⟩
  simpa using List.ne_nil_of_mem hmem

section
variable {n : Nat} {f : SyE} {s0 : State}

theorem exec_recv_none (h : (s0.tile n).atHead = true) (hnone : ((s0.nextHold n).tile n).readyChans f.mask 0 = []) :
    exec (.recv n f) s0 = .next ((s0.nextHold n).setTile n (((s0.nextHold n).tile n).stallChans f.mask).holdCycle) :=
  congrArg Host.Outcome.next (State.syWait_hold (cond := fun t => !(t.readyChans f.mask 0).isEmpty) h (by simp [hnone]))

theorem exec_recvR_none (h : (s0.tile n).atHead = true) (hnone : ((s0.nextHold n).tile n).readyChans f.mask 0 = []) :
    exec (.recvR n f) s0 = .next ((s0.nextHold n).setTile n (((s0.nextHold n).tile n).stallChans f.mask).holdCycle) :=
  congrArg Host.Outcome.next (State.syWait_hold (cond := fun t => !(t.readyChans f.mask 0).isEmpty) h (by simp [hnone]))

theorem exec_recv_some {c : Nat} {l : List Nat} (h : (s0.tile n).atHead = true)
    (hl : ((s0.nextHold n).tile n).readyChans f.mask 0 = c :: l) :
    exec (.recv n f) s0 = .next (((s0.nextHold n).modTile n Tile.release).receive n c f) := by
  have hsome : (((s0.nextHold n).modTile n Tile.release).tile n).readyChans f.mask 0 = c :: l := by
    rw [State.tile_modTile]
    exact hl
  refine congrArg Host.Outcome.next ((State.syWait_go (cond := fun t => !(t.readyChans f.mask 0).isEmpty) h (by simp [hl])).trans ?_)
  simp only [hsome]

theorem exec_recvR_some {c : Nat} {l : List Nat} (h : (s0.tile n).atHead = true)
    (hne : (!(((s0.nextHold n).tile n).readyChans f.mask 0).isEmpty) = true)
    (hl : ((s0.nextHold n).tile n).readyChans f.mask ((s0.nextHold n).tile n).rotation = c :: l) :
    exec (.recvR n f) s0 = .next ((((s0.nextHold n).modTile n Tile.release).receive n c f).modTile n
      fun t => { t with lastRecv := some c }) := by
  have hsome : (((s0.nextHold n).modTile n Tile.release).tile n).readyChans f.mask
      (((s0.nextHold n).modTile n Tile.release).tile n).rotation = c :: l := by
    rw [State.tile_modTile]
    exact hl
  refine congrArg Host.Outcome.next ((State.syWait_go (cond := fun t => !(t.readyChans f.mask 0).isEmpty) h hne).trans ?_)
  simp only [hsome]

end

/-- Settles O34: the nearest ready channel heads the search, and its message is what `State.receive` takes. -/
theorem receiveResults : Obligations.ReceiveResults := by
  unfold Obligations.ReceiveResults
  refine ⟨fun n f s0 h => ?receives, fun n c s => ?ring⟩
  case receives =>
    intro s t issued x takes first r held
    have htile : ((s0.nextHold n).modTile n Tile.release).tile n = issued := State.tile_modTile (s0.nextHold n) n _
    have htakes : ∀ c m, (x c).staged = some m → ((s0.nextHold n).modTile n Tile.release).receive n c f = takes c m := by
      intro c m hm
      refine (State.receive_staged (by rw [htile]; exact hm)).trans ?_
      rw [htile, State.modTile, State.setTile_setTile]
      rfl
    have hready : ∀ c m r, (x c).staged = some m → first c r → c < 16 ∧ t.readyChan f.mask c = true
        ∧ ∀ d, d < 16 → t.readyChan f.mask d = true → (c + 16 - r) % 16 ≤ (d + 16 - r) % 16 := by
      intro c m r hm ⟨hc, hmask, hmin⟩
      refine ⟨hc, Tile.readyChan_of_staged hmask hm, fun d hd hrd => ?_⟩
      obtain ⟨hmd, hsd⟩ := Tile.readyChan_iff.mp hrd
      exact hmin d hd hmd hsd
    refine ⟨fun c m hm hf => ?_, fun c m hm hf => ?_, fun hnone => ?_⟩
    · obtain ⟨hc, hrc, hmin⟩ := hready c m 0 hm hf
      obtain ⟨l, hl⟩ := Tile.readyChans_head (by decide) hc hrc hmin
      rw [exec_recv_some h hl, htakes c m hm]
    · obtain ⟨hc, hrc, hmin⟩ := hready c m r hm hf
      have hrot : t.rotation = r := t.rotation_eq
      obtain ⟨l, hl⟩ := Tile.readyChans_head t.rotation_lt hc hrc (hrot ▸ hmin)
      rw [exec_recvR_some h (Tile.readyChans_ne_nil hc hrc) hl, htakes c m hm]
      rfl
    · have hnil : t.readyChans f.mask 0 = [] := Tile.readyChans_nil 0 fun c hc => by
        by_contra hn
        obtain ⟨hmask, hs⟩ := Tile.readyChan_iff.mp (by simpa using hn)
        exact hs (hnone c hc hmask)
      exact ⟨exec_recv_none h hnil, exec_recvR_none h hnil, fun c hc => t.ch_stallChans f.mask hc⟩
  case ring =>
    intro t x
    refine ⟨fun p len q hh => ?_, fun p hh => ?_, fun p len hz hh => ?_⟩
    · intro a
      change execStageMessage n c s = _
      unfold execStageMessage
      simp only [show (s.tile n).ringHead c = _ from hh]
      rfl
    · change execPadSkip n c s = _
      unfold execPadSkip
      simp only [show (s.tile n).ringHead c = _ from hh]
      rfl
    · change execDuplicateSkip n c s = _
      unfold execDuplicateSkip
      simp only [show (s.tile n).ringHead c = _ from hh, show ((s.tile n).ch.get c {}).size ≠ 0 from hz, if_false]
      rfl

/-! ### What reaches a tile -/

theorem State.applySignal_discard {s : State} {ref : W64} {inc : Nat}
    (h : refClean ref = false ∨ 2 ≤ refKind ref ∨ (refKind ref = 0 ∧ s.physicalOf (refTile ref) = none)
      ∨ (refKind ref = 1 ∧ (s.gsem (refIndex ref)).mode ≠ .counter)) : s.applySignal ref inc = s.sigDiscard := by
  unfold State.applySignal
  cases hc : refClean ref with
  | false => rfl
  | true =>
    rcases h with hd | hd | ⟨hk, hd⟩ | ⟨hk, hd⟩
    · exact absurd hc (by simp [hd])
    · simp [show refKind ref ≠ 0 by omega, show refKind ref ≠ 1 by omega]
    · simp only [hk, hd, Bool.not_true, Bool.false_eq_true, if_false, if_true]
    · simp only [hk, hd, Bool.not_true, Bool.false_eq_true, if_false, if_true, one_ne_zero]

theorem State.applySignal_local {s : State} {ref : W64} {inc n : Nat} (hc : refClean ref = true) (hk : refKind ref = 0)
    (hn : s.physicalOf (refTile ref) = some n) :
    s.applySignal ref inc = s.modTile n fun t => t.semAdd (refIndex ref) inc := by
  unfold State.applySignal
  simp only [hc, hk, hn, Bool.not_true, Bool.false_eq_true, if_false, if_true]

theorem State.applySignal_counter {s : State} {ref : W64} {inc : Nat} (hc : refClean ref = true) (hk : refKind ref = 1)
    (hm : (s.gsem (refIndex ref)).mode = .counter) :
    s.applySignal ref inc = s.setGsem (refIndex ref) ((s.gsem (refIndex ref)).add inc) := by
  unfold State.applySignal
  simp only [hc, hk, hm, Bool.not_true, Bool.false_eq_true, if_false, if_true, one_ne_zero]

/-- A counter semaphore saturates. -/
theorem GSem.add_eq (g : GSem) (n : Nat) :
    g.add n = { g with value := Nat.min 0xFFFF (g.value + n), ovf := g.ovf || decide (0xFFFF < g.value + n) } := by
  unfold GSem.add
  by_cases h : 0xFFFF < g.value + n
  · rw [if_pos h, show Nat.min 0xFFFF (g.value + n) = 0xFFFF from Nat.min_eq_left (by omega), decide_eq_true h, Bool.or_true]
  · rw [if_neg h, show Nat.min 0xFFFF (g.value + n) = g.value + n from Nat.min_eq_right (by omega), decide_eq_false h, Bool.or_false]

/-- A signal goes to the tile or semaphore that its reference names, or is counted. -/
theorem State.signalDone (s : State) (ref : W64) (inc : Nat) : SignalDone s ref inc (s.applySignal ref inc) := by
  refine ⟨fun n hc hk hn => State.applySignal_local hc hk hn, fun hc hk hm => ?_, fun h => State.applySignal_discard h⟩
  rw [State.applySignal_counter hc hk hm, GSem.add_eq]

theorem State.belayArrive_discard {s : State} {ref : W64} {tag : Nat}
    (h : refClean ref = false ∨ refKind ref ≠ 1 ∨ (s.gsem (refIndex ref)).mode ≠ .belay) : s.belayArrive ref tag = s.sigDiscard :=
  if_pos (by simpa [or_assoc] using h)

theorem State.belayArrive_belay {s : State} {ref : W64} {tag : Nat} (hc : refClean ref = true) (hk : refKind ref = 1)
    (hm : (s.gsem (refIndex ref)).mode = .belay) :
    s.belayArrive ref tag = if (s.gsem (refIndex ref)).overrun then s
      else if BitVec.ofNat 2 tag = (s.gsem (refIndex ref)).gen then
        belayGo belayFuel (s.setGsem (refIndex ref) { s.gsem (refIndex ref) with value := (s.gsem (refIndex ref)).value + 1 })
          (.check (refIndex ref))
      else if BitVec.ofNat 2 tag = (s.gsem (refIndex ref)).gen + 1 then
        s.setGsem (refIndex ref) { s.gsem (refIndex ref) with nxt := (s.gsem (refIndex ref)).nxt + 1 }
      else s.setGsem (refIndex ref) { s.gsem (refIndex ref) with overrun := true } :=
  if_neg (by simp [hc, hk, hm])

@[simp] theorem State.gsem_setGsem (s : State) (i : Nat) (g : GSem) : (s.setGsem i g).gsem i = g := SMap.get_set_self s.gs i g {}

/-- A belay whose count is not reached, or that has forwarded, only counts. -/
theorem belayGo_check_waits {s : State} {i : Nat} (fuel : Nat) (h : (s.gsem i).value ≠ (s.gsem i).count ∨ (s.gsem i).fwd = true) :
    belayGo (fuel + 1) s (.check i) = s := by
  refine if_neg ?_
  rintro ⟨-, -, hf, hv, -⟩
  rcases h with h | h
  · exact h hv
  · simp [h] at hf

theorem generation_ne_next (g : BitVec 2) : g ≠ g + 1 := by decide +revert

/-- An arrival counts in its generation or the next, or overruns the belay. -/
theorem State.arrivalDone (s : State) (ref : W64) (tag : Nat) : ArrivalDone s ref tag (s.belayArrive ref tag) := by
  unfold ArrivalDone
  intro i g d
  refine ⟨fun h => State.belayArrive_discard h, fun hc hk hm => ⟨fun ho => ?_, fun ho => ⟨fun hd hw => ?_, fun hd _ _ => ?_, fun hd => ?_,
    fun hd hd' => ?_⟩⟩⟩
  · exact (State.belayArrive_belay hc hk hm).trans (if_pos ho)
  all_goals refine (State.belayArrive_belay hc hk hm).trans ((if_neg (by simp [show (s.gsem (refIndex ref)).overrun = false from ho])).trans ?_)
  · refine (if_pos hd).trans (belayGo_check_waits 63 ?_)
    rw [State.gsem_setGsem]
    exact hw
  · exact if_pos hd
  · refine (if_neg fun he => ?_).trans (if_pos hd)
    exact generation_ne_next _ (he.symm.trans hd)
  · exact (if_neg hd).trans (if_neg hd')

/-- How far a message's sequence number is ahead of the expected one, modulo 2^16. -/
def Chan.ahead (x : Chan) (m : InMsg) : Nat := (m.seq + 65536 - x.expSeq.toNat) % 65536

/-- The channel with a message listed. -/
def Chan.listed (x : Chan) (m : InMsg) : Chan :=
  let item : RingItem := if x.ahead m < 32768 then .message m.pos (m.data.length / 16) m.seq else .duplicate m.pos (m.data.length / 16)
  let x1 : Chan := { x with items := x.items ++ (if m.pad then [.pad m.w] else []) ++ [item] }
  if x.ahead m = 0 then { x1 with expSeq := x.expSeq + 1, delivered := x.delivered + 1 }
  else if x.ahead m < 32768 then { x1 with expSeq := BitVec.ofNat 16 (m.seq + 1), delivered := x.delivered + 1, seqGap := true }
  else { x1 with duplicates := x.duplicates + 1 }

/-- The tile with a message's data, its record and a pad's record in its scratchpad, and the message listed. -/
def Tile.landMsg (t : Tile) (x : Chan) (m : InMsg) : Tile :=
  let clean (l : List Byte) : List (Byte × Bool) := l.map fun b => (b, false)
  let t1 := if m.pad then
      t.landInbound (x.base + 64 * x.size + 8 * m.w) (clean (leBytes 8 (2 ^ 31 + (x.size - m.w - 1) % 4 * 2 ^ 32)))
    else t
  let t2 := t1.landInbound (x.base + 64 * m.pos) (gransBytes m.data)
  let t3 := t2.landInbound (x.base + 64 * x.size + 8 * m.pos)
    (clean (leBytes 8 (m.seq * 2 ^ 48 + (m.data.length / 16 - 1) * 2 ^ 32)))
  { t3 with ch := t3.ch.set m.ch (x.listed m) }

theorem State.deliver_nowhere {s : State} {m : InMsg} (h : s.physicalOf m.ltile = none) : s.deliver m = s.sigDiscard := by
  unfold State.deliver
  simp only [h]

theorem State.deliver_invalid {s : State} {m : InMsg} {n : Nat} (h : s.physicalOf m.ltile = some n)
    (hv : ((s.tile n).ch.get m.ch {}).valid = false) : s.deliver m = s.sigDiscard := by
  unfold State.deliver
  simp only [h]
  exact if_neg fun hc => Bool.false_ne_true (hv.symm.trans hc)

theorem State.deliver_valid {s : State} {m : InMsg} {n : Nat} (h : s.physicalOf m.ltile = some n)
    (hv : ((s.tile n).ch.get m.ch {}).valid = true) :
    s.deliver m = if 0 < ((s.tile n).ch.get m.ch {}).ahead m ∧ ((s.tile n).ch.get m.ch {}).ahead m < 32768
      then (s.modTile n fun t => t.landMsg ((s.tile n).ch.get m.ch {}) m).mark (.seqGap n m.ch) else s.modTile n fun t => t.landMsg ((s.tile n).ch.get m.ch {}) m := by
  unfold State.deliver
  simp only [h]
  refine (if_pos hv).trans (if_congr Iff.rfl ?_ ?_)
  · exact congrArg (fun f => (s.modTile n f).mark (.seqGap n m.ch)) rfl
  · exact congrArg (s.modTile n) rfl

theorem Chan.items_listed (x : Chan) (m : InMsg) :
    (x.listed m).items = x.items ++ (if m.pad = true then [.pad m.w] else [])
      ++ [if 32768 ≤ x.ahead m then .duplicate m.pos (m.data.length / 16) else .message m.pos (m.data.length / 16) m.seq] := by
  have hitem : (if x.ahead m < 32768 then RingItem.message m.pos (m.data.length / 16) m.seq
        else RingItem.duplicate m.pos (m.data.length / 16))
      = if 32768 ≤ x.ahead m then .duplicate m.pos (m.data.length / 16) else .message m.pos (m.data.length / 16) m.seq := by
    by_cases h : x.ahead m < 32768
    · rw [if_pos h, if_neg (by omega)]
    · rw [if_neg h, if_pos (by omega)]
  rw [← hitem]
  unfold Chan.listed
  dsimp only
  split
  · rfl
  · split <;> rfl

theorem Chan.listed_late {x : Chan} {m : InMsg} (h : 32768 ≤ x.ahead m) :
    (x.listed m).expSeq = x.expSeq ∧ (x.listed m).duplicates = x.duplicates + 1 := by
  unfold Chan.listed
  rw [if_neg (show x.ahead m ≠ 0 by omega), if_neg (show ¬ x.ahead m < 32768 by omega)]
  exact ⟨rfl, rfl⟩

/-- The next expected number is the one after a message that is not late. -/
theorem Chan.listed_next {x : Chan} {m : InMsg} (h : ¬ 32768 ≤ x.ahead m) :
    (x.listed m).expSeq = BitVec.ofNat 16 (m.seq + 1) ∧ (x.listed m).delivered = x.delivered + 1 := by
  unfold Chan.listed
  by_cases h0 : x.ahead m = 0
  · rw [if_pos h0]
    refine ⟨?_, rfl⟩
    have hx := x.expSeq.isLt
    unfold Chan.ahead at h0
    apply BitVec.eq_of_toNat_eq
    simp only [BitVec.toNat_add, BitVec.toNat_ofNat, show (1 : BitVec 16).toNat = 1 from rfl]
    omega
  · rw [if_neg h0, if_pos (show x.ahead m < 32768 by omega)]
    exact ⟨rfl, rfl⟩

theorem Tile.ch_landMsg (t : Tile) (x : Chan) (m : InMsg) : (t.landMsg x m).ch.get m.ch {} = x.listed m := by
  unfold Tile.landMsg
  exact SMap.get_set_self _ m.ch (x.listed m) {}

/-- A message reaches its channel, or is counted. -/
theorem State.messageDone (s : State) (m : InMsg) : MessageDone s m (s.deliver m) := by
  unfold MessageDone
  refine ⟨State.deliver_nowhere, fun n h hv => State.deliver_invalid h hv, fun n h hv => ?_⟩
  have htiles : ∃ r, s.deliver m = { s.modTile n fun t => t.landMsg ((s.tile n).ch.get m.ch {}) m with reportsOut := r } := by
    rw [State.deliver_valid h hv]
    split <;> exact ⟨_, rfl⟩
  obtain ⟨r, hr⟩ := htiles
  have htile : (s.deliver m).tile n = (s.tile n).landMsg ((s.tile n).ch.get m.ch {}) m := by
    rw [hr]
    exact (State.tile_modTile s n fun t => t.landMsg ((s.tile n).ch.get m.ch {}) m :)
  intro x y len late clean sp padded
  have hy : y = x.listed m := (congrArg (fun t : Tile => t.ch.get m.ch {}) htile).trans ((s.tile n).ch_landMsg x m)
  refine ⟨?_, ?_, fun hl => ?_, fun hl => ?_, ?_, fun k hk => ?_⟩
  · rw [htile]
    cases hp : m.pad <;> simp only [padded, Tile.landMsg, hp] <;> rfl
  · rw [hy]
    exact x.items_listed m
  · rw [hy]
    exact Chan.listed_late hl
  · rw [hy]
    exact Chan.listed_next hl
  · rw [hr]
    rfl
  · rw [hr]
    exact State.tile_modTile_ne s (fun t => t.landMsg ((s.tile n).ch.get m.ch {}) m) hk

/-- Settles O35: each packet acts on the state without it, where nothing of its stream is before it. -/
theorem inboundResults : Obligations.InboundResults := by
  unfold Obligations.InboundResults
  refine ⟨fun s => ⟨fun w h => ?_, fun r h => ?_, fun ref tag => ?_, fun m h => ?_⟩, fun ref inc s => s.signalDone ref inc⟩
  · exact congrArg Host.Outcome.next (if_pos h)
  · exact ⟨_, congrArg Host.Outcome.next (if_pos h), State.signalDone _ r.ref r.inc⟩
  · exact ⟨_, rfl, State.arrivalDone _ ref tag⟩
  · exact ⟨_, congrArg Host.Outcome.next (if_pos h), State.messageDone _ m⟩

end Sys2Proof.Machine
end


section
/-! The end of a bundle and the states of a tile (03_tile_bundles.md, 05_scratchpad_streams.md, 08_clocks_time.md). -/

namespace Sys2Proof.Machine

open Sys2Proof

/-! ### Effects that fall due -/

/-- What of a tile only time moves: its stall and the cycles it has served, its issue cycle, and the slots that have
issued. -/
def Tile.pace (t : Tile) : Nat × W64 × Nat × List BSlot := (t.bankHold, t.holdBank, t.cyc, t.used)

theorem Tile.pace_detect (t : Tile) (ds : Detections) : (t.detect ds).pace = t.pace := by cases ds <;> rfl

theorem Tile.pace_apply (t : Tile) (e : Effect) : (t.apply e).1.pace = t.pace := by
  cases e with
  | g r v p =>
    change Tile.pace (if r = 0 then t else { t with g := t.g.set r ⟨v, p⟩ }) = t.pace
    split <;> rfl
  | spad addr data => exact Tile.pace_detect _ _
  | v | k | f | lcCount | lcIndex | accStream | accMul | accClear | fillRead | fillSwitch | bankWrite => rfl

theorem Tile.pace_applyAll (t : Tile) (es : List InFlight) : (t.applyAll es).1.pace = t.pace := by
  suffices ∀ acc : Tile × Detections, (es.foldl (fun (acc : Tile × Detections) e =>
      ((acc.1.apply e.eff).1, acc.2 ++ (acc.1.apply e.eff).2)) acc).1.pace = acc.1.pace from this (t, [])
  induction es with
  | nil => intro acc; rfl
  | cons e es ih =>
    intro acc
    rw [List.foldl_cons, ih]
    exact acc.1.pace_apply e.eff

theorem Tile.pace_moveOn (t : Tile) : t.moveOn.pace = t.pace := by
  unfold Tile.moveOn
  split <;> rfl

/-- The next issue cycle. -/
theorem Tile.pace_advance (t : Tile) : t.advance.1.pace = (t.bankHold, t.holdBank, t.cyc + 1, []) :=
  (Tile.pace_moveOn _).trans (Tile.pace_applyAll _ _)

/-! ### The end of an issue cycle -/

/-- The tile once its fill reads of the cycle have run and its row cycle has ended. -/
def Tile.filled (t : Tile) (tables : SMap (List Byte)) : Tile :=
  (if (t.runFills tables).1.bubble then (t.runFills tables).1
    else { (t.runFills tables).1 with lastPc := (t.runFills tables).1.pc }).endRow

/-- The words it asks of its banks keep it from moving on for this many cycles. -/
def Tile.stall (t : Tile) : Nat := stallCycles t.hash t.reqR t.reqW

theorem Tile.endCycle_stalled {t : Tile} {tables : SMap (List Byte)} (h : (t.filled tables).stall ≠ 0) :
    (t.endCycle tables).1 = { t.filled tables with bankHold := (t.filled tables).stall } := by
  unfold Tile.endCycle
  unfold Tile.filled Tile.stall at h ⊢
  generalize t.runFills tables = r at h ⊢
  exact congrArg Prod.fst (if_neg h)

theorem Tile.endCycle_moves {t : Tile} {tables : SMap (List Byte)} (h : (t.filled tables).stall = 0) :
    (t.endCycle tables).1 = (t.filled tables).advance.1 := by
  unfold Tile.endCycle
  unfold Tile.filled Tile.stall at h
  unfold Tile.filled
  generalize t.runFills tables = r at h ⊢
  exact (congrArg Prod.fst (if_pos h)).trans rfl

/-- Each detection only adds a report. -/
theorem State.markGrans_eq (s : State) (n : Nat) (ds : Detections) : ∃ r, s.markGrans n ds = { s with reportsOut := r } :=
  ⟨_, State.foldl_keep (fun u => { u with reportsOut := (s.markGrans n ds).reportsOut }) (fun s a => s.mark (.granule n a))
    (fun _ _ => rfl) ds s⟩

/-- A tile's end of cycle is about the tile and its reports. -/
theorem State.setTile_markGrans (s : State) (n : Nat) (t : Tile) (ds : Detections) :
    let u := (s.setTile n t).markGrans n ds
    u = { s with tiles := u.tiles, reportsOut := u.reportsOut } ∧ (∀ m, m ≠ n → u.tile m = s.tile m) ∧ u.tile n = t := by
  intro u
  obtain ⟨r, hr⟩ := (s.setTile n t).markGrans_eq n ds
  refine ⟨?_, fun m hm => ?_, ?_⟩
  · change (s.setTile n t).markGrans n ds = _
    simp only [u, hr]
    rfl
  · exact (State.tile_markGrans _ n ds m).trans (State.tile_setTile_ne s t hm)
  · exact (State.tile_markGrans _ n ds n).trans (State.tile_setTile s n t)

theorem exec_pipelineWriteback {n : Nat} {s : State} (h : (s.tile n).inIssue = true) :
    exec (.pipelineWriteback n) s
      = .next ((s.setTile n ((s.tile n).endCycle s.formats).1).markGrans n ((s.tile n).endCycle s.formats).2) :=
  congrArg Host.Outcome.next (if_pos h)

/-- The tile with its stall served. -/
def Tile.served (t : Tile) : Tile := { t with holdBank := t.holdBank + BitVec.ofNat 64 t.bankHold, bankHold := 0 }

theorem exec_bankStallEnd {n : Nat} {s : State} (h : 0 < (s.tile n).bankHold) :
    exec (.bankStallEnd n) s = .next ((s.setTile n (s.tile n).served.advance.1).markGrans n (s.tile n).served.advance.2) :=
  congrArg Host.Outcome.next (if_pos h)

/-- The LEND marks of a bundle, acted on. -/
theorem exec_loopEnd {n : Nat} {lend : BitVec 4} {s0 : State} (h : s0.mayIssue n .lend = true) :
    exec (.loopEnd n lend) s0 = .next ((s0.take n .lend).modTile n fun t =>
      match lendGo t lend t.loops with
      | (ls, none) => { t with loops := ls }
      | (ls, some (l, i, start)) => { t.fly 1 (.lcIndex l i) with ctl := .back (BitVec.ofNat 12 start), loops := ls }) :=
  congrArg Host.Outcome.next (if_pos h)

/-- Settles O36: the cycle ends in a stall or in the next issue cycle, and a stall served ends in the next one too. -/
theorem bundleEndResults : Obligations.BundleEndResults := by
  unfold Obligations.BundleEndResults
  refine fun n lend s0 => ⟨fun h => (exec_issue (c := .stop n) h rfl :), fun h => ?_, fun h => ?_, fun h => ?_⟩
  · intro s t
    refine ⟨fun ls hl => ?_, fun ls l i a hl => ?_⟩
    all_goals
      rw [exec_loopEnd h]
      refine congrArg (fun v => Host.Outcome.next (s.setTile n v)) ?_
      simp only [show lendGo ((s0.take n .lend).tile n) lend ((s0.take n .lend).tile n).loops = _ from hl]
      rfl
  · intro t0 t1 stall due rest t2
    obtain ⟨heq, hother, htile⟩ :=
      s0.setTile_markGrans n ((s0.tile n).endCycle s0.formats).1 ((s0.tile n).endCycle s0.formats).2
    exact ⟨_, exec_pipelineWriteback h, heq, hother, fun hs => htile.trans (Tile.endCycle_stalled hs),
      fun hs => htile.trans (Tile.endCycle_moves hs)⟩
  · intro t
    obtain ⟨heq, hother, htile⟩ := s0.setTile_markGrans n t.served.advance.1 t.served.advance.2
    obtain ⟨hhold, hbank, hcyc, hused⟩ : _ ∧ _ ∧ _ ∧ _ := by simpa only [Tile.pace, Prod.mk.injEq] using t.served.pace_advance
    exact ⟨_, exec_bankStallEnd h, heq, hother, by rw [htile, hhold]; rfl, by rw [htile, hbank]; rfl, by rw [htile, hcyc]; rfl,
      by rw [htile, hused]⟩

/-! ### FAULT -/

/-- What a tile that faults becomes. -/
def Tile.faulted (f t : Tile) : Tile :=
  { f.endRow with
    st := .fault, syHold := false, bHold := false,
    stq := t.stq.map fun c => { c with waiting := 0, fresh := false } }

theorem State.tile_tileFaults (s : State) (n : Nat) (f : Tile → Tile) :
    (s.tileFaults n f).tile n = (f (s.tile n)).faulted (s.tile n) := State.tile_setTile s n _

theorem State.tile_tileFaults_ne (s : State) {n m : Nat} (f : Tile → Tile) (h : m ≠ n) : (s.tileFaults n f).tile m = s.tile m :=
  State.tile_setTile_ne s _ h

theorem exec_waitWatchdog {n : Nat} {toll : Bool} {s : State} (hw : (s.tile n).wdogDue toll = true) (hf : (s.tile n).st ≠ .fault) :
    exec (.waitWatchdog n toll) s = .next (s.tileFaults n fun t =>
      { t with lastPc := t.pc, syncWdogToll := t.syncWdogToll || toll, syncWdogSy := t.syncWdogSy || !toll }) :=
  congrArg Host.Outcome.next (if_pos ⟨hw, hf⟩)

theorem exec_imemParity {n : Nat} {s : State} (hs : (s.tile n).st = .run) (hb : (s.tile n).bubble = false) :
    exec (.imemParity n) s = .next (s.tileFaults n fun t =>
      { t with imemParity := true, imemBad := t.imemBad.mark (t.half.toNat * 4096 + t.pc.toNat) true }) :=
  congrArg Host.Outcome.next (if_pos ⟨hs, by simp [hb]⟩)

/-! ### The boundary watchdog -/

/-- The queues at which a hold waits are stuck. -/
def State.stickQueues (s : State) (hs : List BHold) : State :=
  { s with bqs := hs.foldl (fun b (h : BHold) => b.upd (bqKey h.pair h.dir) {} fun q => { q with stuck := true }) s.bqs }

/-- A tile that holds at a boundary faults where it stands. -/
def Tile.boundaryFault (t : Tile) : Tile := ({ t with lastPc := t.pc } : Tile).faulted t

theorem State.tile_boundaryFault (s : State) (n : Nat) :
    (s.tileFaults n fun t => { t with lastPc := t.pc }).tile n = (s.tile n).boundaryFault := State.tile_tileFaults s n _

/-- A tile faults where it holds at a boundary. -/
def State.faultHeld (s : State) (n : Nat) : State := if (s.tile n).bHold then s.tileFaults n fun t => { t with lastPc := t.pc } else s

theorem State.tile_faultHeld (s : State) (m k : Nat) :
    (s.faultHeld m).tile k = if k = m then (fun t : Tile => if t.bHold = true then t.boundaryFault else t) (s.tile k) else s.tile k := by
  unfold State.faultHeld
  by_cases hk : k = m
  · subst hk
    cases hb : (s.tile k).bHold
    · simp [hb]
    · rw [if_pos rfl, State.tile_boundaryFault]
      simp only [hb, if_true]
  · rw [if_neg hk]
    split
    · exact State.tile_tileFaults_ne s _ hk
    · rfl

/-- The tiles of a row that hold at a boundary fault. -/
def State.faultRow (s : State) (r : Nat) : State := (rowTiles r).foldl State.faultHeld s

theorem State.tile_faultRow (s : State) (r m : Nat) :
    (s.faultRow r).tile m = if m / 25 = r ∧ (s.tile m).bHold = true then (s.tile m).boundaryFault else s.tile m := by
  refine (State.tile_foldl (G := fun t => if t.bHold = true then t.boundaryFault else t) State.tile_faultHeld (rowTiles r) (nodup_rowTiles r) s m).trans ?_
  simp only [mem_rowTiles]
  by_cases h : m / 25 = r <;> simp [h]

theorem State.faultRow_keep {α : Type} (g : State → α) (hg : ∀ (s : State) t f, g { s with tiles := t, faultsOut := f } = g s)
    (s : State) (r : Nat) : g (s.faultRow r) = g s := by
  refine State.foldl_keep g State.faultHeld (fun u n => ?_) (rowTiles r) s
  unfold State.faultHeld
  split
  · exact hg u _ _
  · rfl

/-- Two states that agree but for tiles and the faults to tell of. -/
theorem State.eq_of_keep_tiles {s u : State}
    (h : ∀ g : State → State, (∀ (s : State) t f, g { s with tiles := t, faultsOut := f } = g s) → g u = g s) :
    ∃ t f, u = { s with tiles := t, faultsOut := f } :=
  ⟨u.tiles, u.faultsOut, h (fun v => { v with tiles := u.tiles, faultsOut := u.faultsOut }) fun _ _ _ => rfl⟩

theorem State.faultRow_eq (s : State) (r : Nat) : ∃ t f, s.faultRow r = { s with tiles := t, faultsOut := f } :=
  State.eq_of_keep_tiles fun g hg => State.faultRow_keep g hg s r

/-- A queue once stuck stays so. -/
theorem stuck_upd {b : SMap BQueue} {a k : Nat} (h : a = k ∨ (b.get k {}).stuck = true) :
    ((b.upd a {} fun q => { q with stuck := true }).get k {}).stuck = true := by
  by_cases hk : k = a
  · subst hk
    rw [SMap.get_upd_self]
  · rw [SMap.get_upd_ne b {} _ hk]
    exact h.resolve_left (Ne.symm hk)

theorem stuck_foldl (k : Nat) (hs : List BHold) : ∀ b : SMap BQueue,
    ((b.get k {}).stuck = true ∨ ∃ h ∈ hs, bqKey h.pair h.dir = k) →
    ((hs.foldl (fun b (h : BHold) => b.upd (bqKey h.pair h.dir) {} fun q => { q with stuck := true }) b).get k {}).stuck = true := by
  induction hs with
  | nil => exact fun _ hk => hk.resolve_right (by simp)
  | cons a l ih =>
    intro b hk
    refine ih _ ?_
    rcases hk with hk | ⟨h, hmem, hk⟩
    · exact .inl (stuck_upd (.inr hk))
    · rcases List.mem_cons.mp hmem with rfl | hl
      · exact .inl (stuck_upd (.inl hk))
      · exact .inr ⟨h, hl, hk⟩

/-- The row's hold ends in FAULT. -/
def State.watchdogRow (s : State) (r : Nat) : State :=
  ((s.stickQueues ((s.row r).holds.filter s.notReady)).faultRow r).modRow r fun w => { w with holds := [], holdCount := 0 }

theorem State.holds_watchdogRow (s : State) (r : Nat) : ((s.watchdogRow r).row r).holds = [] :=
  congrArg Row.holds (State.row_modRow _ r _)

theorem State.holdCount_watchdogRow (s : State) (r : Nat) : ((s.watchdogRow r).row r).holdCount = 0 :=
  congrArg Row.holdCount (State.row_modRow _ r _)

theorem State.watchdogRow_eq (s : State) (r : Nat) : ∃ t w b f,
    s.watchdogRow r = { s with tiles := t, rows := w, bqs := b, faultsOut := f } := by
  obtain ⟨t, f, h⟩ := (s.stickQueues ((s.row r).holds.filter s.notReady)).faultRow_eq r
  unfold State.watchdogRow
  rw [h]
  exact ⟨_, _, _, _, rfl⟩

theorem State.tile_watchdogRow (s : State) (r m : Nat) :
    (s.watchdogRow r).tile m = if m / 25 = r ∧ (s.tile m).bHold = true then (s.tile m).boundaryFault else s.tile m := by
  unfold State.watchdogRow
  rw [State.tile, State.modRow_tiles]
  exact State.tile_faultRow (s.stickQueues ((s.row r).holds.filter s.notReady)) r m

theorem State.stuck_watchdogRow (s : State) {r : Nat} {h : BHold} (hmem : h ∈ (s.row r).holds) (hn : s.notReady h = true) :
    ((s.watchdogRow r).bq (2 * h.pair + h.dir)).stuck = true := by
  obtain ⟨t, f, heq⟩ := (s.stickQueues ((s.row r).holds.filter s.notReady)).faultRow_eq r
  unfold State.watchdogRow
  rw [heq]
  exact stuck_foldl (2 * h.pair + h.dir) _ s.bqs (.inr ⟨h, List.mem_filter.mpr ⟨hmem, hn⟩, rfl⟩)

theorem exec_boundaryWatchdog {r : Nat} {s : State} {m : Image} (hm : s.image = some m) (hh : (s.row r).holds ≠ []) (h0 : m.wdog ≠ 0)
    (hc : 2 ^ m.wdog ≤ (s.row r).holdCount) : exec (.boundaryWatchdog r) s = .next (s.watchdogRow r) := by
  change execBoundaryWatchdog r s = _
  unfold execBoundaryWatchdog
  split
  · next m' hm' =>
    obtain rfl : m = m' := Option.some.inj (hm.symm.trans hm')
    exact congrArg Host.Outcome.next (if_pos (And.intro (by simpa using hh) (And.intro h0 hc)))
  · next hn => exact absurd (hm.symm.trans hn) (by simp)

/-- A tile that has stopped with nothing in flight, and the row it is in does not hold. -/
theorem exec_tileDone {n : Nat} {s : State} (hd : (s.tile n).drained = true) (hb : (s.tile n).bHold = false) :
    exec (.tileDone n) s = .next (if (s.tile n).ldq.isEmpty ∧ (s.tile n).stq.isEmpty then
        if (s.modTile n fun t => { t.endRow with st := .done }).dev = .running ∧ (s.modTile n fun t => { t.endRow with st := .done }).allDone
        then (s.modTile n fun t => { t.endRow with st := .done }).enter .halted .done (s.modTile n fun t => { t.endRow with st := .done }).step
        else s.modTile n fun t => { t.endRow with st := .done }
      else s.modTile n fun t => { t.endRow with st := .hold, holdWait := t.holdWait + 1 }) :=
  congrArg Host.Outcome.next (if_pos ⟨hd, by simp [hb]⟩)

/-- Settles O37: done, hold or fault as the tile stands; an endpoint moves on from the state of its handshake. -/
theorem tileStateResults : Obligations.TileStateResults := by
  unfold Obligations.TileStateResults
  refine ⟨fun n toll s => ?tiles, fun e s => ?endpoints⟩
  case tiles =>
    intro t ended faulted
    have hfault : ∀ (c : Instr) (f : Tile → Tile) (p : Tile → Prop), exec c s = .next (s.tileFaults n f) →
        p ((f t).faulted t) → faulted c p := fun c f p hc hp =>
      ⟨_, hc, by rw [State.tile_tileFaults]; rfl, by rw [State.tile_tileFaults]; exact hp, rfl, rfl,
        fun m hm => State.tile_tileFaults_ne s f hm⟩
    refine ⟨fun hd hb hl hs => ⟨fun hn => ?_, fun hr ha => ?_⟩, fun hd hb hq => ?_, fun hs hb => ?_, fun hw hf => ?_,
      fun r m hm hh h0 hc => ?_⟩
    · rw [exec_tileDone hd hb, if_pos ⟨by simpa using hl, by simpa using hs⟩, if_neg]
      · rfl
      · rintro ⟨hr, ha⟩
        rcases hn with hn | hn
        · exact hn hr
        · exact Bool.false_ne_true (hn.symm.trans ha)
    · rw [exec_tileDone hd hb, if_pos ⟨by simpa using hl, by simpa using hs⟩]
      exact congrArg Host.Outcome.next (if_pos ⟨hr, ha⟩)
    · rw [exec_tileDone hd hb, if_neg]
      · rfl
      · rintro ⟨hl, hs⟩
        rcases hq with hq | hq
        · exact hq (by simpa using hl)
        · exact hq (by simpa using hs)
    · exact hfault _ _ (fun u => u.shown.imemParity = true) (exec_imemParity hs hb) rfl
    · refine hfault _ _ (fun u => u.lastPc = t.pc ∧ u.shown.syncWdogToll = (t.shown.syncWdogToll || toll)
        ∧ u.shown.syncWdogSy = (t.shown.syncWdogSy || !toll)) (exec_waitWatchdog hw hf) ⟨rfl, ?_, ?_⟩
      · exact Bool.or_right_comm _ _ _
      · exact Bool.or_right_comm _ _ _
    · have hw : ∀ k, _ := fun k => s.tile_watchdogRow r k
      refine ⟨_, exec_boundaryWatchdog hm hh h0 hc, s.holds_watchdogRow r, s.holdCount_watchdogRow r, fun h => s.stuck_watchdogRow,
        ?_, fun k hk => ?_, fun k hk => ⟨fun hb => ?_, fun hb => ?_⟩⟩
      · obtain ⟨t, w, b, f, hu⟩ := s.watchdogRow_eq r
        rw [hu]
      · exact (hw k).trans (if_neg fun hc => hk hc.1)
      · exact congrArg Tile.st ((hw _).trans (if_pos ⟨by omega, hb⟩))
      · exact (hw _).trans (if_neg fun hc => Bool.false_ne_true (hb.symm.trans hc.2))
  case endpoints =>
    intro x
    refine ⟨fun h => congrArg Host.Outcome.next (if_pos h), fun h => congrArg Host.Outcome.next (if_pos h),
      fun h => ⟨congrArg Host.Outcome.next (if_pos h), ?_⟩, fun h => congrArg Host.Outcome.next (if_pos h)⟩
    exact congrArg Host.Outcome.next ((if_neg fun hd => by rw [h] at hd; cases hd).trans (if_pos h))

end Sys2Proof.Machine
end


section
/-! Caravan links (09_caravan.md). -/

namespace Sys2Proof.Machine

open Sys2Proof

/-! ### A port and the others -/

@[simp] theorem State.port_modPort (s : State) (p : Nat) (f : CvPort → CvPort) : (s.modPort p f).port p = f (s.port p) :=
  SMap.get_set_self s.ports p _ {}

theorem State.port_modPort_ne (s : State) {p q : Nat} (f : CvPort → CvPort) (h : q ≠ p) : (s.modPort p f).port q = s.port q :=
  SMap.get_set_ne s.ports _ {} h

theorem State.modPort_modPort (s : State) (p : Nat) (f g : CvPort → CvPort) :
    (s.modPort p f).modPort p g = s.modPort p fun x => g (f x) := by
  rw [State.modPort, State.port_modPort]
  unfold State.modPort
  simp only [SMap.set_set]

/-- Two changes of a port that give the same port. -/
theorem State.modPort_congr {s : State} {p : Nat} {f g : CvPort → CvPort} (h : f (s.port p) = g (s.port p)) :
    s.modPort p f = s.modPort p g := by
  unfold State.modPort
  rw [h]

/-! ### Bringing a link up and down -/

section
variable {p : Nat} {s : State}

/-- A command that changes a port only where its condition holds. -/
theorem State.modPort_if {c : CvPort → Prop} [DecidablePred c] {f : CvPort → CvPort} (h : c (s.port p)) :
    (s.modPort p fun x => if c x then f x else x) = s.modPort p f :=
  State.modPort_congr (if_pos h)

theorem exec_portDisable_up (h : (s.port p).st = .up) :
    exec (.portDisable p) s = .next ((s.modPort p fun x => { x with enable := false }).leaveUp p .down) :=
  congrArg Host.Outcome.next (if_pos ((congrArg CvPort.st (State.port_modPort s p fun x => { x with enable := false })).trans h))

theorem exec_portDisable_notUp (h : (s.port p).st ≠ .up) :
    exec (.portDisable p) s = .next (s.modPort p fun x => { ({ x with enable := false } : CvPort).unlink with st := .down }) := by
  refine congrArg Host.Outcome.next ((if_neg fun hu => h ?_).trans (State.modPort_modPort s p _ _))
  exact (congrArg CvPort.st (State.port_modPort s p fun x => { x with enable := false })).symm.trans hu

/-- A capability flit with the magic number reaches a port in CAPS. -/
theorem exec_capabilityFlit_noImage {c : CapFlit} (hs : (s.port p).st = .caps) (hm : c.magicOk = true) (h1 : c.minver ≤ 1)
    (h2 : 1 ≤ c.maxver) (hi : s.image = none) :
    exec (.capabilityFlit p c) s = .next (s.modPort p fun x =>
      { x with st := .align, pVersion := 1, pPort := c.port, pRole := c.role, pId := c.id, pImageTag := c.imageTag }) := by
  change execCapabilityFlit p c s = _
  unfold execCapabilityFlit
  simp only [hs, hm, h1, h2, hi, Option.isSome_none, Bool.false_and, Bool.not_true, ne_eq, not_true_eq_false, or_self, if_false,
    and_self, Bool.or_false, Bool.false_eq_true]

theorem exec_capabilityFlit_version {c : CapFlit} (hs : (s.port p).st = .caps) (hm : c.magicOk = true)
    (hv : ¬ (c.minver ≤ 1 ∧ 1 ≤ c.maxver)) :
    exec (.capabilityFlit p c) s = .next (s.modPort p fun x => { x with st := .down, retryWait := true, errCap := true }) := by
  refine congrArg Host.Outcome.next ((if_neg ?_).trans (if_pos hv))
  simp [hs, hm]

theorem exec_alignComplete_up {rtt : Nat} (hs : (s.port p).st = .align) (hr : rtt ≤ 640) :
    exec (.alignComplete p rtt) s = .next ((s.modPort p fun x =>
      { x with
        st := .up, rtt := rtt, lastGood := s.cv.slotCount, tbl := s.cv.tbl, alt := s.cv.alt, open_ := s.cv.open_,
        cur := none, previous := none, prevOpen := false, taken := [], missing := [], reorder := [], groups := [],
        wraps := [] }).linkEvent 0 p 1) :=
  congrArg Host.Outcome.next ((if_neg (not_not_intro hs)).trans (if_neg (Nat.not_lt.mpr hr)))

theorem exec_alignComplete_long {rtt : Nat} (hs : (s.port p).st = .align) (hr : 640 < rtt) :
    exec (.alignComplete p rtt) s = .next (s.modPort p fun x => { x with st := .down, retryWait := true, errCable := true }) :=
  congrArg Host.Outcome.next ((if_neg (not_not_intro hs)).trans (if_pos hr))

theorem exec_portWatchdog_fires {m : Nat} (hm : (s.port p).wdogSlots = some m) (hs : (s.port p).st = .up)
    (hg : (s.port p).lastGood + m ≤ s.cv.slotCount) :
    exec (.portWatchdog p) s = .next (s.portFails p fun x => { x with errWdog := true }) := by
  change execPortWatchdog p s = _
  unfold execPortWatchdog
  simp only [hm]
  exact congrArg Host.Outcome.next (if_pos ⟨hs, hg⟩)

theorem exec_retryLimit_fires (hs : (s.port p).st = .up)
    (hl : ∃ i ∈ (s.port p).retry, 8 ≤ i.sends ∨ i.firstAt + 2048 ≤ s.cv.slotCount) :
    exec (.retryLimit p) s = .next (s.portFails p fun x => { x with errRetryLimit := true }) :=
  congrArg Host.Outcome.next (if_pos ⟨hs, by simpa [List.any_eq_true] using hl⟩)

end

/-- Settles O38: each command of a link is the change of its port under the condition that the port's state meets. -/
theorem linkResults : Obligations.LinkResults := by
  unfold Obligations.LinkResults
  refine ⟨fun p s => ?up, fun p s => ?fails⟩
  case up =>
    intro x put
    refine ⟨rfl, rfl, fun h he hw => ?_, fun h => ⟨?_, fun never => ?_⟩, fun c hs hm h1 h2 hi => exec_capabilityFlit_noImage hs hm h1 h2 hi,
      fun c hs hm hv => exec_capabilityFlit_version hs hm hv, fun rtt hs hr => exec_alignComplete_up hs hr,
      fun rtt hs hr => exec_alignComplete_long hs hr, fun h => exec_portDisable_notUp h, fun h => exec_portDisable_up h⟩
    · exact congrArg Host.Outcome.next (State.modPort_if (c := fun x : CvPort => x.st = .down ∧ x.enable ∧ !x.retryWait) 
        ⟨h, he, (Bool.not_eq_true' _).mpr hw⟩)
    · exact congrArg Host.Outcome.next (State.modPort_if (c := fun x : CvPort => x.st = .train) h)
    · exact congrArg Host.Outcome.next (State.modPort_if (c := fun x : CvPort => x.st = .train) h)
  case fails =>
    intro x put fails
    refine ⟨fun h => congrArg Host.Outcome.next (if_pos h), fun hs hl => exec_retryLimit_fires hs hl,
      fun m hm hs hg => exec_portWatchdog_fires hm hs hg, congrArg (fun y => Host.Outcome.next (put y)) ?_⟩
    refine congrArg (fun l => { x with retry := l }) (List.map_congr_left fun i _ => ?_)
    refine if_congr ?_ rfl rfl
    simp [Option.any_eq_true, x]

/-! ### Slots out -/

/-- The answer that the next header carries, by the transmissions not yet answered. -/
def answerCode (l : List (Nat × Bool)) : Nat × Nat :=
  match l.find? fun a => a.2 with
  | some a => (2, a.1)
  | none => match l.getLast? with
    | some a => (1, a.1)
    | none => (0, 0)

/-- A slot as it goes out. -/
def slotAnswering (sl : Slot) (l : List (Nat × Bool)) : Slot := { sl with ak := (answerCode l).1, aslot := (answerCode l).2 }

/-- A slot goes out: answers and their counter, and the slot. -/
theorem CvPort.emit_eq (x : CvPort) (sl : Slot) :
    ∃ a c, x.emit sl = { x with answers := a, counters := c, lastTx := some (slotAnswering sl x.answers) } := by
  unfold CvPort.emit CvPort.answer slotAnswering answerCode
  cases x.answers.find? fun a => a.2 with
  | some a => exact ⟨_, _, rfl⟩
  | none =>
    cases x.answers.getLast? with
    | some a => exact ⟨_, _, rfl⟩
    | none => exact ⟨_, _, rfl⟩

/-- A slot that is counted goes out. -/
theorem CvPort.emit_count_eq (x : CvPort) (sl : Slot) (off n : Nat) :
    ∃ a c, (x.emit sl).count off n = { x with answers := a, counters := c, lastTx := some (slotAnswering sl x.answers) } := by
  obtain ⟨a, c, h⟩ := x.emit_eq sl
  rw [h]
  exact ⟨_, _, rfl⟩

/-- The first transmission of a flit on its port. -/
def CvPort.sendsFlit (x : CvPort) (sl : Slot) (queue now : Nat) (f : QFlit) : CvPort :=
  let y := (x.emit sl).count cvTxFlits 1
  let z := if queue = 256 then y.count cvDynTx 1 else y
  let w := if f.wrap.isSome then z.count cvDetoured 1 else z
  { w with retry := w.retry ++ [⟨sl, false, 1, queue, now, [now], f.rec_⟩] }

theorem CvPort.sendsFlit_eq (x : CvPort) (sl : Slot) (queue now : Nat) (f : QFlit) :
    ∃ a c, x.sendsFlit sl queue now f = { x with
      answers := a, counters := c, lastTx := some (slotAnswering sl x.answers),
      retry := x.retry ++ [⟨sl, false, 1, queue, now, [now], f.rec_⟩] } := by
  obtain ⟨a, c, h⟩ := x.emit_count_eq sl cvTxFlits 1
  unfold CvPort.sendsFlit
  rw [h]
  by_cases hq : queue = 256 <;> by_cases hw : f.wrap.isSome = true <;> simp only [hq, hw, if_true, if_false] <;> exact ⟨_, _, rfl⟩

/-- A flit that no error has hurt goes out as it stands. -/
theorem State.sendFlit_clean (s : State) (p queue : Nat) (f : QFlit) :
    s.sendFlit p queue f false = s.modPort p fun x => x.sendsFlit (s.slotNow p f.kind f.psn f.flit) queue s.cv.slotCount f := rfl

/-- A port changes, then sends a flit. -/
theorem State.modPort_sendFlit (s : State) (p queue : Nat) (f : QFlit) (g : CvPort → CvPort) (hg : (g (s.port p)).tbl = (s.port p).tbl) :
    (s.modPort p g).sendFlit p queue f false
      = s.modPort p fun x => (g x).sendsFlit (s.slotNow p f.kind f.psn f.flit) queue s.cv.slotCount f := by
  have hs : (s.modPort p g).slotNow p f.kind f.psn f.flit = s.slotNow p f.kind f.psn f.flit := by
    unfold State.slotNow
    rw [State.port_modPort, hg]
    rfl
  rw [State.sendFlit_clean, State.modPort_modPort, hs]
  rfl

section
variable {p : Nat} {s : State}

theorem exec_slotTransmit_caps (ecc : Bool) (h : (s.port p).st = .caps) :
    exec (.slotTransmit ⟨p, ecc⟩) s = .next (s.sendControl p (BitVec.ofNat 2048 (leNat (s.capBytes p)))) := by
  change execSlotTransmit ⟨p, ecc⟩ s = _
  simp only [execSlotTransmit, h]

theorem exec_slotTransmit_align (ecc : Bool) (h : (s.port p).st = .align) :
    exec (.slotTransmit ⟨p, ecc⟩) s = .next (s.sendControl p (Config.echoFlit s.cv.slotCount)) := by
  change execSlotTransmit ⟨p, ecc⟩ s = _
  simp only [execSlotTransmit, h]

theorem exec_slotTransmit_empty (ecc : Bool) (h : (s.port p).st = .up) (hc : s.slotClass p (s.cv.slotCount % 1024) = .empty) :
    exec (.slotTransmit ⟨p, ecc⟩) s = .next (s.sendIdle p) := by
  change execSlotTransmit ⟨p, ecc⟩ s = _
  simp only [execSlotTransmit, h, hc]

theorem exec_slotTransmit_scheduled (ecc : Bool) {q : Nat} {opp : Bool} (h : (s.port p).st = .up) (hw : s.rst.warm = false)
    (hc : s.slotClass p (s.cv.slotCount % 1024) = .scheduled q opp) :
    exec (.slotTransmit ⟨p, ecc⟩) s = .next (s.sendScheduledSlot p q opp ecc) := by
  change execSlotTransmit ⟨p, ecc⟩ s = _
  simp only [execSlotTransmit, h, hc, hw, Bool.false_eq_true, if_false]

theorem exec_slotTransmit_dynamic (ecc : Bool) (h : (s.port p).st = .up) (hn : (s.port p).noSlack = false)
    (hc : s.slotClass p (s.cv.slotCount % 1024) = .dynamic) : exec (.slotTransmit ⟨p, ecc⟩) s = .next (s.sendDynamic p) := by
  change execSlotTransmit ⟨p, ecc⟩ s = _
  simp only [execSlotTransmit, h, hc, hn, Bool.false_eq_true, if_false]

theorem exec_slotTransmit_slack (ecc : Bool) (h : (s.port p).st = .up)
    (hc : s.slotClass p (s.cv.slotCount % 1024) = .slack) : exec (.slotTransmit ⟨p, ecc⟩) s = .next (s.sendSlack p ecc) := by
  change execSlotTransmit ⟨p, ecc⟩ s = _
  simp only [execSlotTransmit, h, hc]

/-- A queue's next flit. -/
theorem State.sendScheduledSlot_head {q : Nat} {f : QFlit} {l : List QFlit} (opp : Bool) (hq : (s.port p).queues.get q [] = f :: l)
    (hr : (s.port p).retry.length < 2048) :
    s.sendScheduledSlot p q opp false = s.modPort p fun x =>
      ({ x with queues := x.queues.upd q [] List.tail } : CvPort).sendsFlit (s.slotNow p f.kind f.psn f.flit) q s.cv.slotCount f := by
  unfold State.sendScheduledSlot
  simp only [hq]
  refine (if_neg (Nat.not_le.mpr hr)).trans ?_
  exact State.modPort_sendFlit s p q f (fun x => { x with queues := x.queues.upd q [] List.tail }) rfl

theorem State.sendScheduledSlot_idle {q : Nat} (ecc : Bool) (hq : (s.port p).queues.get q [] = []) :
    s.sendScheduledSlot p q false ecc = s.sendIdle p := by
  unfold State.sendScheduledSlot
  simp only [hq, Bool.false_eq_true, if_false]

/-- With nothing under way, the first record of the highest priority goes out. -/
theorem State.sendDynamic_head {r : Routed} {l : List Routed} {f : QFlit} {rest : List QFlit} (hw : s.rst.warm = false)
    (hr : (s.port p).retry.length < 2048) (hd : (s.port p).dynOut = []) (hp : pickDyn (s.port p).dynq = some (r, l))
    (hf : recFlits (s.stampWaypoint p r) = f :: rest) :
    s.sendDynamic p = s.modPort p fun x =>
      ({ x with dynq := x.dynq.erase r, dynOut := x.dynOut ++ rest } : CvPort).sendsFlit (s.slotNow p f.kind f.psn f.flit) 256
        s.cv.slotCount f := by
  have hn : s.nextDyn p = some (r, l) := by
    unfold State.nextDyn
    simp only [hw, hd, Bool.false_eq_true, if_false, List.isEmpty_nil, if_true, hp]
  refine (if_neg (Nat.not_le.mpr hr)).trans ?_
  simp only [hn, hf]
  exact State.modPort_sendFlit s p 256 f (fun x => { x with dynq := x.dynq.erase r, dynOut := x.dynOut ++ rest }) rfl

/-- A record under way goes on where no waypoint waits. -/
theorem State.sendDynamic_body {f : QFlit} {l : List QFlit} (hw : s.rst.warm = false)
    (hr : (s.port p).retry.length < 2048) (hd : (s.port p).dynOut = f :: l)
    (hp : pickDyn ((s.port p).dynq.filter fun r => decide (recPriority r.body = 0)) = none) :
    s.sendDynamic p = s.modPort p fun x =>
      ({ x with dynOut := l } : CvPort).sendsFlit (s.slotNow p f.kind f.psn f.flit) 256 s.cv.slotCount f := by
  have hn : s.nextDyn p = none := by
    unfold State.nextDyn
    simp only [hw, hd, Bool.false_eq_true, if_false, List.isEmpty_cons, hp]
  refine (if_neg (Nat.not_le.mpr hr)).trans ?_
  simp only [hn, hd]
  exact State.modPort_sendFlit s p 256 f (fun x => { x with dynOut := l }) rfl

theorem State.sendSlack_lost {i : RetryItem} (ecc : Bool) (hl : (s.port p).firstLost = some i) (hi : (s.port p).firstIdle = none) :
    s.sendSlack p ecc = s.sendRetry p i ecc := by
  unfold State.sendSlack
  simp only [hl, hi]

theorem State.sendSlack_idle {n : Nat} (ecc : Bool) (hl : (s.port p).firstLost = none) (hi : (s.port p).firstIdle = some n) :
    s.sendSlack p ecc = s.sendIdleAnswer p n := by
  unfold State.sendSlack
  simp only [hl, hi]

/-- A lost flit that no error has hurt goes out again as it was sent. -/
theorem State.sendRetry_clean (s : State) (p : Nat) (i : RetryItem) :
    s.sendRetry p i false = s.modPort p fun x =>
      { ((x.emit i.slot).count cvTxFlits 1).count cvRetries 1 with
        retry := (((x.emit i.slot).count cvTxFlits 1).count cvRetries 1).retry.map fun j =>
          if j = i then { i with lost := false, sends := i.sends + 1, sent := i.sent ++ [s.cv.slotCount] } else j } := rfl

end

/-- What the answer of a header says. -/
theorem answerCode_spec (l : List (Nat × Bool)) :
    (∀ a, l.find? (·.2) = some a → (answerCode l).1 = 2 ∧ (answerCode l).2 = a.1)
    ∧ (∀ a, l.find? (·.2) = none → l.getLast? = some a → (answerCode l).1 = 1 ∧ (answerCode l).2 = a.1)
    ∧ (l = [] → (answerCode l).1 = 0) := by
  unfold answerCode
  refine ⟨fun a h => ?_, fun a h hl => ?_, fun h => ?_⟩
  · simp only [h, and_self]
  · simp only [h, hl, and_self]
  · subst h
    rfl

/-! ### Slots in -/

section
variable {p : Nat} {sl : Slot} {ecc : Bool} {n : FecCount} {s : State}

/-- The codewords of a slot are counted. -/
def CvPort.fecCounted (x : CvPort) (n : FecCount) : CvPort := (x.count cvFecCorrected n.fixed).count cvFecUncorrected n.lost

/-- The answer that a good slot carries takes effect. -/
def CvPort.gotSlot (x : CvPort) (n : FecCount) (now : Nat) (sl : Slot) : CvPort :=
  { (x.fecCounted n).answered now sl.ak sl.aslot with lastGood := now }

/-- The port with a good flit that is no control flit. -/
def CvPort.gotFlit (x : CvPort) (n : FecCount) (now : Nat) (sl : Slot) : CvPort := (x.gotSlot n now sl).forget.count cvRxFlits 1

theorem exec_slotReceive_bad (h : (s.port p).st = .align ∨ (s.port p).st = .up) :
    exec (.slotReceive p sl true ecc n) s = .next (s.modPort p fun x =>
      { (x.fecCounted n).miss (s.port p).rxCount with
        answers := (s.port p).answers ++ [((s.port p).rxCount % 1024, true)], rxCount := (s.port p).rxCount + 1 }) :=
  congrArg Host.Outcome.next ((if_neg fun hn => h.elim hn.1 hn.2).trans ((if_pos rfl).trans (State.modPort_modPort s p _ _)))

theorem exec_slotReceive_control (h : (s.port p).st = .align ∨ (s.port p).st = .up) (hk : sl.kind = 3) :
    exec (.slotReceive p sl false ecc n) s = .next (s.modPort p fun x =>
      { (x.gotSlot n s.cv.slotCount sl).count cvRxFlits 1 with
        answers := (x.gotSlot n s.cv.slotCount sl).answers ++ [(sl.slot, false)], rxCount := 4096 + sl.leg * 1024 + sl.slot + 1 }) := by
  refine congrArg Host.Outcome.next ((if_neg fun hn => h.elim hn.1 hn.2).trans ((if_neg Bool.false_ne_true).trans ((if_pos hk).trans ?_)))
  rw [State.modPort_modPort, State.modPort_modPort]
  exact State.modPort_modPort s p _ _

theorem exec_slotReceive_align (h : (s.port p).st = .align) (hk : sl.kind = 1 ∨ sl.kind = 2) :
    exec (.slotReceive p sl false ecc n) s = .next (s.modPort p fun x =>
      { (x.gotFlit n s.cv.slotCount sl).count cvDiscards 1 with
        answers := (x.gotSlot n s.cv.slotCount sl).answers ++ [((s.port p).rxCount % 1024, false)],
        rxCount := (s.port p).rxCount + 1 }) := by
  refine congrArg Host.Outcome.next ((if_neg fun hn => hn.1 h).trans ((if_neg Bool.false_ne_true).trans
    ((if_neg (by omega)).trans ((if_neg (by omega)).trans ((if_pos (.inl h)).trans ?_)))))
  rw [State.discards, State.modPort_modPort, State.modPort_modPort, State.modPort_modPort]
  exact State.modPort_modPort s p _ _

theorem exec_slotReceive_flit {u : State} {ok : Bool} (h : (s.port p).st = .up) (hw : s.rst.warm = false) (hk : sl.kind = 1 ∨ sl.kind = 2)
    (hr : (s.modPort p fun x => x.gotFlit n s.cv.slotCount sl).receiveSlot p sl ecc = (u, ok)) :
    exec (.slotReceive p sl false ecc n) s = .next (u.modPort p fun x =>
      { x with answers := x.answers ++ [((s.port p).rxCount % 1024, !ok)], rxCount := (s.port p).rxCount + 1 }) := by
  have hm : (((s.modPort p fun x => (x.count cvFecCorrected n.fixed).count cvFecUncorrected n.lost).modPort p fun x =>
      { x.answered s.cv.slotCount sl.ak sl.aslot with lastGood := s.cv.slotCount }).modPort p fun x => x.forget.count cvRxFlits 1)
      = s.modPort p fun x => x.gotFlit n s.cv.slotCount sl := by
    rw [State.modPort_modPort, State.modPort_modPort]
    rfl
  have hidle : ¬ ((s.port p).st = .align ∨ s.rst.warm = true) := by rw [h, hw]; simp
  change execSlotReceive p sl false ecc n s = _
  unfold execSlotReceive
  dsimp only
  rw [if_neg fun hn => hn.2 h, if_neg Bool.false_ne_true, if_neg (by omega), if_neg (by omega), if_neg hidle, hm, hr]

end

/-! ### A flit received in its order -/

section
variable {inner : State → Nat → Slot → State × Bool} {wrapped ecc : Bool} {s : State} {p : Nat} {sl : Slot}

theorem State.receiveFlit_duplicate (h : (s.port p).countOf sl.leg sl.slot ∈ (s.port p).taken) :
    State.receiveFlit inner wrapped ecc s p sl = (s.modPort p fun x => x.count cvDuplicates 1, true) := if_pos (.inl h)

/-- The flit is no duplicate where nothing like it was taken or waits. -/
theorem CvPort.not_duplicate {x : CvPort} {n : Nat} (h : n ∉ x.taken) (hr : x.reorder = []) :
    ¬ (n ∈ x.taken ∨ (x.reorder.any fun w => decide (w.first = n)) = true) := by
  rw [hr]
  simpa using h

theorem State.receiveFlit_poisonedHead (h : (s.port p).countOf sl.leg sl.slot ∉ (s.port p).taken) (hr : (s.port p).reorder = [])
    (hk : sl.kind = 1) (hp : sl.psn ≠ 0) :
    State.receiveFlit inner wrapped ecc s p sl
      = (s.modPort p fun x => (x.take ((s.port p).countOf sl.leg sl.slot)).count cvDiscards 1, true) :=
  (if_neg (CvPort.not_duplicate h hr)).trans (if_pos ⟨hk, hp⟩)

/-- A body flit of a sending queue that is to be forwarded is no flit of the dynamic class. -/
theorem State.dynFlit_forward {n : Nat} {e : RxEntry} (hk : sl.kind = 2) (ha : e.action ≠ 1) : s.dynFlit p n sl e = false := by
  unfold State.dynFlit
  simp [hk, ha]

/-- A body flit in a sending queue's slot that is new and not for this chip: it waits for an earlier one, or has its turn. -/
theorem State.receiveFlit_body {e : RxEntry} (h : (s.port p).countOf sl.leg sl.slot ∉ (s.port p).taken)
    (hr : (s.port p).reorder = []) (hk : sl.kind = 2) (he : s.rxEntry p sl.tbl sl.slot = some e) (ha : e.action ≠ 1) :
    State.receiveFlit inner wrapped ecc s p sl =
      if wrapped = false ∧ s.mustWait p ((s.port p).countOf sl.leg sl.slot) e.squeue = true then
        ((s.modPort p fun x =>
          { x with
            reorder := x.reorder ++ [⟨(s.port p).countOf sl.leg sl.slot, some e, { sl with psn := spoil ecc sl.psn }⟩],
            missing := x.missing.erase ((s.port p).countOf sl.leg sl.slot) }).bufferError ecc p, true)
      else
        if (s.turnFlit inner p (some e) sl).2 = false then
          ((s.turnFlit inner p (some e) sl).1.modPort p fun x => x.miss ((s.port p).countOf sl.leg sl.slot), false)
        else
          (releaseGo (fun s e _ sl => s.turnFlit inner p e sl) p (fun _ => false)
            (((s.turnFlit inner p (some e) sl).1.modPort p fun x => x.take ((s.port p).countOf sl.leg sl.slot)).port p).reorder.length
            ((s.turnFlit inner p (some e) sl).1.modPort p fun x => x.take ((s.port p).countOf sl.leg sl.slot)), true) := by
  have h1 : ¬ sl.kind = 1 := by omega
  unfold State.receiveFlit
  simp only [he, Option.bind_some, State.dynFlit_forward hk ha, Bool.false_eq_true, if_false]
  refine (if_neg (CvPort.not_duplicate h hr)).trans ?_
  simp only [h1, false_and, and_false, if_false, Option.isNone_some, hr, List.filter_nil, List.length_nil, List.any_nil, Bool.false_eq_true,
    releaseGo, ite_self]
  refine if_congr (by rw [Bool.not_eq_true']; rfl) (if_neg (by decide)) (if_congr (by rw [Bool.not_eq_true']) rfl rfl)

/-- A flit to be forwarded, on a queue that wraps nothing and has no failed twin. -/
theorem State.turnFlit_forward {e : RxEntry} (hw : (s.port p).wraps = []) (ht : ∀ w, twinOf p = some w → (s.port w).st ≠ .failed)
    (hk : sl.kind = 2) (ha : e.action ≠ 1) :
    s.turnFlit inner p (some e) sl =
      if (s.port e.outPort).room e.outQueue = true then
        (s.modPort e.outPort fun y => { y with queues := y.queues.upd e.outQueue [] (· ++ [⟨sl.kind, sl.psn, sl.flit, none, none⟩]) }, true)
      else (s.modPort p fun x => x.count cvFwdFull 1, false) := by
  have hjoin : ∀ q, s.joinTwin p q = s := by
    intro q
    unfold State.joinTwin
    split
    · next w hw => exact if_neg fun hc => ht w hw hc.2.1
    · rfl
  have hwrap : ∀ q, (s.port p).wrapOf q = none := by
    intro q
    unfold CvPort.wrapOf
    rw [hw]
    rfl
  unfold State.turnFlit
  simp only [hwrap, hjoin]
  unfold State.actFlit
  simp only [show ¬ sl.kind = 1 by omega, if_false, ha]

/-- What a queue of another port or of this one takes leaves the flits that wait. -/
theorem State.reorder_modPort {q : Nat} {f : CvPort → CvPort} (hf : ∀ x : CvPort, (f x).reorder = x.reorder) (hr : (s.port p).reorder = []) :
    ((s.modPort q f).port p).reorder = [] := by
  by_cases h : p = q
  · subst h
    rw [State.port_modPort, hf, hr]
  · rw [State.port_modPort_ne s f h, hr]

/-- A new body flit that waits for nothing joins the queue that its entry names. -/
theorem State.receiveFlit_room {e : RxEntry} (h : (s.port p).countOf sl.leg sl.slot ∉ (s.port p).taken)
    (hr : (s.port p).reorder = []) (hk : sl.kind = 2) (he : s.rxEntry p sl.tbl sl.slot = some e) (ha : e.action ≠ 1)
    (hm : ¬ (wrapped = false ∧ s.mustWait p ((s.port p).countOf sl.leg sl.slot) e.squeue = true))
    (hw : (s.port p).wraps = []) (ht : ∀ w, twinOf p = some w → (s.port w).st ≠ .failed)
    (hroom : (s.port e.outPort).room e.outQueue = true) :
    State.receiveFlit inner wrapped ecc s p sl
      = ((s.modPort e.outPort fun y => { y with queues := y.queues.upd e.outQueue [] (· ++ [⟨sl.kind, sl.psn, sl.flit, none, none⟩]) }).modPort
          p fun x => x.take ((s.port p).countOf sl.leg sl.slot), true) := by
  have hreorder : (((s.modPort e.outPort fun y =>
      { y with queues := y.queues.upd e.outQueue [] (· ++ [⟨sl.kind, sl.psn, sl.flit, none, none⟩]) }).modPort
        p fun x => x.take ((s.port p).countOf sl.leg sl.slot)).port p).reorder = [] :=
    State.reorder_modPort (f := fun x => x.take ((s.port p).countOf sl.leg sl.slot)) (fun _ => rfl)
      (State.reorder_modPort (f := fun y : CvPort =>
        { y with queues := y.queues.upd e.outQueue [] (· ++ [⟨sl.kind, sl.psn, sl.flit, none, none⟩]) }) (fun _ => rfl) hr)
  rw [State.receiveFlit_body h hr hk he ha, if_neg hm, State.turnFlit_forward hw ht hk ha, if_pos hroom]
  dsimp only
  rw [if_neg (by decide), hreorder]
  rfl

/-- One that finds no room is refused. -/
theorem State.receiveFlit_full {e : RxEntry} (h : (s.port p).countOf sl.leg sl.slot ∉ (s.port p).taken)
    (hr : (s.port p).reorder = []) (hk : sl.kind = 2) (he : s.rxEntry p sl.tbl sl.slot = some e) (ha : e.action ≠ 1)
    (hm : ¬ (wrapped = false ∧ s.mustWait p ((s.port p).countOf sl.leg sl.slot) e.squeue = true))
    (hw : (s.port p).wraps = []) (ht : ∀ w, twinOf p = some w → (s.port w).st ≠ .failed)
    (hroom : (s.port e.outPort).room e.outQueue = false) :
    State.receiveFlit inner wrapped ecc s p sl
      = (s.modPort p fun x => (x.count cvFwdFull 1).miss ((s.port p).countOf sl.leg sl.slot), false) := by
  have hturn : s.turnFlit inner p (some e) sl = (s.modPort p fun x => x.count cvFwdFull 1, false) :=
    (State.turnFlit_forward hw ht hk ha).trans (if_neg fun hc => Bool.false_ne_true (hroom.symm.trans hc))
  rw [State.receiveFlit_body h hr hk he ha, if_neg hm, hturn, if_pos rfl, State.modPort_modPort]

end

/-- A port changes, and its buffer may fail: the error is flagged and marked. -/
theorem State.modPort_bufferError (s : State) (ecc : Bool) (p : Nat) (g : CvPort → CvPort) :
    ∃ r, (s.modPort p g).bufferError ecc p
      = { s.modPort p fun x => { g x with errBufEcc := ecc || (g x).errBufEcc } with reportsOut := r } := by
  cases ecc with
  | false => exact ⟨s.reportsOut, rfl⟩
  | true =>
    have h : ((s.modPort p g).modPort p fun x => { x with errBufEcc := true })
        = s.modPort p fun x => { g x with errBufEcc := true || (g x).errBufEcc } := State.modPort_modPort s p g _
    rw [State.bufferError, if_pos rfl, h]
    exact ⟨_, rfl⟩

/-- A command that changes one port and, at most, adds reports. -/
theorem State.modPort_onlyHere (s : State) (p : Nat) (f : CvPort → CvPort) (r : List PReport) :
    let u : State := { s.modPort p f with reportsOut := r }
    u = { s with ports := u.ports, reportsOut := u.reportsOut } ∧ ∀ q, q ≠ p → u.port q = s.port q :=
  ⟨rfl, fun _ h => State.port_modPort_ne s f h⟩

/-- A new body flit behind a missing one of its queue waits. -/
theorem State.receiveFlit_waits {inner : State → Nat → Slot → State × Bool} {ecc : Bool} {s : State} {p : Nat} {sl : Slot}
    {e : RxEntry} (h : (s.port p).countOf sl.leg sl.slot ∉ (s.port p).taken)
    (hr : (s.port p).reorder = []) (hk : sl.kind = 2) (he : s.rxEntry p sl.tbl sl.slot = some e) (ha : e.action ≠ 1)
    (hm : s.mustWait p ((s.port p).countOf sl.leg sl.slot) e.squeue = true) :
    ∃ u, State.receiveFlit inner false ecc s p sl = (u, true)
      ∧ (u.port p).reorder = [⟨(s.port p).countOf sl.leg sl.slot, some e, { sl with psn := if ecc then 15 else sl.psn }⟩]
      ∧ (u.port p).missing = (s.port p).missing.erase ((s.port p).countOf sl.leg sl.slot)
      ∧ (ecc = true → (u.port p).errBufEcc = true) ∧ u = { s with ports := u.ports, reportsOut := u.reportsOut }
      ∧ ∀ q, q ≠ p → u.port q = s.port q := by
  obtain ⟨r, hu⟩ := State.modPort_bufferError s ecc p fun x =>
    { x with
      reorder := x.reorder ++ [⟨(s.port p).countOf sl.leg sl.slot, some e, { sl with psn := spoil ecc sl.psn }⟩],
      missing := x.missing.erase ((s.port p).countOf sl.leg sl.slot) }
  obtain ⟨hstate, hother⟩ := State.modPort_onlyHere s p (fun x =>
    { x with
      reorder := x.reorder ++ [⟨(s.port p).countOf sl.leg sl.slot, some e, { sl with psn := spoil ecc sl.psn }⟩],
      missing := x.missing.erase ((s.port p).countOf sl.leg sl.slot), errBufEcc := ecc || x.errBufEcc }) r
  have hport := State.port_modPort s p fun x =>
    { x with
      reorder := x.reorder ++ [⟨(s.port p).countOf sl.leg sl.slot, some e, { sl with psn := spoil ecc sl.psn }⟩],
      missing := x.missing.erase ((s.port p).countOf sl.leg sl.slot), errBufEcc := ecc || x.errBufEcc }
  refine ⟨_, (State.receiveFlit_body h hr hk he ha).trans ((if_pos ⟨rfl, hm⟩).trans (congrArg (·, true) hu)), ?_, ?_, fun hecc => ?_,
    hstate, hother⟩
  · refine (congrArg CvPort.reorder hport).trans ?_
    rw [hr]
    rfl
  · exact congrArg CvPort.missing hport
  · refine (congrArg CvPort.errBufEcc hport).trans ?_
    rw [hecc]
    rfl

/-! ### Slots, in and out -/

/-- What the waiting flit of a queue does to its port. -/
theorem queueRoom_port {s : State} {p q : Nat} {f : QFlit} {l : List QFlit} (ho : (s.port p).offers.get q [] = f :: l) :
    (s.modPort p fun x => match x.offers.get q [] with
      | [] => x
      | f :: l => if x.room q then { x with queues := x.queues.upd q [] (· ++ [f]), offers := x.offers.set q l }
        else x.count cvQueueWait 1).port p
      = if (s.port p).room q = true then
          { s.port p with queues := (s.port p).queues.upd q [] (· ++ [f]), offers := (s.port p).offers.set q l }
        else (s.port p).count cvQueueWait 1 := by
  rw [State.port_modPort]
  simp only [ho]

/-- Settles O39: a slot out is one change of its port, an answer and a flit; a slot in is answered after its flit has been
taken, put to wait, forwarded or refused. -/
theorem slotResults : Obligations.SlotResults := by
  unfold Obligations.SlotResults
  refine ⟨fun p s => ?out, fun p sl ecc n s => ?answers, fun p sl ecc s => ?flits⟩
  case out =>
    intro x now onlyHere answered sent kept
    have hhere : ∀ f, onlyHere (s.modPort p f) := fun f => ⟨rfl, fun q hq => State.port_modPort_ne s f hq⟩
    have hans : ∀ sl, answered (slotAnswering sl x.answers) := fun sl => answerCode_spec x.answers
    have hsent : ∀ f kind psn flit, (f x).lastTx = some (slotAnswering (s.slotNow p kind psn flit) x.answers) →
        sent (s.modPort p f) kind psn flit := fun f kind psn flit h =>
      ⟨hhere f, _, (congrArg CvPort.lastTx (State.port_modPort s p f)).trans h, rfl, rfl, rfl, rfl, rfl, rfl, hans _⟩
    have hcontrol : ∀ flit, sent (s.sendControl p flit) 3 0 flit := fun flit => hsent _ _ _ _ (by
      obtain ⟨a, c, h⟩ := x.emit_count_eq (s.slotNow p 3 0 flit) cvTxFlits 1
      exact congrArg CvPort.lastTx h)
    have hidle : sent (s.sendIdle p) 0 0 0 := hsent _ _ _ _ (by
      obtain ⟨a, c, h⟩ := x.emit_eq (s.slotNow p 0 0 0)
      exact congrArg CvPort.lastTx h)
    have hflit : ∀ (g : CvPort → CvPort) q f, (g x).answers = x.answers → (g x).retry = x.retry →
        ∃ y, ((s.modPort p fun x => (g x).sendsFlit (s.slotNow p f.kind f.psn f.flit) q now f).port p) = y
          ∧ sent (s.modPort p fun x => (g x).sendsFlit (s.slotNow p f.kind f.psn f.flit) q now f) f.kind f.psn f.flit
          ∧ kept (s.modPort p fun x => (g x).sendsFlit (s.slotNow p f.kind f.psn f.flit) q now f) q f
          ∧ y.queues = (g x).queues ∧ y.dynq = (g x).dynq ∧ y.dynOut = (g x).dynOut := by
      intro g q f ha hr
      obtain ⟨a, c, h⟩ := (g x).sendsFlit_eq (s.slotNow p f.kind f.psn f.flit) q now f
      have hport := (State.port_modPort s p fun x => (g x).sendsFlit (s.slotNow p f.kind f.psn f.flit) q now f).trans h
      refine ⟨_, hport, hsent (fun x => (g x).sendsFlit (s.slotNow p f.kind f.psn f.flit) q now f) _ _ _ ?_,
        ⟨_, (congrArg CvPort.retry hport).trans (congrArg (· ++ _) hr), rfl, rfl, rfl, rfl, rfl, rfl, rfl⟩, rfl, rfl, rfl⟩
      rw [← ha]
      exact congrArg CvPort.lastTx h
    refine ⟨fun ecc h => ⟨_, exec_slotTransmit_caps ecc h, hcontrol _⟩, fun ecc h => ⟨_, exec_slotTransmit_align ecc h, hcontrol _⟩,
      fun ecc h hc => ⟨_, exec_slotTransmit_empty ecc h hc, hidle⟩, fun q opp f l h hw hc hr hq => ?_, fun q ecc h hw hc hq => ?_,
      fun ecc r l f rest h hw hc hn hr hd hp hf => ?_, fun ecc f l h hw hc hn hr hd hp => ?_, fun i h hc hl hi => ?_,
      fun n ecc h hc hl hi => ?_, fun q f l ho hr => ?_, fun q f l ho hr => ?_⟩
    · obtain ⟨y, hy, hs, hk, hqs, -, -⟩ := hflit (fun x => { x with queues := x.queues.upd q [] List.tail }) q f rfl rfl
      refine ⟨_, (exec_slotTransmit_scheduled false h hw hc).trans (congrArg Host.Outcome.next (State.sendScheduledSlot_head opp hq hr)),
        hs, ?_, hk⟩
      refine (congrArg (fun z : CvPort => z.queues.get q []) hy).trans ?_
      rw [hqs, SMap.get_upd_self]
      exact congrArg List.tail hq
    · exact ⟨_, (exec_slotTransmit_scheduled ecc h hw hc).trans (congrArg Host.Outcome.next (State.sendScheduledSlot_idle ecc hq)), hidle⟩
    · obtain ⟨y, hy, hs, hk, -, hdq, hdo⟩ := hflit (fun x => { x with dynq := x.dynq.erase r, dynOut := x.dynOut ++ rest }) 256 f rfl rfl
      refine ⟨_, (exec_slotTransmit_dynamic ecc h hn hc).trans (congrArg Host.Outcome.next (State.sendDynamic_head hw hr hd hp hf)), hs,
        (congrArg CvPort.dynq hy).trans hdq, ((congrArg CvPort.dynOut hy).trans hdo).trans ?_, hk⟩
      exact congrArg (· ++ rest) hd
    · obtain ⟨y, hy, hs, hk, -, hdq, hdo⟩ := hflit (fun x => { x with dynOut := l }) 256 f rfl rfl
      exact ⟨_, (exec_slotTransmit_dynamic ecc h hn hc).trans (congrArg Host.Outcome.next (State.sendDynamic_body hw hr hd hp)), hs,
        (congrArg CvPort.dynq hy).trans hdq, (congrArg CvPort.dynOut hy).trans hdo, hk⟩
    · obtain ⟨a, c, he⟩ := x.emit_count_eq i.slot cvTxFlits 1
      refine ⟨_, slotAnswering i.slot x.answers, (exec_slotTransmit_slack false h hc).trans (congrArg Host.Outcome.next
        ((State.sendSlack_lost false hl hi).trans (s.sendRetry_clean p i))), hhere _, ?_, hans _, rfl, ?_⟩
      · rw [State.port_modPort]
        exact congrArg CvPort.lastTx he
      · rw [State.port_modPort]
        exact congrArg (fun z : CvPort => z.retry.map fun j =>
          if j = i then { i with lost := false, sends := i.sends + 1, sent := i.sent ++ [now] } else j) he
    · obtain ⟨a, c, he⟩ := x.emit_eq ⟨0, n / 1024 % 4, n % 1024, x.tbl, 0, 0, 0, 0⟩
      refine ⟨_, slotAnswering ⟨0, n / 1024 % 4, n % 1024, x.tbl, 0, 0, 0, 0⟩ x.answers, (exec_slotTransmit_slack ecc h hc).trans
        (congrArg Host.Outcome.next (State.sendSlack_idle ecc hl hi)), hhere _, ?_, hans _, rfl, rfl, rfl, ?_⟩
      · rw [State.sendIdleAnswer, State.port_modPort]
        exact congrArg CvPort.lastTx he
      · rw [State.sendIdleAnswer, State.port_modPort]
    · have hq := (queueRoom_port (s := s) ho).trans (if_pos hr)
      refine ⟨_, rfl, hhere _, ?_, ?_⟩
      · exact (congrArg (fun z : CvPort => z.queues.get q []) hq).trans (SMap.get_upd_self x.queues q [] (· ++ [f]))
      · exact (congrArg (fun z : CvPort => z.offers.get q []) hq).trans (SMap.get_set_self x.offers q l [])
    · have hq := (queueRoom_port (s := s) ho).trans (if_neg fun hc => Bool.false_ne_true (hr.symm.trans hc))
      exact congrArg (fun y => Host.Outcome.next { s with ports := s.ports.set p y }) ((State.port_modPort s p _).symm.trans hq)
  case answers =>
    intro x put fec got taken
    refine ⟨fun h => ⟨exec_slotReceive_bad h, exec_slotReceive_control h⟩, fun h hk => exec_slotReceive_align h hk, fun h hw hk => ?_⟩
    obtain ⟨u, ok, hu⟩ : ∃ u ok, (s.modPort p fun x => x.gotFlit n s.cv.slotCount sl).receiveSlot p sl ecc = (u, ok) :=
      ⟨_, _, (Prod.eta _).symm⟩
    exact ⟨u, ok, hu, exec_slotReceive_flit h hw hk hu⟩
  case flits =>
    intro x n put
    rw [show s.receiveSlot p sl ecc = State.receiveFlit (receiveGo 16) false ecc s p sl from rfl]
    generalize receiveGo 16 = inner
    refine ⟨fun h => State.receiveFlit_duplicate h, fun h hr => ⟨fun hk hp => State.receiveFlit_poisonedHead h hr hk hp,
      fun e hk he ha => ⟨fun hm => State.receiveFlit_waits h hr hk he ha hm, fun hm hw ht => ⟨fun hroom => ?_, fun hroom => ?_⟩⟩⟩⟩
    · exact State.receiveFlit_room h hr hk he ha (fun hc => Bool.false_ne_true (hm.symm.trans hc.2)) hw ht hroom
    · exact State.receiveFlit_full h hr hk he ha (fun hc => Bool.false_ne_true (hm.symm.trans hc.2)) hw ht hroom

end Sys2Proof.Machine
end


section
/-! Records that Caravan delivers (09_caravan.md). -/

namespace Sys2Proof.Machine

open Sys2Proof

/-! ### A whole unit of HBM -/

/-- Bytes put one after another from an address on. -/
theorem Memory.get_puts {m : Memory} (h : Memory.wf m = true) (a : Nat) (g : Nat → Byte) (x : Nat) : ∀ n : Nat,
    Memory.get ((List.range n).foldl (fun m i => Memory.put m (a + i) (g i)) m) x
      = if a ≤ x ∧ x < a + n then g (x - a) else Memory.get m x
  | 0 => by
    rw [if_neg (by omega)]
    rfl
  | n + 1 => by
    rw [List.range_succ, List.foldl_append, List.foldl_cons, List.foldl_nil,
      Memory.get_put (Memory.puts_wf (fun i => a + i) g (List.range n) m h), Memory.get_puts h a g x n]
    by_cases hx : x = a + n
    · rw [if_pos hx, if_pos (by omega), hx, Nat.add_sub_cancel_left]
    · rw [if_neg hx]
      exact if_congr (by omega) rfl rfl

/-- A unit written whole holds the bytes. -/
theorem Hbm.unitBytes_writeUnit {h : Hbm} (k : Nat) {bs : List Byte} (p : Bool) (hw : Memory.wf h.bytes = true) (hl : bs.length = 64) :
    (h.writeUnit k 0 bs p).unitBytes k = bs := by
  have hbytes : ∀ x, Memory.get (h.writeUnit k 0 bs p).bytes x = if 64 * k + 0 ≤ x ∧ x < 64 * k + 0 + bs.length
      then bs.getD (x - (64 * k + 0)) 0 else Memory.get h.bytes x := fun x => Memory.get_puts hw (64 * k + 0) (fun i => bs.getD i 0) x bs.length
  refine List.ext_getElem (by simp [Hbm.unitBytes, hl]) fun i h1 h2 => ?_
  simp only [Hbm.unitBytes, List.getElem_map, List.getElem_range, hbytes]
  rw [if_pos (by omega), show 64 * k + i - (64 * k + 0) = i by omega, List.getD_eq_getElem?_getD, List.getElem?_eq_getElem h2]
  rfl

theorem Hbm.get_writeUnit_ne {h : Hbm} {k : Nat} {bs : List Byte} (p : Bool) (hw : Memory.wf h.bytes = true) (hl : bs.length = 64)
    {a : Nat} (ha : a / 64 ≠ k) : Memory.get (h.writeUnit k 0 bs p).bytes a = Memory.get h.bytes a :=
  (Memory.get_puts hw (64 * k + 0) (fun i => bs.getD i 0) a bs.length).trans (if_neg (by omega))

/-- A unit written whole takes the poison of the data alone. -/
theorem Hbm.poison_writeUnit_full (h : Hbm) (k : Nat) {bs : List Byte} (p : Bool) (hl : bs.length = 64) :
    (h.writeUnit k 0 bs p).poison = h.poison.mark k p := by
  simp [Hbm.writeUnit, hl]

/-! ### A write of one unit at its place -/

/-- One whole unit is one span. -/
theorem unitSpan_unit {off : Nat} (hu : off % 64 = 0) (ho : off < hbmSpace) : unitSpan off 64 = [(off / 64, 0, 64)] := by
  unfold hbmSpace at ho
  have hm : off / 64 % (hbmSpace / 64) = off / 64 := by
    unfold hbmSpace
    omega
  simp [unitSpan, hu, hm]

/-- The segment of an address of HBM. -/
def offSeg (off : Nat) : Nat := segOf (off / 64)

section
variable {s : State} {off : Nat} {data : List (Byte × Bool)}

theorem State.unmappedIn_unit (hu : off % 64 = 0) (ho : off < hbmSpace) :
    s.unmappedIn off 64 = if entMapped (s.mapEntry (offSeg off)) then [] else [offSeg off] := by
  unfold State.unmappedIn
  rw [unitSpan_unit hu ho]
  cases h : entMapped (s.mapEntry (offSeg off)) <;>
    simp [List.eraseDups_cons, show segOf (off / 64) = offSeg off from rfl, h]

theorem State.protectedIn_unit (hu : off % 64 = 0) (ho : off < hbmSpace) :
    s.protectedIn off 64 = if entMapped (s.mapEntry (offSeg off)) && entWp (s.mapEntry (offSeg off)) then [offSeg off] else [] := by
  unfold State.protectedIn
  rw [unitSpan_unit hu ho]
  cases h : entMapped (s.mapEntry (offSeg off)) && entWp (s.mapEntry (offSeg off)) <;>
    simp [List.eraseDups_cons, show segOf (off / 64) = offSeg off from rfl, h]

/-- A whole unit is stored where its segment is served and not protected, and counted where it is not (R294). -/
theorem State.hbmWrite_unit (hl : data.length = 64) (hu : off % 64 = 0) (ho : off < hbmSpace) :
    s.hbmWrite off data true
      = ((if entMapped (s.mapEntry (offSeg off)) && !entWp (s.mapEntry (offSeg off)) then s.storeUnit (off / 64) 0 data else s).countUnmapped
          (if entMapped (s.mapEntry (offSeg off)) then [] else [offSeg off])).countWp
          (if entMapped (s.mapEntry (offSeg off)) && entWp (s.mapEntry (offSeg off)) then [offSeg off] else []) := by
  unfold State.hbmWrite
  rw [hl, State.unmappedIn_unit hu ho, State.protectedIn_unit hu ho, unitSpan_unit hu ho]
  simp only [List.foldl_cons, List.foldl_nil, Bool.true_and, if_true, List.take_of_length_le (Nat.le_of_eq hl)]
  rfl

theorem State.hbmWrite_stored (hl : data.length = 64) (hu : off % 64 = 0) (ho : off < hbmSpace)
    (hm : entState (s.mapEntry (offSeg off)) = 1) (hw : entWp (s.mapEntry (offSeg off)) = false) :
    s.hbmWrite off data true = { s with
      hbm := s.hbm.writeUnit (unitKey (offSeg off % 4) (entRow (s.mapEntry (offSeg off))) (unitIn (off / 64))) 0 (data.map Prod.fst)
        (data.any Prod.snd) } := by
  have hmap : entMapped (s.mapEntry (offSeg off)) = true := by simp [entMapped, hm]
  rw [State.hbmWrite_unit hl hu ho]
  simp only [hmap, hw, Bool.not_false, Bool.and_self, Bool.and_false, if_true, Bool.false_eq_true, if_false]
  unfold State.countWp State.countUnmapped State.storeUnit
  simp only [List.foldl_nil, hl, and_self, if_true, show segOf (off / 64) = offSeg off from rfl, hm, OfNat.one_ne_ofNat, if_false]

theorem State.hbmWrite_unmapped (hl : data.length = 64) (hu : off % 64 = 0) (ho : off < hbmSpace)
    (hm : entMapped (s.mapEntry (offSeg off)) = false) : s.hbmWrite off data true = s.countUnmapped [offSeg off] := by
  rw [State.hbmWrite_unit hl hu ho]
  simp only [hm, Bool.false_and, Bool.false_eq_true, if_false]
  rfl

theorem State.hbmWrite_protected (hl : data.length = 64) (hu : off % 64 = 0) (ho : off < hbmSpace)
    (hm : entMapped (s.mapEntry (offSeg off)) = true) (hw : entWp (s.mapEntry (offSeg off)) = true) :
    s.hbmWrite off data true = s.countWp [offSeg off] := by
  rw [State.hbmWrite_unit hl hu ho]
  simp only [hm, hw, Bool.not_true, Bool.and_false, Bool.and_self, if_true, Bool.false_eq_true, if_false]
  rfl

end

/-! ### Records that act -/

section
variable {s : State}

/-- A command that is a delivered record's. -/
theorem exec_recAct {c : Instr} {b : Rec} (f : State → State) (h : s.mayAct b = true) (hc : exec c s = s.recAct b f) :
    exec c s = .next (f (s.tookBody b)) := hc.trans (State.recAct_run h f)

theorem exec_writeRecord {r : RecWrite} (h : s.mayAct (.write r) = true) (hc : isCommit r = false) :
    exec (.writeRecord r) s = .next ((s.tookBody (.write r)).landWrite r) :=
  (if_neg (by simp [hc])).trans (State.recAct_run h _)

theorem State.landWrite_hbm {r : RecWrite} (h : r.addr.toNat / 2 ^ 61 = 0) :
    s.landWrite r = s.hbmWrite (r.addr.toNat % 2 ^ 41) (unitsBytes r.data) true := if_pos h

theorem State.landWrite_tile {r : RecWrite} {n : Nat} (h : r.addr.toNat / 2 ^ 61 = 1)
    (hn : s.physicalOf (r.addr.toNat % 2 ^ 41 / spadBytes) = some n) :
    s.landWrite r = s.modTile n fun t => t.landInbound (r.addr.toNat % 2 ^ 41 % spadBytes) (unitsBytes r.data) := by
  unfold State.landWrite
  simp only [h, hn, one_ne_zero, if_false, if_true]

theorem State.landWrite_nowhere {r : RecWrite} (h : 2 ≤ r.addr.toNat / 2 ^ 61
    ∨ (r.addr.toNat / 2 ^ 61 = 1 ∧ s.physicalOf (r.addr.toNat % 2 ^ 41 / spadBytes) = none)) : s.landWrite r = s := by
  unfold State.landWrite
  rcases h with h | ⟨h, hn⟩
  · simp only [show ¬ r.addr.toNat / 2 ^ 61 = 0 by omega, show ¬ r.addr.toNat / 2 ^ 61 = 1 by omega, if_false]
  · simp only [h, hn, one_ne_zero, if_false, if_true]

/-- The bytes of one unit. -/
theorem unitsBytes_one (d : Unit64) : unitsBytes [d] = d.bytes.map fun b => (b, d.poison) := by simp [unitsBytes]

theorem any_snd_unit {d : Unit64} (h : d.bytes.length = 64) : (d.bytes.map fun b => (b, d.poison)).any Prod.snd = d.poison := by
  have hne : d.bytes ≠ [] := fun hn => by simp [hn] at h
  cases d.poison
  · simp
  · simpa using List.exists_mem_of_ne_nil d.bytes hne

/-- A release that a belay waits for completes it; any other is counted. -/
theorem State.belayRelease_moves {ref : W64} {gen : Nat} (hm : (s.gsem (refIndex ref)).mode = .belay)
    (ho : (s.gsem (refIndex ref)).overrun = false) (hf : (s.gsem (refIndex ref)).fwd = true)
    (hg : BitVec.ofNat 2 gen = (s.gsem (refIndex ref)).gen + 1) :
    s.belayRelease ref gen = belayGo (belayFuel - 1) s (.complete (refIndex ref)) :=
  if_pos (And.intro hm (And.intro (by simp [ho]) (And.intro hf hg)))

theorem State.belayRelease_discard {ref : W64} {gen : Nat} (h : ¬ ((s.gsem (refIndex ref)).mode = .belay
    ∧ (s.gsem (refIndex ref)).overrun = false ∧ (s.gsem (refIndex ref)).fwd = true
    ∧ BitVec.ofNat 2 gen = (s.gsem (refIndex ref)).gen + 1)) : s.belayRelease ref gen = s.sigDiscard := by
  refine if_neg fun hc => h ?_
  obtain ⟨hm, ho, hf, hg⟩ := hc
  exact ⟨hm, by simpa using ho, hf, hg⟩

theorem exec_releaseRecord {r : RecRelease} (h : s.mayAct (.release r) = true) :
    exec (.releaseRecord r) s = .next (if r.toPort then
        (s.tookBody (.release r)).releasePort (refTile r.ref) (refIndex r.ref) (BitVec.ofNat 2 r.gen)
      else (s.tookBody (.release r)).belayRelease r.ref r.gen) :=
  exec_recAct (fun s => if r.toPort then s.releasePort (refTile r.ref) (refIndex r.ref) (BitVec.ofNat 2 r.gen)
    else s.belayRelease r.ref r.gen) h rfl

theorem State.releasePort_some {l bp n : Nat} {gen : BitVec 2} (h : s.physicalOf l = some n) :
    s.releasePort l bp gen = s.modTile n fun t => { t with bp := t.bp.upd bp {} fun b => { b with rel := gen } } := by
  unfold State.releasePort
  simp only [h]

theorem State.releasePort_none {l bp : Nat} {gen : BitVec 2} (h : s.physicalOf l = none) :
    s.releasePort l bp gen = s.sigDiscard := by
  unfold State.releasePort
  simp only [h]

theorem exec_brokenRecord {chip tile ch : Nat} (h : s.mayAct (.broken chip tile ch) = true) :
    exec (.brokenRecord chip tile ch) s = .next ((s.tookBody (.broken chip tile ch)).breakSenders chip tile ch) :=
  exec_recAct (fun s => s.breakSenders chip tile ch) h rfl

theorem exec_detourRecord_none {p : Nat} {d : RecDetour} {sl : Slot} (h : s.detouredPort p d.oport = none) :
    exec (.detourRecord p d sl) s = .next (s.discards p 1) := by
  change execDetourRecord p d sl s = _
  unfold execDetourRecord
  simp only [h]

theorem exec_detourRecord_some {p f : Nat} {d : RecDetour} {sl : Slot} (h : s.detouredPort p d.oport = some f) :
    exec (.detourRecord p d sl) s = .next
      (State.receiveFlit (receiveGo 15) true false s f { sl with leg := d.oleg, slot := d.oslot, tbl := d.otbl }).1 := by
  change execDetourRecord p d sl s = _
  unfold execDetourRecord
  simp only [h]
  rfl

end

/-- Settles O40: each record acts on the state without it as its kind says; a wrapped flit is a flit of the failed port. -/
theorem deliveredRecordResults : Obligations.DeliveredRecordResults := by
  unfold Obligations.DeliveredRecordResults
  refine ⟨fun s => ?records, fun p d sl s => ?detours⟩
  case records =>
    intro took
    refine ⟨fun r h hc => ?write,
      fun r h => ⟨_, exec_recAct (fun s => s.applySignal r.ref r.inc) h rfl, State.signalDone _ r.ref r.inc⟩,
      fun r h => ⟨_, exec_recAct (fun s => s.applySignal r.ref r.inc) h rfl, State.signalDone _ r.ref r.inc⟩,
      fun r h => ⟨_, exec_recAct (fun s => s.belayArrive r.ref r.tag) h rfl, State.arrivalDone _ r.ref r.tag⟩, fun r h => ?release,
      fun r h => ⟨_, exec_recAct (fun s => s.deliver ⟨none, r.tile, r.ch, r.seq, r.pad, r.w, r.pos,
        bytesGrans (16 * r.data.length) (unitsBytes r.data)⟩) h rfl, State.messageDone _ _⟩, fun chip tile ch h => ?broken⟩
    case write =>
      intro v off seg e k
      have hoff : off < hbmSpace := Nat.mod_lt _ (by decide)
      have hunit : ∀ d, r.addr.toNat / 2 ^ 61 = 0 → r.data = [d] →
          exec (.writeRecord r) s = .next (v.hbmWrite off (d.bytes.map fun b => (b, d.poison)) true) := fun d h0 hd =>
        (exec_writeRecord h hc).trans (congrArg Host.Outcome.next ((State.landWrite_hbm h0).trans
          (congrArg (fun l => v.hbmWrite off l true) ((congrArg unitsBytes hd).trans (unitsBytes_one d)))))
      have hlen : ∀ d : Unit64, d.bytes.length = 64 → (d.bytes.map fun b => (b, d.poison)).length = 64 := fun d hl => by simp [hl]
      refine ⟨fun d h0 hd hl hu hwf => ⟨fun hm hw => ?_, fun hm => ?_, fun hm hw => ?_⟩, fun n h1 hn => ?_, fun hnone => ?_⟩
      · refine ⟨_, (hunit d h0 hd).trans (congrArg Host.Outcome.next (State.hbmWrite_stored (hlen d hl) hu hoff hm hw)), ?_, ?_, ?_,
          fun a ha => ?_, rfl, rfl⟩
        · refine (Hbm.unitBytes_writeUnit k _ hwf (by simp [hl])).trans ?_
          simp [List.map_map, Function.comp_def]
        · refine (Hbm.poison_writeUnit_full s.hbm k _ (by simp [hl])).trans ?_
          rw [any_snd_unit hl]
        · rfl
        · exact Hbm.get_writeUnit_ne _ hwf (by simp [hl]) ha
      · exact (hunit d h0 hd).trans (congrArg Host.Outcome.next (State.hbmWrite_unmapped (hlen d hl) hu hoff hm))
      · exact (hunit d h0 hd).trans (congrArg Host.Outcome.next (State.hbmWrite_protected (hlen d hl) hu hoff hm hw))
      · exact (exec_writeRecord h hc).trans (congrArg Host.Outcome.next (State.landWrite_tile h1 hn))
      · exact (exec_writeRecord h hc).trans (congrArg Host.Outcome.next (State.landWrite_nowhere hnone))
    case release =>
      intro v g moves
      have hex := exec_releaseRecord h
      refine ⟨fun n hp hn => hex.trans (congrArg Host.Outcome.next ((if_pos hp).trans (State.releasePort_some hn))), fun hd => ?_,
        fun hp hm => ?_⟩
      · refine hex.trans (congrArg Host.Outcome.next ?_)
        rcases hd with ⟨hp, hn⟩ | ⟨hp, hm⟩
        · exact (if_pos hp).trans (State.releasePort_none hn)
        · exact (if_neg (by simp [hp])).trans (State.belayRelease_discard hm)
      · obtain ⟨hm, ho, hf, hg⟩ := hm
        exact hex.trans (congrArg Host.Outcome.next ((if_neg (by simp [hp])).trans (State.belayRelease_moves hm ho hf hg)))
    case broken =>
      rw [exec_brokenRecord h]
      rfl
  case detours =>
    refine ⟨fun h => exec_detourRecord_none h, fun f h => ?_⟩
    intro x n
    have hex := exec_detourRecord_some (sl := sl) h
    generalize receiveGo 15 = inner at hex
    refine ⟨fun ht => ?_, fun e ht hr hw htw hk he ha hroom => ?_⟩
    · exact hex.trans (congrArg (fun r => Host.Outcome.next (Prod.fst r)) 
        (State.receiveFlit_duplicate (sl := { sl with leg := d.oleg, slot := d.oslot, tbl := d.otbl }) ht))
    · exact hex.trans (congrArg (fun r => Host.Outcome.next (Prod.fst r))
        (State.receiveFlit_room (sl := { sl with leg := d.oleg, slot := d.oslot, tbl := d.otbl }) ht hr hk he ha (fun hc => Bool.noConfusion hc.1) hw htw hroom))

end Sys2Proof.Machine
end


section
/-! Timetable switches (09_caravan.md). -/

namespace Sys2Proof.Machine

open Sys2Proof

/-! ### Every port changed alike -/

theorem State.port_foldl_modPort (f : CvPort → CvPort) (q : Nat) : ∀ (l : List Nat) (s : State), l.Nodup →
    (l.foldl (fun s p => s.modPort p f) s).port q = if q ∈ l then f (s.port q) else s.port q
  | [], _, _ => rfl
  | a :: l, s, h => by
    obtain ⟨ha, hl⟩ := List.nodup_cons.mp h
    rw [List.foldl_cons, State.port_foldl_modPort f q l _ hl]
    by_cases hq : q = a
    · subst hq
      rw [if_neg ha, if_pos List.mem_cons_self, State.port_modPort]
    · rw [State.port_modPort_ne s f hq]
      simp [hq]

/-- All sixteen ports changed. -/
@[irreducible] def State.modPorts (s : State) (f : CvPort → CvPort) : State := (List.range 16).foldl (fun s p => s.modPort p f) s

/-- The model's loop over the ports. -/
theorem State.foldl_modPort (s : State) (f : CvPort → CvPort) : (List.range 16).foldl (fun s p => s.modPort p f) s = s.modPorts f := by
  rw [State.modPorts]

theorem State.port_modPorts (s : State) (f : CvPort → CvPort) {q : Nat} (h : q < 16) : (s.modPorts f).port q = f (s.port q) := by
  rw [← State.foldl_modPort]
  exact (State.port_foldl_modPort f q (List.range 16) s List.nodup_range).trans (if_pos (List.mem_range.mpr h))

theorem State.modPorts_keep {α : Type} (g : State → α) (hg : ∀ (s : State) p, g { s with ports := p } = g s) (s : State)
    (f : CvPort → CvPort) : g (s.modPorts f) = g s := by
  rw [← State.foldl_modPort]
  exact State.foldl_keep g (fun s p => s.modPort p f) (fun s p => hg s _) (List.range 16) s

/-- Two states that agree but for ports. -/
theorem State.eq_of_keep_ports {s u : State} (h : ∀ g : State → State, (∀ (s : State) p, g { s with ports := p } = g s) → g u = g s) :
    u = { s with ports := u.ports } := h (fun v => { v with ports := u.ports }) fun _ _ => rfl

theorem State.modPorts_eq (s : State) (f : CvPort → CvPort) : s.modPorts f = { s with ports := (s.modPorts f).ports } :=
  State.eq_of_keep_ports fun g hg => State.modPorts_keep g hg s f

/-! ### Taking a switch -/

theorem State.cv_modPorts (s : State) (f : CvPort → CvPort) : (s.modPorts f).cv = s.cv := State.modPorts_keep State.cv (fun _ _ => rfl) s f

theorem State.seen_prepareSwitch (s : State) (r : RecSwitch) : (s.prepareSwitch r).cv.seen = s.cv.seen := by
  unfold State.prepareSwitch
  rw [State.foldl_modPort]
  dsimp only
  rw [State.cv_modPorts]

theorem State.seen_nextSwitch (s : State) : s.nextSwitch.cv.seen = s.cv.seen := by
  unfold State.nextSwitch
  split
  · rfl
  · dsimp only
    split
    · exact State.seen_prepareSwitch _ _
    · rfl

theorem State.nextSwitch_none {s : State} (h : s.cv.waiting = []) : s.nextSwitch = s := by
  unfold State.nextSwitch
  simp only [h, List.find?_nil, ite_self]

/-- A switch that is taken has been seen. -/
theorem State.seen_takeSwitch (s : State) (r : RecSwitch) :
    (s.takeSwitch r).cv.seen = (r.team * 256 + r.epoch) :: s.cv.seen.take 127 := by
  unfold State.takeSwitch
  dsimp only
  split
  · exact State.seen_nextSwitch _
  · rfl

theorem State.takeSwitch_noImage {s : State} (h : s.image = none) (r : RecSwitch) :
    s.takeSwitch r = { s with cv := { s.cv with seen := (r.team * 256 + r.epoch) :: s.cv.seen.take 127 } } :=
  if_neg fun hc => by
    have := hc.1
    simp [h] at this

section
variable {p : Nat} {r : RecSwitch} {s : State}

theorem exec_switchRecord_seen (h : r.team * 256 + r.epoch ∈ s.cv.seen) :
    exec (.switchRecord p r) s = .next (s.tookBody (.switch r)) := congrArg Host.Outcome.next (if_pos h)

theorem exec_switchRecord_new {w : Routed} (h : r.team * 256 + r.epoch ∉ s.cv.seen)
    (hw : (s.delivered.find? fun x => decide (x.body = .switch r)) = some w) :
    exec (.switchRecord p r) s = .next (((s.tookBody (.switch r)).floodOn p w).takeSwitch r) := by
  have hd : s.deliveredAs (.switch r) = w := by
    unfold State.deliveredAs
    rw [hw]
    rfl
  rw [← hd]
  exact congrArg Host.Outcome.next (if_neg h)

end

/-- A flooded record joins the dynamic records of each other port in UP. -/
theorem State.dynq_floodOn {p q : Nat} {w : Routed} {s : State} (ht : 1 < w.ttl) (hq : q ≠ p) (hu : (s.port q).st = .up)
    (hi : s.image.isSome = true) (h16 : q < 16) :
    ((s.floodOn p w).port q).dynq = (s.port q).dynq ++ [{ w with ttl := w.ttl - 1 }] := by
  have hports : (s.dynPorts.filter fun q => decide (q ≠ p)).Nodup := by
    unfold State.dynPorts State.upPorts
    rw [if_pos hi]
    exact (List.nodup_range.filter _).filter _
  have hmem : q ∈ s.dynPorts.filter fun q => decide (q ≠ p) := by
    unfold State.dynPorts State.upPorts
    rw [if_pos hi]
    simp [h16, hu, hq]
  unfold State.floodOn
  rw [if_neg (by omega)]
  refine congrArg CvPort.dynq ((State.port_foldl_modPort (fun x => { x with dynq := x.dynq ++ [{ w with ttl := w.ttl - 1 }] }) q _ s
    hports).trans (if_pos hmem))

/-! ### Applying a switch -/

/-- The ports and the chip at the switch leg. -/
def State.switchTables (s : State) (r : RecSwitch) : State :=
  let s1 := s.modPorts fun x => x.switchTo r.alt ((s.cv.tbl + 1) % 4)
  { s1 with cv := { s1.cv with
      alt := r.alt, tbl := (s.cv.tbl + 1) % 4, open_ := decide (r.alt = 255), pending := none, epoch := r.epoch,
      switchLeg := some (s1.cv.slotCount / 1024), synced := true } }

/-- The run's alternate follows a switch to a table. -/
def State.runAlternate (s : State) (alt : Nat) : State := if alt = 255 then s else { s with recov := { s.recov with runAlt := alt } }

theorem State.applySwitch_flush {s : State} {r : RecSwitch} (hf : r.flush = true) :
    s.applySwitch r = (((s.switchTables r).modPorts CvPort.flush).runAlternate r.alt).nextSwitch := by
  unfold State.applySwitch
  simp only [hf, if_true, State.foldl_modPort]
  rfl

/-- A switch that flushes, with none waiting behind it. -/
theorem State.port_applySwitch_flush {s : State} {r : RecSwitch} (hw : s.cv.waiting = []) (hf : r.flush = true) {q : Nat} (hq : q < 16) :
    (s.applySwitch r).port q = ((s.port q).switchTo r.alt ((s.cv.tbl + 1) % 4)).flush := by
  have hwaiting : (((s.switchTables r).modPorts CvPort.flush).runAlternate r.alt).cv.waiting = [] := by
    have hrun : ∀ u : State, (u.runAlternate r.alt).cv = u.cv := fun u => by unfold State.runAlternate; split <;> rfl
    rw [hrun, State.cv_modPorts]
    exact (congrArg CvChip.waiting (State.cv_modPorts s _)).trans hw
  have hports : ∀ u : State, (u.runAlternate r.alt).port q = u.port q := fun u => by unfold State.runAlternate; split <;> rfl
  rw [State.applySwitch_flush hf, State.nextSwitch_none hwaiting, hports, State.port_modPorts _ _ hq]
  exact congrArg CvPort.flush (State.port_modPorts s _ hq)

/-- What a flush leaves of a port. -/
theorem CvPort.flush_spec (x : CvPort) :
    x.flush.tbl = x.tbl ∧ x.flush.open_ = x.open_ ∧ x.flush.queues = [] ∧ x.flush.dynq = x.dynq ∧ x.flush.cur = x.cur :=
  ⟨rfl, rfl, rfl, rfl, rfl⟩

/-- A port at the switch leg. -/
theorem CvPort.switchTo_spec (x : CvPort) (alt tbl : Nat) :
    (x.switchTo alt tbl).tbl = tbl ∧ (x.switchTo alt tbl).open_ = decide (alt = 255) ∧ (x.switchTo alt tbl).dynq = x.dynq
    ∧ (alt ≠ 255 → (x.switchTo alt tbl).cur = x.prepared.or x.cur) := by
  unfold CvPort.switchTo
  by_cases h : alt = 255
  · rw [if_pos h]
    exact ⟨rfl, (decide_eq_true h).symm, rfl, fun hn => absurd h hn⟩
  · rw [if_neg h]
    exact ⟨rfl, (decide_eq_false h).symm, rfl, fun _ => rfl⟩

theorem exec_switchLeg_due {r : RecSwitch} {s : State} (hp : s.cv.pending = some r) (hi : r.instant ≤ s.stamp.toNat)
    (hl : s.cv.slotCount % 1024 = 0) (hf : r.flush = false) : exec .switchLeg s = .next (s.applySwitch r) := by
  have hdue : s.switchDue = some r := by
    unfold State.switchDue
    rw [hp]
    exact if_pos ⟨hi, hl⟩
  change execSwitchLeg s = _
  unfold execSwitchLeg
  simp only [hdue, hf, Bool.false_eq_true, false_and, and_false, if_false]

theorem exec_previousTablesExpire_due {l : Nat} {s : State} (h : s.cv.switchLeg = some l) (hl : l + 4 ≤ s.cv.slotCount / 1024) :
    exec .previousTablesExpire s = .next (let s1 := s.modPorts fun x => { x with previous := none, prevOpen := false };
      { s1 with cv := { s1.cv with switchLeg := none } }) := by
  change execPreviousTablesExpire s = _
  unfold execPreviousTablesExpire
  rw [State.foldl_modPort]
  simp only [h]
  exact congrArg Host.Outcome.next (if_pos hl)

/-- Settles O41: a switch is flooded and taken once; the switch leg and the end of the previous tables change every port. -/
theorem switchResults : Obligations.SwitchResults := by
  unfold Obligations.SwitchResults
  intro p r s s1
  refine ⟨fun h => exec_switchRecord_seen h, fun w h hw => ⟨⟨_, exec_switchRecord_new h hw, ?_⟩, fun hi => ?_⟩,
    fun q w ht hq hu hi h16 => State.dynq_floodOn ht hq hu hi h16, fun hp hi hl hf => exec_switchLeg_due hp hi hl hf,
    fun hw hf q hq => ?_, fun l h hl => ?_⟩
  · rw [State.seen_takeSwitch]
    exact List.mem_cons_self
  · obtain ⟨ps, d, hfl⟩ := (s.tookBody (.switch r)).sentOnly_floodOn p w
    refine (exec_switchRecord_new h hw).trans (congrArg Host.Outcome.next ((State.takeSwitch_noImage ?_ r).trans ?_))
    · rw [hfl]
      exact hi
    · rw [hfl]
      change _ = ({ (s.tookBody (.switch r)).floodOn p w with
        cv := { s.cv with seen := (r.team * 256 + r.epoch) :: s.cv.seen.take 127 } } : State)
      rw [hfl]
      rfl
  · intro x y
    obtain ⟨htbl, hopen, hdyn, hcur⟩ := x.switchTo_spec r.alt ((s.cv.tbl + 1) % 4)
    obtain ⟨hftbl, hfopen, hfq, hfdyn, hfcur⟩ := (x.switchTo r.alt ((s.cv.tbl + 1) % 4)).flush_spec
    have hy : y = (x.switchTo r.alt ((s.cv.tbl + 1) % 4)).flush := State.port_applySwitch_flush hw hf hq
    rw [hy]
    exact ⟨hftbl.trans htbl, hfopen.trans hopen, hfq, hfdyn.trans hdyn, fun ha => hfcur.trans (hcur ha)⟩
  · have hm := s.modPorts_eq fun x => { x with previous := none, prevOpen := false }
    refine ⟨_, exec_previousTablesExpire_due h hl, ?_, ?_, fun q hq => State.port_modPorts s _ hq⟩
    · exact congrArg (fun c : CvChip => { c with switchLeg := none }) (State.cv_modPorts s _)
    · dsimp only
      rw [hm]

end Sys2Proof.Machine
end


section
/-! Depots: scrub, migration and the die-to-die port (10_depots.md). -/

namespace Sys2Proof.Machine

open Sys2Proof

/-! ### A depot and its stacks -/

@[simp] theorem State.depot_modDepot (s : State) (d : Nat) (f : Depot → Depot) : (s.modDepot d f).depot d = f (s.depot d) :=
  SMap.get_set_self s.depots d _ {}

theorem State.modDepot_modDepot (s : State) (d : Nat) (f g : Depot → Depot) :
    (s.modDepot d f).modDepot d g = s.modDepot d fun x => g (f x) := by
  rw [State.modDepot, State.depot_modDepot]
  unfold State.modDepot
  simp only [SMap.set_set]

@[simp] theorem State.stack_modStack (s : State) (d k : Nat) (f : Stack → Stack) :
    ((s.modStack d k f).depot d).stack k = f ((s.depot d).stack k) := by
  unfold State.modStack
  rw [State.depot_modDepot]
  exact SMap.get_set_self (s.depot d).hbmStacks k _ {}

theorem State.err_modStack (s : State) (d k : Nat) (f : Stack → Stack) : ((s.modStack d k f).depot d).err = (s.depot d).err := by
  unfold State.modStack
  rw [State.depot_modDepot]

/-! ### Detections -/

/-- A request for a migration is about the queue of migrations. -/
theorem State.wantMigration_eq (s : State) (seg : Nat) : ∃ q, s.wantMigration seg = { s with hbm := { s.hbm with migQueue := q } } := by
  unfold State.wantMigration
  split
  · exact ⟨s.hbm.migQueue, rfl⟩
  · exact ⟨_, rfl⟩

/-- A segment in one place is queued. -/
theorem State.mem_wantMigration {s : State} {seg : Nat} (h : entState (s.mapEntry seg) = 1) : seg ∈ (s.wantMigration seg).hbm.migQueue := by
  unfold State.wantMigration
  split
  · next hc => exact hc.resolve_left (by omega)
  · exact List.mem_append_right _ List.mem_cons_self

/-- What a read of a unit finds is recorded; the bytes and the map stay. -/
theorem State.hbm_ueDetect (s : State) (seg : Nat) (r : HRow) (u : Nat) (marks : Bool) :
    ∃ q, (s.ueDetect seg r u marks).hbm = { s.hbm with migQueue := q } := by
  unfold State.ueDetect
  dsimp only
  split
  all_goals
    obtain ⟨q, hq⟩ := State.wantMigration_eq _ seg
    rw [hq]
    exact ⟨q, rfl⟩

theorem State.hbm_ceCount (s : State) (seg : Nat) (r : HRow) :
    ∃ q c, (s.ceCount seg r).hbm = { s.hbm with migQueue := q, corrected := c } := by
  unfold State.ceCount
  dsimp only
  split
  · obtain ⟨q, hq⟩ := State.wantMigration_eq _ seg
    rw [hq]
    exact ⟨q, _, rfl⟩
  · exact ⟨_, _, rfl⟩

theorem State.hbm_codeCheck (s : State) (seg : Nat) (r : HRow) (u : Nat) (marks : Bool) :
    ∃ q c, (s.codeCheck seg r u marks).hbm = { s.hbm with migQueue := q, corrected := c } := by
  unfold State.codeCheck
  dsimp only
  split
  · obtain ⟨q, hq⟩ := s.hbm_ueDetect seg r u marks
    exact ⟨q, s.hbm.corrected, hq⟩
  · split
    · exact s.hbm_ceCount seg r
    · exact ⟨_, _, rfl⟩

/-- The depot's record of an uncorrectable unit. -/
theorem State.depot_ueDetect (s : State) (seg : Nat) (r : HRow) (u : Nat) (marks : Bool) :
    ((s.ueDetect seg r u marks).depot (seg % 4)).err.hbmUe = true
    ∧ (((s.ueDetect seg r u marks).depot (seg % 4)).stack r.stack).ue = ((s.depot (seg % 4)).stack r.stack).ue + 1 := by
  have hwant : ∀ u : State, (u.wantMigration seg).depots = u.depots := fun u => by
    obtain ⟨q, hq⟩ := u.wantMigration_eq seg
    rw [hq]
  unfold State.ueDetect State.depot
  simp only [hwant]
  cases marks <;> exact ⟨by simp [State.modDepot, State.mark], by simp [State.modDepot, State.mark, Depot.stack, State.depot]⟩

theorem State.migQueue_ueDetect {s : State} {seg : Nat} (r : HRow) (u : Nat) (marks : Bool) (h : entState (s.mapEntry seg) = 1) :
    seg ∈ (s.ueDetect seg r u marks).hbm.migQueue := by
  unfold State.ueDetect
  dsimp only
  split
  all_goals exact State.mem_wantMigration h

/-! ### Scrub -/

section
variable {d k seg : Nat} {s : State}

/-- A pass over a segment's row. -/
def State.scrubbed (s : State) (d seg : Nat) (r : HRow) : State :=
  s.modStack d r.stack fun k =>
    let done := (k.scrubbed.filter fun x => decide (x ≠ seg)) ++ [seg]
    if (s.stackSegs d r.stack).all fun x => decide (x ∈ done) then { k with scrubs := k.scrubs + 1, scrubbed := [] }
    else { k with scrubbed := done }

theorem exec_scrub_clean (hm : entMapped (s.mapEntry seg) = true) (hd : seg % 4 = d)
    (hu : unitsIn s.hbm.ue (rowKey d (entRow (s.mapEntry seg))) = []) (hc : unitsIn s.hbm.ce (rowKey d (entRow (s.mapEntry seg))) = []) :
    exec (.scrub d seg) s = .next (s.scrubbed d seg (entRow (s.mapEntry seg))) := by
  refine congrArg Host.Outcome.next ((if_neg (by simp [hm, hd])).trans ?_)
  dsimp only
  rw [hu, hc]
  rfl

theorem exec_scrub_ue {v : Nat} (hm : entMapped (s.mapEntry seg) = true) (hd : seg % 4 = d)
    (hu : unitsIn s.hbm.ue (rowKey d (entRow (s.mapEntry seg))) = [v]) (hc : unitsIn s.hbm.ce (rowKey d (entRow (s.mapEntry seg))) = []) :
    exec (.scrub d seg) s = .next ((s.ueDetect seg (entRow (s.mapEntry seg)) v true).scrubbed d seg (entRow (s.mapEntry seg))) := by
  refine congrArg Host.Outcome.next ((if_neg (by simp [hm, hd])).trans ?_)
  dsimp only
  rw [hu, hc]
  rfl

theorem State.ue_scrubbed (s : State) (d seg : Nat) (r : HRow) :
    (((s.scrubbed d seg r).depot d).stack r.stack).ue = ((s.depot d).stack r.stack).ue := by
  rw [State.scrubbed, State.stack_modStack]
  dsimp only
  split <;> rfl

/-! ### Migration -/

/-- The spare rows do not depend on what waits to migrate. -/
theorem Hbm.pickSpare_migQueue (h : Hbm) (q : List Nat) (d : Nat) : Hbm.pickSpare { h with migQueue := q } d = h.pickSpare d := by
  have hleft : Hbm.poolLeft { h with migQueue := q } d = h.poolLeft d := rfl
  unfold Hbm.pickSpare
  rw [hleft]

/-- A migration takes its row: the entry's state and the row that is taken. -/
def State.takesRow (s : State) (seg : Nat) (dst : HRow) : State :=
  { s with hbm := { s.hbm with
      migQueue := s.hbm.migQueue.erase seg, map := s.hbm.map.set seg (entWith (s.mapEntry seg) 2 dst (entRow (s.mapEntry seg))),
      taken := s.hbm.taken.set (rowKey (seg % 4) dst) true } }

/-- A migration begins. -/
def State.beginMigration (s : State) (seg : Nat) (dst : HRow) : State :=
  (s.takesRow seg dst).modStack (seg % 4) (entRow (s.mapEntry seg)).stack fun x =>
    { x with mig := some ⟨seg, entRow (s.mapEntry seg), dst, 0, false⟩ }

theorem exec_migrationStart_row {dst : HRow} (he : entState (s.mapEntry seg) = 1)
    (hg : ((s.depot (seg % 4)).stack (entRow (s.mapEntry seg)).stack).mig = none) (hp : s.hbm.pickSpare (seg % 4) = some dst) :
    ∃ n, exec (.migrationStart seg) s = .next ((s.beginMigration seg dst).record n) := by
  refine ⟨(s.takesRow seg dst).entry 8 1 s.position s.step (BitVec.ofNat 64 (Place.word (.hbm (seg % 4)
    (entRow (s.mapEntry seg)).stack (entRow (s.mapEntry seg)).chan (entRow (s.mapEntry seg)).row 0))),
    congrArg Host.Outcome.next ((if_neg (not_not_intro he)).trans ((if_neg (by simp [hg])).trans ?_))⟩
  dsimp only
  rw [Hbm.pickSpare_migQueue, hp]
  rfl

theorem exec_migrationCopy_unit {m : Migration} (hm : ((s.depot d).stack k).mig = some m) (hs : m.switched = false) (hu : m.units < 8192) :
    exec (.migrationCopy d k) s = .next (
      let s1 := s.codeCheck m.seg m.src m.units true
      ({ s1 with
        hbm := s1.hbm.writeUnit (unitKey d m.dst m.units) 0 (s1.hbm.unitBytes (unitKey d m.src m.units))
          (s1.hbm.unitPoison (unitKey d m.src m.units)) }).modStack d k fun x => { x with mig := some { m with units := m.units + 1 } }) := by
  change execMigrationCopy d k s = _
  unfold execMigrationCopy
  simp only [hm]
  refine congrArg Host.Outcome.next (if_neg ?_)
  rintro (hc | hc)
  · exact Bool.false_ne_true (hs.symm.trans hc)
  · omega

theorem exec_migrationComplete_all {m : Migration} (hm : ((s.depot d).stack k).mig = some m) (hs : m.switched = false)
    (hu : 8192 ≤ m.units) (hh : s.hbm.heldReply = none) :
    exec (.migrationComplete d k) s = .next (
      ({ s with
        hbm := { s.hbm with
          map := s.hbm.map.set m.seg (entWith (s.mapEntry m.seg) 1 ⟨0, 0, 0⟩ m.dst), corrected := s.hbm.corrected.erase m.seg } }).modStack
        d k fun x => { x with mig := some { m with switched := true } }) := by
  have hresume : ∀ u : State, u.hbm.heldReply = none → u.mapResume = u := fun u h => by
    unfold State.mapResume
    rw [h]
  change execMigrationComplete d k s = _
  unfold execMigrationComplete
  simp only [hm]
  refine congrArg Host.Outcome.next ((if_neg ?_).trans (hresume _ hh))
  rintro (hc | hc)
  · exact Bool.false_ne_true (hs.symm.trans hc)
  · omega

/-- A migration is over: the source row is retired. -/
def State.retireRow (s : State) (d k : Nat) (r : HRow) : State :=
  ({ s with hbm := { s.hbm with retired := s.hbm.retired.set (rowKey d r) true } }).modStack d k fun x =>
    { x with mig := none, migrations := x.migrations + 1 }

theorem exec_rowRetire_switched {m : Migration} (hm : ((s.depot d).stack k).mig = some m) (hs : m.switched = true) :
    ∃ n, exec (.rowRetire d k) s = .next ((s.retireRow d k m.src).record n) := by
  change ∃ n, execRowRetire d k s = _
  unfold execRowRetire
  simp only [hm]
  exact ⟨_, congrArg Host.Outcome.next (if_pos hs)⟩

end

/-- An entry of the ledger leaves HBM and the depots. -/
theorem State.record_eq (s : State) (e : LedgerEntry) : ∃ rc o h t p dl,
    s.record e = { s with recov := rc, out := o, hports := h, tether := t, ports := p, delivered := dl } := by
  obtain ⟨l, n, o, h, t, p, dl, hr⟩ := s.toldOnly_record e
  exact ⟨_, o, h, t, p, dl, hr⟩

theorem State.depot_record (s : State) (e : LedgerEntry) (d : Nat) : (s.record e).depot d = s.depot d := by
  obtain ⟨rc, o, h, t, p, dl, hr⟩ := s.record_eq e
  rw [hr]
  rfl

theorem exec_d2dModuleLost (d : Nat) (s : State) :
    exec (.d2dModuleLost d) s = .next (
      let s1 := s.modDepot d fun x => { x with modules := x.modules - 1, err := { x.err with d2dModuleLost := true } }
      if (s.depot d).modules - 1 < 56 then s1.notify 12 (BitVec.ofNat 64 d) else s1) := by
  change execD2dModuleLost d s = _
  unfold execD2dModuleLost
  dsimp only
  rw [State.depot_modDepot]

/-- Settles O42: each step of scrub and migration changes one stack and its rows, and a ledger entry leaves them. -/
theorem depotResults : Obligations.DepotResults := by
  unfold Obligations.DepotResults
  intro d k seg s e src x put
  refine ⟨fun hm hd hu hc => ?scrub, fun v hm hd hu hc => ?uncorrectable, fun dst he hg hp => ?start, fun m hm hs hu hw => ?copy,
    fun m hm hs hu hh => ?complete, fun m hm hs => ?retire, fun hd => congrArg Host.Outcome.next (if_pos hd), rfl, ?poisoned, ?lost⟩
  case scrub =>
    intro st done all
    have hiff : ((s.stackSegs d src.stack).all fun g => decide (g ∈ done)) = true ↔ all := by simp [all]
    have hput : ∀ g : Stack, exec (.scrub d seg) s = .next (put { x with hbmStacks := x.hbmStacks.set src.stack g })
        ↔ s.scrubbed d seg src = put { x with hbmStacks := x.hbmStacks.set src.stack g } := fun g => by
      rw [exec_scrub_clean hm hd hu hc]
      exact ⟨Host.Outcome.next.inj, congrArg _⟩
    refine ⟨fun ha => (hput _).mpr ?_, fun ha => (hput _).mpr ?_⟩
    · exact congrArg (fun g => put { x with hbmStacks := x.hbmStacks.set src.stack g }) (if_pos (hiff.mpr ha))
    · exact congrArg (fun g => put { x with hbmStacks := x.hbmStacks.set src.stack g }) (if_neg fun hc => ha (hiff.mp hc))
  case uncorrectable =>
    subst hd
    obtain ⟨herr, hue⟩ := s.depot_ueDetect seg src v true
    refine ⟨_, exec_scrub_ue hm rfl hu hc, (State.ue_scrubbed _ _ _ _).trans hue, ?_, fun he => State.migQueue_ueDetect src v true he,
      State.ueDetect_bytes s seg src v true⟩
    exact (congrArg DepotErr.hbmUe (State.err_modStack _ _ _ _)).trans herr
  case start =>
    obtain ⟨n, hn⟩ := exec_migrationStart_row he hg hp
    refine ⟨_, hn, ?_, ?_, ?_, ?_, ?_, fun g hg => ?_, ?_⟩
    · rw [State.mapEntry, State.record_hbm]
      exact SMap.get_set_self s.hbm.map seg _ 0
    · rw [State.record_hbm]
      exact SMap.get_set_self s.hbm.taken _ true false
    · rw [State.depot_record]
      exact congrArg Stack.mig (State.stack_modStack _ (seg % 4) src.stack _)
    · rw [State.record_hbm]
      rfl
    · rw [State.record_hbm]
      rfl
    · rw [State.mapEntry, State.record_hbm]
      exact SMap.get_set_ne s.hbm.map _ 0 hg
    · obtain ⟨rc, o, h, t, p, dl, hr⟩ := State.record_eq (s.beginMigration seg dst) n
      rw [hr]
      rfl
  case copy =>
    have honly := State.HbmOnly.codeCheck s m.seg m.src m.units true
    have hbytes := State.codeCheck_bytes s m.seg m.src m.units true
    obtain ⟨q, c, hh⟩ := s.hbm_codeCheck m.seg m.src m.units true
    have hwf : Memory.wf (s.codeCheck m.seg m.src m.units true).hbm.bytes = true := by rw [hbytes]; exact hw
    have hunit : ∀ k, (s.codeCheck m.seg m.src m.units true).hbm.unitBytes k = s.hbm.unitBytes k := fun k => by
      unfold Hbm.unitBytes
      rw [hbytes]
    have hlen : ∀ k, ((s.codeCheck m.seg m.src m.units true).hbm.unitBytes k).length = 64 := fun k => by simp [Hbm.unitBytes]
    refine ⟨_, exec_migrationCopy_unit hm hs hu, congrArg Stack.mig (State.stack_modStack _ d k _), ?_, ?_, ?_, fun a ha => ?_⟩
    · exact (Hbm.unitBytes_writeUnit _ _ hwf (hlen _)).trans (hunit _)
    · change (s.codeCheck m.seg m.src m.units true).hbm.map = s.hbm.map
      rw [hh]
    · exact State.HbmOnly.trans honly (show State.HbmOnly (s.codeCheck m.seg m.src m.units true) _ from rfl)
    · exact (Hbm.get_writeUnit_ne _ hwf (hlen _) ha).trans (by rw [hbytes])
  case complete =>
    exact ⟨_, exec_migrationComplete_all hm hs hu hh, SMap.get_set_self s.hbm.map m.seg _ 0,
      congrArg Stack.mig (State.stack_modStack _ d k _), rfl, fun g hg => SMap.get_set_ne s.hbm.map _ 0 hg, rfl⟩
  case retire =>
    obtain ⟨n, hn⟩ := exec_rowRetire_switched hm hs
    refine ⟨_, hn, ?_, ?_, ?_, ?_, ?_⟩
    · rw [State.record_hbm]
      exact SMap.get_set_self s.hbm.retired _ true false
    · rw [State.depot_record]
      exact congrArg Stack.mig (State.stack_modStack _ d k _)
    · rw [State.depot_record]
      exact congrArg Stack.migrations (State.stack_modStack _ d k _)
    · rw [State.record_hbm]
      rfl
    · obtain ⟨rc, o, h, t, p, dl, hr⟩ := State.record_eq (s.retireRow d k m.src) n
      rw [hr]
      rfl
  case poisoned =>
    refine congrArg (fun u : State => Host.Outcome.next (u.mark (.d2d d))) (State.modDepot_modDepot s d _ _)
  case lost =>
    refine ⟨fun h => (exec_d2dModuleLost d s).trans (congrArg Host.Outcome.next (if_neg ?_)),
      fun h => (exec_d2dModuleLost d s).trans (congrArg Host.Outcome.next (if_pos ?_))⟩
    · change ¬ x.modules - 1 < 56
      omega
    · change x.modules - 1 < 56
      omega

end Sys2Proof.Machine
end


section
/-! The time tree and the reference clocks (08_clocks_time.md). -/

namespace Sys2Proof.Machine

open Sys2Proof

/-! ### Waypoints -/

/-- The trim stays within 100 ppm. -/
theorem natAbs_trimOf (drift theta : Int) : (trimOf drift theta).natAbs ≤ 100000 := by
  unfold trimOf
  omega

section
variable {s : State} {w : RecWaypoint} {p : Nat}

/-- What the parent's stamps give. -/
theorem State.steer_spec (s : State) (w : RecWaypoint) (t4 : Nat) :
    let theta : Int := (((w.t2 : Int) - w.t1) - ((t4 : Int) - w.t3)) / 2
    let u := s.steer w t4
    u = { s with clock := u.clock } ∧ u.clock.offset = theta ∧ u.clock.trim.natAbs ≤ 100000 ∧ u.clock.hops = w.hops + 1
    ∧ (256 < theta.natAbs → u.clock.calm = 0) ∧ (theta.natAbs ≤ 256 → u.clock.calm = s.clock.calm + 1)
    ∧ ((s.image.isSome = true ∨ s.clock.joined = true ∨ theta.natAbs ≤ 256000) → u.clock.gtc = s.clock.gtc)
    ∧ (s.mayStep = true → 256000 < theta.natAbs → u.clock.gtc = (((s.clock.gtc : Int) + theta) % 2 ^ 72).toNat ∧ u.clock.stepped = true) := by
  intro theta u
  refine ⟨rfl, rfl, natAbs_trimOf _ _, rfl, fun h => if_neg (by omega), fun h => if_pos h, fun h => if_neg ?_, fun hm h => ⟨if_pos ?_, ?_⟩⟩
  · unfold State.mayStep
    rcases h with h | h | h
    · cases hi : s.image with
      | none => simp [hi] at h
      | some m => simp
    · simp [h]
    · intro hc
      simp only [Bool.and_eq_true, decide_eq_true_eq] at hc
      exact Nat.not_lt.mpr h hc.2
  · simp only [Bool.and_eq_true, decide_eq_true_eq]
    exact ⟨hm, h⟩
  · change (s.clock.stepped || (s.mayStep && decide (256000 < theta.natAbs))) = true
    rw [hm, decide_eq_true h]
    simp

/-- The port with a waypoint's stamps. -/
def State.stamped (s : State) (p : Nat) (w : RecWaypoint) : State :=
  (s.tookBody (.waypoint w)).modPort p fun x => { x with wpT3 := w.t3, wpArrival := s.clock.localGtc (13 + p) }

theorem exec_waypointRecord_parent (h1 : s.clock.hasParent = true) (h2 : s.clock.root = false) (h3 : s.clock.parentPort.toNat = p)
    (h4 : w.t1 ≠ 0 ∨ w.t2 ≠ 0) :
    exec (.waypointRecord p w) s = .next ((s.stamped p w).steer w (s.clock.localGtc (13 + p))) :=
  congrArg Host.Outcome.next (if_pos (And.intro h1 (And.intro ((Bool.not_eq_true' _).mpr h2) (And.intro h3 (by omega)))))

theorem exec_waypointRecord_other (h : s.clock.hasParent = false ∨ s.clock.root = true ∨ s.clock.parentPort.toNat ≠ p ∨ (w.t1 = 0 ∧ w.t2 = 0)) :
    exec (.waypointRecord p w) s = .next (s.stamped p w) := by
  refine congrArg Host.Outcome.next (if_neg ?_)
  rintro ⟨h1, h2, h3, h4⟩
  rcases h with h | h | h | h
  · exact Bool.false_ne_true (h.symm.trans h1)
  · exact Bool.false_ne_true (((Bool.not_eq_true' _).mp h2).symm.trans h)
  · exact h h3
  · exact h4 h

/-! ### The parent and the reference clocks -/

/-- The chip looks for another parent among its alternates. -/
def State.nextParent (s : State) : State :=
  let alt := s.clock.alternates.find? fun p => decide ((s.port p).st = .up)
  { s with clock :=
    { s.clock with
      parentLost := true, calm := 0, hasParent := alt.isSome,
      parentPort := match alt with
        | some p => BitVec.ofNat 4 p
        | none => s.clock.parentPort,
      alternates := match alt with
        | some p => s.clock.alternates.filter fun q => decide (q ≠ p)
        | none => s.clock.alternates } }

theorem exec_parentLost (h1 : s.clock.hasParent = true) (h2 : s.clock.root = false) :
    exec .parentLost s = .next s.nextParent.clockEvent := by
  refine congrArg Host.Outcome.next ((if_pos ⟨h1, by simp [h2]⟩).trans (congrArg State.clockEvent ?_))
  unfold State.nextParent
  cases s.clock.alternates.find? fun p => decide ((s.port p).st = .up) <;> rfl

end

/-- What a recorded clock event leaves, said apart from the clock. -/
theorem State.clockEvent_eq (s : State) : ∃ o h e, s.clockEvent = { s with out := o, hports := h, tether := e } :=
  State.saidOnly_clockEvent s

section
variable {s : State}

theorem exec_referenceLost_switch (h1 : s.clock.active = false) (h2 : s.clock.holdover = false) (h3 : s.clock.bOk = true) :
    exec (.referenceLost false) s
      = .next (({ s with
          clock := { s.clock with aOk := false, aLost := true } } : State).refSwitch true) := by
  change execReferenceLost false s = _
  simp [execReferenceLost, Clock.setRef, Clock.refOk, h1, h2, h3]

theorem exec_referenceLost_holdover (h1 : s.clock.active = false) (h2 : s.clock.holdover = false) (h3 : s.clock.bOk = false) :
    exec (.referenceLost false) s
      = .next (({ s with
          clock := { s.clock with aOk := false, aLost := true, holdover := true } } : State).clockEvent) := by
  change execReferenceLost false s = _
  simp [execReferenceLost, Clock.setRef, Clock.refOk, h1, h2, h3]

theorem exec_referenceLost_unfollowed (h : s.clock.active = true) :
    exec (.referenceLost false) s
      = .next { s with
          clock := { s.clock with aOk := false, aLost := true } } := by
  change execReferenceLost false s = _
  simp [execReferenceLost, Clock.setRef, h]

theorem Clock.refOk_setRef (c : Clock) (b ok : Bool) : (c.setRef b ok).refOk b = ok := by
  cases b <;> rfl

theorem Clock.setRef_active (c : Clock) (b ok : Bool) : (c.setRef b ok).active = c.active := by
  cases b <;> rfl

theorem Clock.setRef_holdover (c : Clock) (b ok : Bool) : (c.setRef b ok).holdover = c.holdover := by
  cases b <;> rfl

theorem Clock.setRef_gtc (c : Clock) (b ok : Bool) : (c.setRef b ok).gtc = c.gtc := by
  cases b <;> rfl

/-- The clock after a holdover whose followed input is good again. -/
def State.refBack (s : State) : State :=
  { s with
    clock := { s.clock.setRef s.clock.active true with holdover := false } }

theorem exec_referenceGood_back (h : s.clock.holdover = true) :
    exec (.referenceGood s.clock.active) s = .next s.refBack.clockEvent :=
  congrArg Host.Outcome.next ((if_pos ((Clock.setRef_holdover _ _ _).trans h)).trans (if_pos (Clock.setRef_active _ _ _)))

/-- A switch is about the clock and what is said of it. -/
theorem State.refSwitch_eq (s : State) (b : Bool) : ∃ o h e, s.refSwitch b = { s with
    clock := { s.clock with active := b, holdover := false, refSwitches := s.clock.refSwitches + 1 }
    out := o, hports := h, tether := e } :=
  State.clockEvent_eq _

end

/-- Settles O44: each command of the time tree and the reference clocks has its equation; a recorded clock event touches
outputs, host ports and the tether only. -/
theorem clockResults : Obligations.ClockResults := by
  unfold Obligations.ClockResults
  intro s c said
  refine ⟨fun region => ⟨_, rfl, ?beacon, rfl⟩, rfl, fun p hp => congrArg Host.Outcome.next (if_pos hp), fun p w => ?waypoint, fun h1 h2 => ?parent,
    fun h1 h2 => congrArg Host.Outcome.next (if_neg ?settled), fun h1 h2 h3 => ?switch, fun h1 h2 h3 => ?hold, fun h1 _ => exec_referenceLost_unfollowed h1,
    fun h => ?back, fun h => ⟨fun hb => ?select, fun hb => congrArg Host.Outcome.next (if_neg ?keep)⟩, fun h => congrArg Host.Outcome.next (if_pos h)⟩
  case beacon =>
    change (c.regionErr.get region 0
      + (c.regionAdj.set region (((Config.freeValue s.freeCtr % 1025 : Nat) : Int) - 512 - c.regionErr.get region 0)).get region 0).natAbs ≤ 512
    rw [SMap.get_set_self]
    omega
  case waypoint =>
    intro s1 t4 s2 theta
    refine ⟨fun h1 h2 h3 h4 => ?_, fun h => exec_waypointRecord_other h⟩
    exact ⟨_, exec_waypointRecord_parent h1 h2 h3 h4, State.steer_spec (s.stamped p w) w t4⟩
  case parent =>
    obtain ⟨o, hp, e, he⟩ := s.nextParent.clockEvent_eq
    refine ⟨_, (exec_parentLost h1 h2).trans (congrArg Host.Outcome.next he), rfl, ?_, rfl, rfl⟩
    exact List.isSome_find?
  case settled =>
    rintro (hc | hc)
    · exact Bool.false_ne_true (h1.symm.trans hc)
    · exact Bool.false_ne_true (h2.symm.trans hc)
  case switch =>
    obtain ⟨o, hp, e, he⟩ := State.refSwitch_eq ({ s with
      clock := { c with aOk := false, aLost := true } } : State) true
    exact ⟨_, (exec_referenceLost_switch h1 h2 h3).trans (congrArg Host.Outcome.next he), rfl, rfl⟩
  case hold =>
    obtain ⟨o, hp, e, he⟩ := ({ s with
      clock := { c with aOk := false, aLost := true, holdover := true } } : State).clockEvent_eq
    exact ⟨_, (exec_referenceLost_holdover h1 h2 h3).trans (congrArg Host.Outcome.next he), rfl, rfl⟩
  case back =>
    obtain ⟨o, hp, e, he⟩ := s.refBack.clockEvent_eq
    exact ⟨_, (exec_referenceGood_back h).trans (congrArg Host.Outcome.next he), rfl, Clock.setRef_active _ _ _,
      Clock.refOk_setRef _ _ _, rfl, Clock.setRef_gtc _ _ _⟩
  case select =>
    have hok : s.clock.refOk (!s.clock.active) = true := by rw [show s.clock.active = false from h]; exact hb
    obtain ⟨o, hp, e, he⟩ := s.refSwitch_eq true
    refine ⟨_, congrArg Host.Outcome.next ((if_pos hok).trans (Eq.trans ?_ he)), rfl, rfl⟩
    rw [show s.clock.active = false from h]
    rfl
  case keep =>
    rw [show s.clock.active = false from h]
    exact fun hc => Bool.false_ne_true (hb.symm.trans hc)

end Sys2Proof.Machine
end


section
/-! Operating points and ceilings (08_clocks_time.md, 13_base_camp.md). -/

namespace Sys2Proof.Machine

open Sys2Proof

/-! ### A copy of a change already taken

`execFreqRecord` evaluates the ceiling after every record, a copy of a known change included, so such a record changes the
state where the ceiling recorded is not the one that stands. -/

/-- A chip at point 0 since 0 ns whose throttle is at point 1 while its recorded ceiling is still point 0. -/
def throttledSlow : State :=
  { State.reset with
    power := { thermal := 1 }
    clock := { root := false } }

theorem throttledSlow_knows : throttledSlow.clock.knows 0 0 = true := by decide

/-- The copy of the change brings the ceiling up to date. -/
theorem execFreqRecord_copy_refreshes : ∃ u, exec (.freqRecord 0 0) throttledSlow = .next u ∧ u.power.ceiling = 1 :=
  ⟨_, rfl, by decide⟩

/-- Refutes O45: a known change is said to leave the state but for its record, and the model evaluates the ceiling as well. -/
theorem not_operatingPointResults : ¬ Obligations.OperatingPointResults := by
  unfold Obligations.OperatingPointResults
  intro h
  obtain ⟨hfreq, -⟩ := h throttledSlow
  obtain ⟨hcopy, -⟩ := hfreq 0 0
  obtain ⟨u, hu, hc⟩ := execFreqRecord_copy_refreshes
  cases hu.symm.trans (hcopy throttledSlow_knows)
  exact absurd hc (by decide)

end Sys2Proof.Machine
end


section
/-! Power, wear and telemetry (13_base_camp.md). -/

namespace Sys2Proof.Machine

open Sys2Proof

/-! ### Entries changed one after another -/

/-- Each listed entry is changed as its index says. -/
theorem SMap.get_foldl_updAt {α : Type} (d : α) (f : Nat → α → α) (x : Nat) :
    ∀ (l : List Nat) (m : SMap α), l.Nodup →
      SMap.get (l.foldl (fun m a => SMap.upd m a d (f a)) m) x d = if x ∈ l then f x (SMap.get m x d) else SMap.get m x d
  | [], _, _ => rfl
  | a :: l, m, h => by
    obtain ⟨ha, hl⟩ := List.nodup_cons.mp h
    rw [List.foldl_cons, SMap.get_foldl_updAt d f x l _ hl]
    by_cases hx : x = a
    · subst hx
      rw [if_neg ha, if_pos List.mem_cons_self, SMap.get_upd_self]
    · rw [SMap.get_upd_ne m d (f a) hx]
      simp [hx]

theorem SMap.get_foldl_updAt_range {α : Type} {n x : Nat} (h : x < n) (d : α) (f : Nat → α → α) (m : SMap α) :
    SMap.get ((List.range n).foldl (fun m a => SMap.upd m a d (f a)) m) x d = f x (SMap.get m x d) :=
  (SMap.get_foldl_updAt d f x _ m List.nodup_range).trans (if_pos (List.mem_range.mpr h))

theorem State.stack_modStack_ne (s : State) {a b d k : Nat} (f : Stack → Stack) (h : d ≠ a ∨ k ≠ b) :
    ((s.modStack a b f).depot d).stack k = (s.depot d).stack k := by
  by_cases hd : d = a
  · subst hd
    unfold State.modStack
    rw [State.depot_modDepot]
    exact SMap.get_set_ne (s.depot d).hbmStacks _ {} (h.resolve_left fun hn => hn rfl)
  · exact congrArg (Depot.stack · k) (SMap.get_set_ne s.depots _ {} hd)

/-- The stacks of the listed numbers, five to a depot, changed one after another. -/
theorem State.stack_foldl_modStack (f : Nat → Stack → Stack) {d k : Nat} (hk : k < 5) : ∀ (l : List Nat) (s : State), l.Nodup →
    ((l.foldl (fun s n => s.modStack (n / 5) (n % 5) (f n)) s).depot d).stack k
      = if 5 * d + k ∈ l then f (5 * d + k) ((s.depot d).stack k) else (s.depot d).stack k
  | [], _, _ => rfl
  | n :: l, s, h => by
    obtain ⟨hn, hl⟩ := List.nodup_cons.mp h
    rw [List.foldl_cons, State.stack_foldl_modStack f hk l _ hl]
    by_cases hx : 5 * d + k = n
    · subst hx
      have h1 : (5 * d + k) / 5 = d := by omega
      have h2 : (5 * d + k) % 5 = k := by omega
      rw [if_neg hn, if_pos List.mem_cons_self, h1, h2, State.stack_modStack]
    · rw [State.stack_modStack_ne s (f n) (by omega)]
      simp [hx]

/-! ### Sensors and token meters -/

section
variable {s : State}

theorem exec_powerSample (avs0 avs1 : List Nat) : ∃ w, exec (.powerSample avs0 avs1) s = .next ({ s with power := w } : State).readRails
    ∧ (let now := (((avs0.getD 0 0 :: avs0.getD 1 0 :: avs1).zipWith (· * ·) s.power.railVolts).foldl (· + ·) 0) / 100
      let l := (now :: s.power.powerSamples).take 100
      w = { s.power with
        coreCurrent := avs0.getD 0 0, depCurrent := avs0.getD 1 0, powerSamples := l, packagePower := l.foldl (· + ·) 0 / l.length }) :=
  ⟨_, rfl, rfl⟩

end

/-- The three readings of a rail. -/
def railReads (r : Nat) : List Output := [.avs r .readCurrent, .avs r .readTemperature, .avs r .readStatus]

/-- A rail's readings are taken. -/
def State.readRail (s : State) (r : Nat) : State := ((s.emit (.avs r .readCurrent)).emit (.avs r .readTemperature)).emit (.avs r .readStatus)

theorem State.mem_out_readRail {s : State} {r : Nat} {o : Output} (h : o ∈ s.out ∨ o ∈ railReads r) : o ∈ (s.readRail r).out := by
  unfold State.readRail State.emit
  simp only [railReads, List.mem_cons, List.not_mem_nil, or_false] at h
  simp only [List.mem_cons]
  tauto

theorem State.mem_out_foldl_readRail (o : Output) : ∀ (l : List Nat) (s : State), (o ∈ s.out ∨ ∃ r ∈ l, o ∈ railReads r) →
    o ∈ (l.foldl State.readRail s).out
  | [], _, h => h.elim id fun ⟨_, hr, _⟩ => absurd hr List.not_mem_nil
  | a :: l, s, h => by
    rw [List.foldl_cons]
    refine State.mem_out_foldl_readRail o l _ ?_
    rcases h with h | ⟨r, hr, ho⟩
    · exact .inl (State.mem_out_readRail (.inl h))
    · rcases List.mem_cons.mp hr with rfl | hr
      · exact .inl (State.mem_out_readRail (.inr ho))
      · exact .inr ⟨r, hr, ho⟩

theorem State.keep_foldl_readRail {α : Type} (g : State → α) (hg : ∀ (s : State) o, g { s with out := o } = g s) (l : List Nat) (s : State) :
    g (l.foldl State.readRail s) = g s :=
  State.foldl_keep g State.readRail (fun s _ => hg s _) l s

/-- Two states that agree but for outputs. -/
theorem State.eq_of_keep_out {s u : State} (h : ∀ g : State → State, (∀ (s : State) o, g { s with out := o } = g s) → g u = g s) :
    u = { s with out := u.out } := h (fun v => { v with out := u.out }) fun _ _ => rfl

/-- The readings of every rail are outputs and nothing else. -/
theorem State.readRails_eq (s : State) : ∃ o, s.readRails = { s with out := o }
    ∧ ∀ r, r < 8 → .avs r .readCurrent ∈ o ∧ .avs r .readTemperature ∈ o ∧ .avs r .readStatus ∈ o := by
  have hmem : ∀ r, r < 8 → ∀ o ∈ railReads r, o ∈ s.readRails.out := fun r hr o ho =>
    State.mem_out_foldl_readRail o (List.range 8) s (.inr ⟨r, List.mem_range.mpr hr, ho⟩)
  refine ⟨s.readRails.out, State.eq_of_keep_out fun g hg => State.keep_foldl_readRail g hg (List.range 8) s, fun r hr => ?_⟩
  exact ⟨hmem r hr _ (by simp [railReads]), hmem r hr _ (by simp [railReads]), hmem r hr _ (by simp [railReads])⟩

/-- The stacks with their temperatures. -/
@[irreducible] def State.stacksRead (s : State) (hbm : List Nat) : State :=
  (List.range 20).foldl (fun s k => s.modStack (k / 5) (k % 5) fun x =>
    { x with temp := hbm.getD k 0, hot := decide (85 < hbm.getD k 0) }) s

theorem State.stack_stacksRead (s : State) (hbm : List Nat) {d k : Nat} (hd : d < 4) (hk : k < 5) :
    ((s.stacksRead hbm).depot d).stack k = { (s.depot d).stack k with
      temp := hbm.getD (5 * d + k) 0, hot := decide (85 < hbm.getD (5 * d + k) 0) } := by
  unfold State.stacksRead
  rw [State.stack_foldl_modStack (fun n x => { x with temp := hbm.getD n 0, hot := decide (85 < hbm.getD n 0) }) hk _ s List.nodup_range]
  exact if_pos (List.mem_range.mpr (by omega))

theorem State.keep_stacksRead {α : Type} (g : State → α) (hg : ∀ (s : State) d, g { s with depots := d } = g s) (s : State) (hbm : List Nat) :
    g (s.stacksRead hbm) = g s := by
  unfold State.stacksRead
  exact State.foldl_keep g _ (fun s _ => hg s _) _ s

/-- Two states that agree but for depots. -/
theorem State.eq_of_keep_depots {s u : State} (h : ∀ g : State → State, (∀ (s : State) d, g { s with depots := d } = g s) → g u = g s) :
    u = { s with depots := u.depots } := h (fun v => { v with depots := u.depots }) fun _ _ => rfl

theorem State.stacksRead_eq (s : State) (hbm : List Nat) : s.stacksRead hbm = { s with depots := (s.stacksRead hbm).depots } :=
  State.eq_of_keep_depots fun g hg => State.keep_stacksRead g hg s hbm

/-- The temperatures of rows, depots and base camp. -/
def State.sensorsRead (s : State) (rows depots : List Int) (base : Int) : State :=
  { s with
    power := { s.power with
      rowTemp := (List.range 8).foldl (fun m r => m.set r (hottest ((rows.drop (4 * r)).take 4))) s.power.rowTemp,
      depTemp := (List.range 4).foldl (fun m d => m.set d (hottest ((depots.drop (4 * d)).take 4))) s.power.depTemp,
      baseTemp := base } }

theorem exec_temperatureSample (s : State) (rows depots : List Int) (base : Int) (hbm : List Nat) :
    exec (.temperatureSample rows depots base hbm) s = .next ((s.sensorsRead rows depots base).stacksRead hbm) := by
  unfold State.stacksRead
  rfl

/-- The charges of a row's tiles start again. -/
@[irreducible] def State.windowsCleared (s : State) (r : Nat) : State :=
  (rowTiles r).foldl (fun s n => s.modTile n fun t => { t with winStreams := 0, winChains := 0 }) s

theorem State.tile_windowsCleared (s : State) (r n : Nat) :
    (s.windowsCleared r).tile n = if n / 25 = r then { s.tile n with winStreams := 0, winChains := 0 } else s.tile n := by
  unfold State.windowsCleared
  rw [State.tile_foldl (G := fun t => { t with winStreams := 0, winChains := 0 }) (fun s m k => ?_) _ (nodup_rowTiles r)]
  · simp only [mem_rowTiles]
  · by_cases hk : k = m
    · subst hk
      simp
    · rw [if_neg hk, State.tile_modTile_ne s _ hk]

theorem State.keep_windowsCleared {α : Type} (g : State → α) (hg : ∀ (s : State) t, g { s with tiles := t } = g s) (s : State) (r : Nat) :
    g (s.windowsCleared r) = g s := by
  unfold State.windowsCleared
  exact State.foldl_keep g _ (fun s _ => hg s _) _ s

theorem State.windowsCleared_eq (s : State) (r : Nat) : s.windowsCleared r = { s with tiles := (s.windowsCleared r).tiles } := by
  have h : ∀ u : State, (∀ g : State → State, (∀ (s : State) t, g { s with tiles := t } = g s) → g u = g s) → u = { s with tiles := u.tiles } :=
    fun u h => h (fun v => { v with tiles := u.tiles }) fun _ _ => rfl
  exact h _ fun g hg => State.keep_windowsCleared g hg s r

theorem State.modRow_eq_of_tiles {s v : State} (h : v = { s with tiles := v.tiles }) (r : Nat) (f : Row → Row) :
    v.modRow r f = { s with tiles := (v.modRow r f).tiles, rows := (v.modRow r f).rows } :=
  congrArg (fun x : State => { x with rows := (v.modRow r f).rows }) h

/-- The charge of a row in the window that ends. -/
def State.rowCharge (s : State) (r : Nat) : Nat := ((List.range 25).map fun k => (s.tile (25 * r + k)).charge).foldl (· + ·) 0

/-- Whether a row's charge is above the image's budget. -/
def State.aboveBudget (s : State) (r : Nat) : Bool :=
  match s.image with
  | some m => decide (m.rowBudget < s.rowCharge r)
  | none => false

theorem exec_tokenWindow (s : State) (r : Nat) : exec (.tokenWindow r) s
    = .next ((s.windowsCleared r).modRow r fun x => { x with
      tokenOver := if s.aboveBudget r then x.tokenOver + 1 else x.tokenOver
      tokenMax := BitVec.ofNat 32 (Nat.max x.tokenMax.toNat (s.rowCharge r))
      tokenRecent := Nat.max x.tokenRecent (s.rowCharge r) }) := by
  have hsum : s.rowCharge r = (((rowTiles r).map fun n => (s.tile n).charge).foldl (· + ·) 0) := by
    unfold rowTiles
    rw [List.map_map]
    rfl
  unfold State.aboveBudget
  rw [hsum]
  unfold State.windowsCleared
  rfl

/-! ### Regulators, wear and telemetry -/

/-- A regulator's trouble, with its bit of the power state. -/
theorem State.alertHost_eq (s : State) : ∃ o h e, s.alertHost = { s with
    pkg := { s.pkg with alert := true }
    out := o, hports := h, tether := e } :=
  State.saidOnly_powerEvent _

/-- The samples of the wear monitors with one more for each. -/
@[irreducible] def Power.sampled (w : Power) (deltas : List Int) : SMap (List Int) :=
  (List.range 144).foldl (fun m k => m.upd k [] fun l => ((deltas.getD k 0) :: l).take 64) w.samples

theorem Power.get_sampled (w : Power) (deltas : List Int) {k : Nat} (hk : k < 144) :
    (w.sampled deltas).get k [] = (deltas.getD k 0 :: w.samples.get k []).take 64 := by
  unfold Power.sampled
  exact SMap.get_foldl_updAt_range hk [] (fun k l => ((deltas.getD k 0) :: l).take 64) w.samples

section
variable {s : State}

theorem exec_wearMonitorSample_planned {deltas : List Int} (h : s.power.replanning = false) :
    exec (.wearMonitorSample deltas) s = .next { s with power := { s.power with samples := s.power.sampled deltas } } := by
  unfold Power.sampled
  exact congrArg Host.Outcome.next (if_neg fun hc => Bool.false_ne_true (h.symm.trans hc.1))

theorem exec_replanHours_due (h : s.power.hoursPlanned < s.power.hours.toNat / 3600000) :
    exec .replanHours s = .next ({ s with power := { s.power with hoursPlanned := s.power.hours.toNat / 3600000 } } : State).replan :=
  congrArg Host.Outcome.next (if_pos h)

theorem exec_sidebandEvaluation_dormas (h : s.base.dormas = true) :
    exec .sidebandEvaluation s = .next { s with
      pkg := { s.pkg with
        fault := decide (s.dev = .faulted), alert := decide (s.power.errWord ≠ 0) || decide (s.power.conditions ≠ 0) } } :=
  congrArg Host.Outcome.next (if_pos h)

end

/-- A counter word a step further. -/
theorem ofNat_toNat_add_mod (w : W64) (n : Nat) : BitVec.ofNat 64 ((w.toNat + n) % 2 ^ 64) = w + BitVec.ofNat 64 n := by
  apply BitVec.eq_of_toNat_eq
  simp

theorem toNat_add_ofNat (w : W64) (n : Nat) (h : n < 2 ^ 64) : (w.toNat + n) % 2 ^ 64 = (w + BitVec.ofNat 64 n).toNat := by
  rw [BitVec.toNat_add, BitVec.toNat_ofNat, Nat.mod_eq_of_lt h]

/-- The ledger that leaves and what is said of it. -/
theorem State.emitLedger_eq (s : State) : ∃ o h e n, s.emitLedger = { s with
    power := { s.power with
      ledgerSeq := s.power.ledgerSeq + 1, ledgerSize := n
      lastLedger := s.ledgerBody (s.power.ledgerSeq + 1).toNat ++ Config.sign (s.ledgerBody (s.power.ledgerSeq + 1).toNat) }
    out := o, hports := h, tether := e } := by
  have hw := ofNat_toNat_add_mod s.power.ledgerSeq 1
  have hn := toNat_add_ofNat s.power.ledgerSeq 1 (by decide)
  unfold State.emitLedger
  simp only [hw]
  rw [hn]
  obtain ⟨o, h, e, hr⟩ := State.saidOnly_raise _ _ _
  exact ⟨o, h, e, _, hr⟩

/-- The rows whose recent charge starts again. -/
@[irreducible] def rowsForgotten (m : SMap Row) : SMap Row := (List.range 8).foldl (fun m r => m.upd r {} fun x => { x with tokenRecent := 0 }) m

theorem get_rowsForgotten (m : SMap Row) {r : Nat} (h : r < 8) : (rowsForgotten m).get r {} = { m.get r {} with tokenRecent := 0 } := by
  unfold rowsForgotten
  exact SMap.get_foldl_updAt_range h {} (fun _ x => { x with tokenRecent := 0 }) m

theorem exec_telemetryRewrite (s : State) : exec .telemetryRewrite s = .next { s with
    power := { s.power with telemetrySeq := s.power.telemetrySeq + 2, telemetry := s.telemetryBlock (s.power.telemetrySeq + 2).toNat }
    rows := rowsForgotten s.rows } := by
  have hw := ofNat_toNat_add_mod s.power.telemetrySeq 2
  have hn := toNat_add_ofNat s.power.telemetrySeq 2 (by decide)
  change execTelemetryRewrite s = _
  unfold execTelemetryRewrite
  simp only [hw]
  rw [hn]
  unfold rowsForgotten
  rfl

/-- Settles O46: each command has its equation, and the folds over rows, tiles and stacks change each entry once. -/
theorem powerAndWearResults : Obligations.PowerAndWearResults := by
  unfold Obligations.PowerAndWearResults
  intro s w
  refine ⟨fun a b r2 r3 r4 r5 r6 r7 => ?power, fun rows depots base hbm => ?temperature, fun r hr => ?token, fun rail => ⟨?fault, ?timeout⟩,
    fun h => exec_sidebandEvaluation_dormas h,
    fun deltas h => ?sample,
    fun h => exec_replanHours_due h, ?ledger, ?rewrite⟩
  case power =>
    intro now l
    obtain ⟨v, hv, hw⟩ := exec_powerSample (s := s) [a, b] [r2, r3, r4, r5, r6, r7]
    obtain ⟨o, ho, hmem⟩ := ({ s with power := v } : State).readRails_eq
    have hnow : ((([a, b].getD 0 0 :: [a, b].getD 1 0 :: [r2, r3, r4, r5, r6, r7]).zipWith (· * ·) s.power.railVolts).foldl (· + ·) 0) / 100
        = now := by
      simp [Power.railVolts, now, w]
    simp only [hnow] at hw
    exact ⟨_, hv.trans (congrArg Host.Outcome.next ho), hw, hmem, rfl⟩
  case temperature =>
    have heq := (s.sensorsRead rows depots base).stacksRead_eq hbm
    have hpower : ((s.sensorsRead rows depots base).stacksRead hbm).power = (s.sensorsRead rows depots base).power :=
      State.keep_stacksRead State.power (fun _ _ => rfl) _ hbm
    refine ⟨_, exec_temperatureSample s rows depots base hbm, ?_, fun r hr => ?_, fun d k hd hk => ?_, ?_⟩
    · rw [hpower]
      rfl
    · rw [hpower]
      exact SMap.get_foldl_updAt_range hr 0 (fun r _ => hottest ((rows.drop (4 * r)).take 4)) s.power.rowTemp
    · rw [State.stack_stacksRead _ hbm hd hk]
      exact ⟨rfl, rfl⟩
    · rw [hpower]
      exact heq
  case token =>
    intro sum
    have hrow : (s.windowsCleared r).row = s.row := State.keep_windowsCleared State.row (fun _ _ => rfl) s r
    refine ⟨_, exec_tokenWindow s r, ?_, fun m hm hb => ?_, fun k hk => ?_, ?_, fun n hn => ?_, fun q hq => ?_⟩
    · rw [State.row_modRow, hrow]
      rfl
    · have ha : s.aboveBudget r = true := by
        unfold State.aboveBudget
        rw [hm]
        exact decide_eq_true hb
      rw [State.row_modRow, hrow]
      exact if_pos ha
    · change (s.windowsCleared r).tile (25 * r + k) = _
      rw [State.tile_windowsCleared, if_pos (by omega)]
    · exact State.modRow_eq_of_tiles (s.windowsCleared_eq r) r _
    · change (s.windowsCleared r).tile n = _
      rw [State.tile_windowsCleared, if_neg hn]
    · rw [State.row_modRow_ne _ _ hq, hrow]
  case fault =>
    obtain ⟨o, h, e, he⟩ := ({ s with power := { s.power with regFault := true } } : State).alertHost_eq
    exact ⟨_, congrArg Host.Outcome.next he, rfl, rfl, rfl⟩
  case timeout =>
    obtain ⟨o, h, e, he⟩ := ({ s with power := { s.power with avsTimeout := true } } : State).alertHost_eq
    exact ⟨_, congrArg Host.Outcome.next he, rfl, rfl, rfl⟩
  case sample => exact ⟨_, exec_wearMonitorSample_planned h, rfl, fun k hk => Power.get_sampled w deltas hk⟩
  case rewrite => exact ⟨_, exec_telemetryRewrite s, rfl, rfl, rfl, fun r hr => get_rowsForgotten s.rows hr⟩
  case ledger =>
    obtain ⟨o, h, e, n, he⟩ := s.emitLedger_eq
    exact ⟨_, congrArg Host.Outcome.next he, rfl, rfl, rfl⟩

end Sys2Proof.Machine
end


section
/-! Cold resets, the thermal trip and the straps (16_reset.md, 18_package.md). -/

namespace Sys2Proof.Machine

open Sys2Proof

section
variable {s : State}

/-! ### The boot ROM -/

/-- The device in ROM, its key rebuilt. -/
def State.inRom (s : State) : State :=
  { s with
    dev := .rom
    sec := { s.sec with keyOk := decide (sha384 s.fuses.publicKey = s.fuses.deviceId), certOk := s.fuses.certGood } }

theorem State.boot_eq (h1 : s.pkg.powerGood = true) (h2 : s.pkg.rstN = true) (h3 : s.pkg.thermtrip = false) (h4 : s.pkg.testmode = false) :
    s.boot = s.inRom :=
  if_pos ⟨h1, h2, (Bool.not_eq_true' _).mpr h3, (Bool.not_eq_true' _).mpr h4⟩

/-! ### Each source -/

/-- Every rail within its limits, with no trip to repeat. -/
theorem exec_powerOn_boots {hot : Bool} {src : Nat} (h : s.pkg.powerGood = false) (ht : s.pkg.tripLast = false ∨ hot = false) :
    exec (.powerOn hot src) s
      = .next (({ s.coldState 0x01 with
          pkg := { (s.coldState 0x01).pkg with powerGood := true } } : State).boot) := by
  refine congrArg Host.Outcome.next ((if_neg fun hc => Bool.false_ne_true (h.symm.trans hc)).trans (if_neg ?_))
  rintro ⟨h1, h2⟩
  rcases ht with ht | ht
  · exact Bool.false_ne_true (ht.symm.trans h1)
  · exact Bool.false_ne_true (ht.symm.trans h2)

theorem exec_brownOut_reset {rail : Nat} (h : s.pkg.powerGood = true) (ht : s.pkg.thermtrip = false) :
    exec (.brownOut rail) s = .next { s.coldState 0x02 with pkg := { (s.coldState 0x02).pkg with powerGood := false } } := by
  refine congrArg Host.Outcome.next ((if_pos h).trans ?_)
  rw [if_neg fun hc => Bool.false_ne_true (ht.symm.trans hc)]

theorem pulseTaken_long {ns k : Nat} (h : 1000 ≤ ns) : pulseTaken ns k = true :=
  (if_neg (by omega)).trans (if_neg (by omega))

theorem pulseTaken_short {ns k : Nat} (h : ns < 100) : pulseTaken ns k = false := if_pos h

theorem exec_rstNAssert_taken {ns : Nat} (hp : pulseTaken ns s.freeCtr = true) (h1 : s.pkg.rstN = true) (h2 : s.pkg.powerGood = true)
    (h3 : s.pkg.thermtrip = false) :
    let c := ({ s with freeCtr := s.freeCtr + 1 } : State).coldState 0x03
    exec (.rstNAssert ns) s = .next { c with pkg := { c.pkg with rstN := false } } := by
  change execRstNAssert ns s = _
  simp [execRstNAssert, hp, h1, h2, h3]

theorem exec_rstNAssert_ignored {ns : Nat} (hp : pulseTaken ns s.freeCtr = false) (h1 : s.pkg.rstN = true) :
    exec (.rstNAssert ns) s = .next { s with freeCtr := s.freeCtr + 1 } := by
  change execRstNAssert ns s = _
  simp [execRstNAssert, hp, h1]

theorem exec_rstNRelease_boots {smba : BitVec 3} {t : Bool} (h : s.pkg.rstN = false) :
    exec (.rstNRelease smba t) s
      = .next (({ s with
          pkg := { s.pkg with rstN := true, smba := smba, testmode := t } } : State).boot) :=
  congrArg Host.Outcome.next (if_neg fun hc => Bool.false_ne_true (h.symm.trans hc))

/-- The part stopped by its trip. -/
def State.tripped (s : State) (src : Nat) : State :=
  { s.coldState s.rst.cause with
    rst := s.rst
    pkg := { (s.coldState s.rst.cause).pkg with thermtrip := true, tripLast := true, tripSrc := BitVec.ofNat 2 src } }

theorem exec_thermalTrip_trips {src : Nat} (h1 : s.pkg.powerGood = true) (h2 : s.pkg.thermtrip = false) :
    exec (.thermalTrip src) s = .next (s.tripped src) :=
  congrArg Host.Outcome.next (if_pos (And.intro h1 ((Bool.not_eq_true' _).mpr h2)))

theorem exec_tripRelease_opens (h1 : s.pkg.thermtrip = true) (h2 : s.pkg.rstN = false) (h3 : s.pkg.powerGood = false) :
    exec .tripRelease s = .next { s with pkg := { s.pkg with thermtrip := false } } :=
  congrArg Host.Outcome.next (if_pos (And.intro h1 (And.intro ((Bool.not_eq_true' _).mpr h2) ((Bool.not_eq_true' _).mpr h3))))

end

/-- Settles O47: each source has its equation, and the cold state has the reset values by definition. -/
theorem coldResetResults : Obligations.ColdResetResults := by
  unfold Obligations.ColdResetResults
  intro s
  refine ⟨fun hot src hg hr hm ht hl => ?_, fun rail hg ht => ⟨_, exec_brownOut_reset hg ht, rfl, rfl, rfl, rfl, rfl, rfl, rfl⟩,
    fun ns hn hr hg ht => ⟨_, exec_rstNAssert_taken (pulseTaken_long hn) hr hg ht, rfl, rfl, rfl, rfl, rfl, rfl, rfl⟩,
    fun ns hn hr => exec_rstNAssert_ignored (pulseTaken_short hn) hr, fun smba hr hg ht => ?_, ⟨_, rfl, rfl, rfl, rfl, rfl⟩,
    fun src hg ht => ⟨_, exec_thermalTrip_trips hg ht, rfl, rfl, rfl⟩, exec_tripRelease_opens⟩
  · exact ⟨_, (exec_powerOn_boots hg hl).trans (congrArg Host.Outcome.next (State.boot_eq rfl hr ht hm)), rfl, rfl, rfl, rfl, rfl, rfl, rfl, rfl⟩
  · exact ⟨_, (exec_rstNRelease_boots hr).trans (congrArg Host.Outcome.next (State.boot_eq hg rfl ht rfl)), rfl, rfl, rfl⟩

end Sys2Proof.Machine
end


section
/-! Block resets (16_reset.md). -/

namespace Sys2Proof.Machine

open Sys2Proof

/-! ### The senders of a tile that is reset -/

/-- What neither tiles, queue pairs, ports nor delivered records are part of stays where a tile's senders are told. -/
theorem State.keep_tellSenders {α : Type} (g : State → α)
    (hg : ∀ (s : State) t q p d, g { s with tiles := t, qps := q, ports := p, delivered := d } = g s) (s : State) (n : Nat) :
    g (s.tellSenders n) = g s := by
  unfold State.tellSenders
  split
  next => rfl
  next l _ =>
    refine State.foldl_keep g _ (fun u c => ?_) _ s
    split
    next => rfl
    next =>
      have hb : ∀ (u : State) a b c, g (u.breakSenders a b c) = g u := fun u a b c => hg u _ _ u.ports u.delivered
      have hs : ∀ (u : State) a b, g (u.sendDyn a b) = g u := fun u a b =>
        (u.sentOnly_sendDyn a b).keep g fun v p d => hg v v.tiles v.qps p d
      dsimp only
      split
      next => exact (hs _ _ _).trans (hb _ _ _ _)
      next => exact hb _ _ _ _

theorem State.tellSenders_eq (s : State) (n : Nat) : ∃ t q p d,
    s.tellSenders n = { s with tiles := t, qps := q, ports := p, delivered := d } := by
  have h : ∀ u : State, (∀ g : State → State, (∀ (s : State) t q p d, g { s with tiles := t, qps := q, ports := p, delivered := d } = g s) → g u = g s) →
      ∃ t q p d, u = { s with tiles := t, qps := q, ports := p, delivered := d } := fun u h =>
    ⟨u.tiles, u.qps, u.ports, u.delivered,
      h (fun v => { v with tiles := u.tiles, qps := u.qps, ports := u.ports, delivered := u.delivered }) fun _ _ _ _ _ => rfl⟩
  exact h _ fun g hg => State.keep_tellSenders g hg s n

/-- A tile that is reset. -/
theorem State.resetTile_eq (s : State) (n : Nat) : ∃ t q p d, s.resetTile n = { s with tiles := t, qps := q, ports := p, delivered := d }
    ∧ (s.resetTile n).tile n = Tile.reset := by
  obtain ⟨t, q, p, d, h⟩ := s.tellSenders_eq n
  refine ⟨_, q, p, d, congrArg (fun u : State => u.clearTile n) h, ?_⟩
  exact SMap.get_set_self _ n _ _

/-- The fields that a reset of a tile and its count change, read off the result. -/
theorem State.with_rst_eq {s u : State} {t : SMap Tile} {q : SMap Qp} {p : SMap CvPort} {d : List Routed}
    (h : u = { s with tiles := t, qps := q, ports := p, delivered := d }) (r : ResetUnit) :
    ({ u with rst := r } : State) = { s with tiles := u.tiles, rst := r, qps := u.qps, ports := u.ports, delivered := u.delivered } := by
  subst h
  rfl

/-! ### The controller -/

section
variable {s : State}

theorem State.askBlock_takes {b : BlockReq} (hw : s.rst.warm = false) (hb : s.rst.busy = none) (he : s.blockExists b = true) :
    s.askBlock b = { s with rst := { s.rst with busy := some b } } := by
  refine if_neg ?_
  rintro (h | h | h)
  · exact Bool.false_ne_true (hw.symm.trans h)
  · rw [hb] at h
    exact Bool.false_ne_true h
  · rw [he] at h
    exact Bool.false_ne_true h

theorem State.goBlock_takes {k i : Nat} (hw : s.rst.warm = false) (hb : s.rst.busy = none) (he : s.blockExists ⟨k, i⟩ = true) :
    s.goBlock k i = { s with rst := { s.rst with
      brKind := BitVec.ofNat 3 k, brIndex := BitVec.ofNat 8 i, busy := some ⟨k, i⟩ } } :=
  State.askBlock_takes hw hb he

/-- The controller busy with a block. -/
def State.holding (s : State) (b : BlockReq) : State := { s with rst := { s.rst with busy := some b } }

theorem State.finishBlock_holding {b : BlockReq} (hb : s.rst.busy = none) : (s.holding b).finishBlock = s.blockReset b := by
  have h : ({ s with rst := { s.rst with busy := none } } : State) = s := by
    rw [← hb]
  exact congrArg (State.blockReset · b) h

theorem exec_blockResetTimeout_holding {b : BlockReq} (hb : s.rst.busy = none) :
    exec .blockResetTimeout (s.holding b) = .next (({ s with rst := { s.rst with timedOut := true } } : State).blockReset b) :=
  congrArg Host.Outcome.next ((if_pos rfl).trans
    (State.finishBlock_holding (s := { s with rst := { s.rst with timedOut := true } }) hb))

theorem State.blockExists_tile {i : Nat} (hi : i < 200) (hp : s.fuses.present.getD i 0 ≠ 0) : s.blockExists ⟨1, i⟩ = true := by
  change (decide (i < 200) && decide (s.fuses.present.getD i 0 ≠ 0)) = true
  rw [decide_eq_true hi, decide_eq_true hp]
  rfl

theorem State.blockReset_exists {b : BlockReq} (h : s.blockExists b = true) :
    s.blockReset b = { s.resetBlock b with rst := { (s.resetBlock b).rst with
      blockResets := (s.resetBlock b).rst.blockResets + 1, lastKind := BitVec.ofNat 3 b.kind, lastIndex := BitVec.ofNat 8 b.index } } :=
  if_pos h

end

/-- Settles O50: a free controller takes a request for a block that exists, and its end is the reset of that block. -/
theorem blockResetResults : Obligations.BlockResetResults := by
  unfold Obligations.BlockResetResults
  intro i s hw hb ask held
  have hask : ∀ {k : Nat} {c : Instr}, exec c s = .next (s.goBlock k i) → s.blockExists ⟨k, i⟩ = true → ask c k := fun hc he =>
    hc.trans (congrArg Host.Outcome.next (State.goBlock_takes hw hb he))
  refine ⟨fun hi hp => hask rfl (State.blockExists_tile hi hp), fun h => hask rfl (decide_eq_true h), fun h => hask rfl (decide_eq_true h),
    fun h => hask rfl (decide_eq_true h), fun h => hask rfl (decide_eq_true h),
    fun b => ⟨congrArg Host.Outcome.next (State.finishBlock_holding hb), exec_blockResetTimeout_holding hb⟩, fun hi hp => ?_⟩
  obtain ⟨t, q, p, d, hr, ht⟩ := s.resetTile_eq i
  refine ⟨_, congrArg Host.Outcome.next ((State.finishBlock_holding hb).trans (State.blockReset_exists (State.blockExists_tile hi hp))), ht, ?_, ?_, ?_⟩
  · change (s.resetTile i).rst.blockResets + 1 = _
    rw [hr]
  · change (s.resetTile i).rst.busy = none
    rw [hr]
    exact hb
  · exact State.with_rst_eq hr _

end Sys2Proof.Machine
end


section
/-! The package's sideband interfaces (18_package.md). -/

namespace Sys2Proof.Machine

open Sys2Proof

/-! ### SAMPLE/PRELOAD

The pins that it samples are a free value of the model, so the instruction counts one more free value as well. -/

theorem exec_samplePreload_freeCtr {s u : State} {shift : List Bool} (hp : s.pkg.powerGood = true)
    (h : exec (.samplePreload shift) s = .next u) : u.freeCtr = s.freeCtr + 1 := by
  have hrun : exec (.samplePreload shift) s = .next ({ ({ s with freeCtr := s.freeCtr + 1 } : State).jtag .sample
      [.bits ((List.range shift.length).map fun k => decide (Config.freeValue s.freeCtr / 2 ^ k % 2 = 1))] with
      pkg := { (({ s with freeCtr := s.freeCtr + 1 } : State).jtag .sample
        [.bits ((List.range shift.length).map fun k => decide (Config.freeValue s.freeCtr / 2 ^ k % 2 = 1))]).pkg with
        boundary := shift } } : State) :=
    congrArg Host.Outcome.next (if_pos hp)
  cases h.symm.trans hrun
  exact congrArg State.freeCtr (if_pos hp)

/-- A part with its power good. -/
def poweredPart : State :=
  { State.reset with
    pkg := { powerGood := true } }

/-- Refutes O51: SAMPLE/PRELOAD is said to touch the package and the outputs alone, and the model also counts the free
value that stands for the sampled pins. -/
theorem not_packageResults : ¬ Obligations.PackageResults := by
  unfold Obligations.PackageResults
  rintro ⟨hjtag, -⟩
  obtain ⟨-, -, -, -, -, -, -, -, hsample, -⟩ := hjtag poweredPart rfl
  obtain ⟨u, bits, hnext, -, hu, -⟩ := hsample []
  have hcount : u.freeCtr = 1 := exec_samplePreload_freeCtr rfl hnext
  have hsame : u.freeCtr = 0 := congrArg State.freeCtr hu
  exact absurd (hsame.symm.trans hcount) (by decide)

end Sys2Proof.Machine
end


section
/-! Discovery, the handshake and the sessions of Tether (14_tether_host.md). -/

namespace Sys2Proof.Machine

open Sys2Proof

/-! ### A session that sends -/

/-- What sending does not touch stays. -/
theorem keep_pumpGo {α : Type} (g : Session → α)
    (hg : ∀ (x : Session) q a b u, g { x with queue := q, seqOut := a, pnOut := b, unacked := u } = g x) :
    ∀ (fuel : Nat) (x : Session) (o : List Output), g (Session.pumpGo fuel x o).1 = g x
  | 0, _, _ => rfl
  | fuel + 1, x, o => by
    unfold Session.pumpGo
    split
    · rfl
    · split
      · rw [keep_pumpGo g hg fuel, hg]
      · rfl

/-- Each packet that leaves the queue takes one packet number. -/
theorem pnOut_pumpGo : ∀ (fuel : Nat) (x : Session) (o : List Output),
    (Session.pumpGo fuel x o).1.pnOut + (Session.pumpGo fuel x o).1.queue.length = x.pnOut + x.queue.length
  | 0, _, _ => rfl
  | fuel + 1, x, o => by
    unfold Session.pumpGo
    split
    · rfl
    next p q hq =>
      split
      · rw [pnOut_pumpGo fuel, hq, List.length_cons]
        simp only
        omega
      · rfl

theorem keep_pump {α : Type} (g : Session → α)
    (hg : ∀ (x : Session) q a b u l, g { x with queue := q, seqOut := a, pnOut := b, unacked := u, lost := l } = g x)
    (x : Session) (stamp : W64) : g (x.pump stamp).1 = g x := by
  have hgo := fun fuel (x : Session) o => keep_pumpGo g (fun x q a b u => hg x q a b u x.lost) fuel x o
  have htell : ∀ y : Session, g (y.tellLost stamp) = g y := fun y => by
    unfold Session.tellLost
    split
    · exact hg y _ y.seqOut y.pnOut y.unacked 0
    · rfl
  exact (hgo _ _ _).trans ((htell _).trans (hgo _ _ _))

/-- A session with nothing lost sends no more packets than wait in it. -/
theorem pnOut_pump {x : Session} (h : x.lost = 0) (stamp : W64) : (x.pump stamp).1.pnOut ≤ x.pnOut + x.queue.length := by
  have hlost : (Session.pumpGo x.queue.length x []).1.lost = 0 := (keep_pumpGo Session.lost (fun _ _ _ _ _ => rfl) _ x []).trans h
  have htell : (Session.pumpGo x.queue.length x []).1.tellLost stamp = (Session.pumpGo x.queue.length x []).1 :=
    if_neg fun hc => absurd hc.1 (by omega)
  have h1 := pnOut_pumpGo x.queue.length x []
  change (Session.pumpGo _ ((Session.pumpGo x.queue.length x []).1.tellLost stamp) _).1.pnOut ≤ _
  rw [htell]
  have h2 := pnOut_pumpGo (Session.pumpGo x.queue.length x []).1.queue.length (Session.pumpGo x.queue.length x []).1 (Session.pumpGo x.queue.length x []).2
  omega

/-! ### The sessions after one round of sending -/

theorem State.tether_sentFrames (s : State) (h n : Nat) : (s.sentFrames h n).tether = s.tether := by
  unfold State.sentFrames
  split <;> rfl

theorem State.tether_sendAll (s : State) (rs : List (Session × List Output)) (stay : List Session) :
    (s.sendAll rs stay).tether = { s.tether with sessions := stay } := by
  unfold State.sendAll
  rw [State.foldl_keep State.tether _ (fun u (r : Session × List Output) =>
    State.tether_sentFrames { u with out := r.2 ++ u.out } r.1.port r.2.length)]

/-- The sessions that stay are the changed ones after what they sent. -/
theorem State.tether_sessionsMap (s : State) (f : Session → Session) : (s.sessionsMap f).tether = { s.tether with
    sessions := (s.tether.sessions.map fun x => ((f x).pump s.stamp).1).filter fun x => decide (x.pnOut ≤ lastPn) } := by
  refine (State.tether_sendAll s _ _).trans ?_
  rw [List.map_map]
  rfl

theorem State.tether_putOut (s : State) (port : Nat) (o : Output) : (s.putOut port o).tether = s.tether := State.tether_sentFrames _ _ _

theorem State.saidOnly_putOut (s : State) (port : Nat) (o : Output) : s.SaidOnly (s.putOut port o) :=
  State.SaidOnly.trans ⟨_, s.hports, s.tether, rfl⟩ (State.saidOnly_sentFrames _ _ _)

theorem State.saidOnly_gotFrames (s : State) (h n : Nat) : s.SaidOnly (s.gotFrames h n) := by
  unfold State.gotFrames
  split
  · exact .refl s
  · exact ⟨s.out, _, s.tether, rfl⟩

theorem State.tether_gotFrames (s : State) (h n : Nat) : (s.gotFrames h n).tether = s.tether := by
  unfold State.gotFrames
  split <;> rfl

theorem State.session?_endSessions (s : State) (id : Nat) : (s.endSessions fun y => decide (y.id = id)).session? id = none := by
  refine List.find?_eq_none.mpr fun x hx => ?_
  have hne := (List.mem_filter.mp hx).2
  simpa using hne

theorem State.saidOnly_sendAck (s : State) (id : Nat) : s.SaidOnly (s.sendAck id) := by
  unfold State.sendAck
  split
  · exact .refl s
  · exact (s.saidOnly_onSession _ _).trans (State.saidOnly_putOut _ _ _)

/-- The state as it is after what is said. -/
theorem State.SaidOnly.eq_with {s t : State} (h : s.SaidOnly t) : t = { s with out := t.out, hports := t.hports, tether := t.tether } := by
  obtain ⟨o, p, e, rfl⟩ := h
  rfl

/-! ### Discovery and the handshake -/

section
variable {s : State} {port : Nat} {hd : CmdHdr}

theorem exec_discover_served {nonce : List Byte} (h : s.serves port = true) :
    exec (.discover port nonce) s = .next ((s.gotFrames port 1).putOut port (.offer port (s.offerPayload nonce))) :=
  congrArg Host.Outcome.next (if_pos h)

theorem exec_discover_unserved {nonce : List Byte} (h : s.serves port = false) (hw : s.rst.warm = false) :
    exec (.discover port nonce) s = .next s :=
  congrArg Host.Outcome.next ((if_neg fun hc => Bool.false_ne_true (h.symm.trans hc)).trans
    (if_neg fun hc => Bool.false_ne_true (hw.symm.trans hc)))

theorem exec_hello1_opens {h : Hello1} (hd : s.base.dormas = true) (hok : Hello1.ok h = true) (hn : s.tether.halfOpen.length < 4)
    (hk : s.sec.keyOk = true) : exec (.hello1 port h) s = .next ((s.gotFrames port 1).openHalf port h) := by
  change execHello1 port h s = _
  simp [execHello1, hd, hok, hk, Nat.not_le.mpr hn]

theorem exec_hello1_fails {h : Hello1} (hd : s.base.dormas = true) (hbad : Hello1.ok h = false ∨ 4 ≤ s.tether.halfOpen.length) :
    exec (.hello1 port h) s = .next ((s.gotFrames port 1).handshakeFail) := by
  change execHello1 port h s = _
  simp [execHello1, hd, hbad]

/-- The half-open session that a HELLO1 opens. -/
theorem State.openHalf_eq (s : State) (port : Nat) (h : Hello1) : ∃ y n o hp, s.openHalf port h = { s with
      tether := { s.tether with halfOpen := s.tether.halfOpen ++ [y], nextSession := n }
      freeCtr := s.freeCtr + 1 + 1, out := o, hports := hp }
    ∧ y.id = s.tether.nextSession ∧ y.port = port ∧ y.hello = h :=
  ⟨_, _, _, _, rfl, rfl, rfl, rfl⟩

theorem exec_hello3_admitted {sig : List Byte} {x : HalfOpen} (hd' : s.base.dormas = true)
    (hx : s.tether.halfOpen.find? (fun y => decide (y.id = hd.session)) = some x)
    (hv : Config.verifies x.hello.hkey x.transcript sig = true) (ha : s.tether.admits x.hello = true) :
    exec (.hello3 hd sig) s = .next (((s.gotFrames hd.port 1).dropHalf x.id).openSession x hd.port) := by
  change execHello3 hd sig s = _
  simp [execHello3, hd', hx, hv, State.tether_gotFrames, ha]

theorem exec_hello3_denied {sig : List Byte} {x : HalfOpen} (hd' : s.base.dormas = true)
    (hx : s.tether.halfOpen.find? (fun y => decide (y.id = hd.session)) = some x)
    (h : Config.verifies x.hello.hkey x.transcript sig = false ∨ s.tether.admits x.hello = false) :
    exec (.hello3 hd sig) s
      = .next ((((s.gotFrames hd.port 1).handshakeFail).dropHalf x.id).putOut hd.port (.response x.id 1 2 s.dev.code 0 [])) := by
  change execHello3 hd sig s = _
  unfold execHello3
  rw [hd', hx]
  refine congrArg Host.Outcome.next ((if_neg Bool.false_ne_true).trans (if_neg ?_))
  rintro ⟨h1, h2⟩
  rw [State.tether_gotFrames] at h2
  rcases h with h | h
  · exact Bool.false_ne_true (h.symm.trans h1)
  · exact Bool.false_ne_true (h.symm.trans h2)

theorem exec_halfOpenTimeout_waiting {id : Nat} (h : (s.tether.halfOpen.any fun x => decide (x.id = id)) = true) :
    exec (.halfOpenTimeout id) s = .next (s.handshakeFail.dropHalf id) :=
  congrArg Host.Outcome.next (if_pos h)

/-! ### An open session -/

/-- What an open session's packet finds. -/
def State.packetIn (s : State) (hd : CmdHdr) : State :=
  (s.gotFrames hd.port 1).onSession hd.session fun y => { y with port := hd.port }

theorem State.withSession_open {x : Session} (f : Session → State → State) (h : s.dev ≠ .off) (hx : s.session? hd.session = some x) :
    s.withSession hd f = f x (s.packetIn hd) := by
  unfold State.withSession
  rw [if_neg h, hx]
  rfl

theorem State.saidOnly_packetIn (s : State) (hd : CmdHdr) : s.SaidOnly (s.packetIn hd) :=
  (s.saidOnly_gotFrames _ _).trans (State.saidOnly_onSession _ _ _)

/-- What a CLOSE leaves. -/
def State.closed (s : State) (hd : CmdHdr) : State :=
  (((s.packetIn hd).onSession hd.session fun y => { y with seqIn := y.seqIn + 1 }).sendAck hd.session).endSessions fun y =>
    decide (y.id = hd.session)

theorem State.saidOnly_endSessions (s : State) (f : Session → Bool) : s.SaidOnly (s.endSessions f) := ⟨_, s.hports, _, rfl⟩

theorem State.saidOnly_closed (s : State) (hd : CmdHdr) : s.SaidOnly (s.closed hd) :=
  (((s.saidOnly_packetIn hd).trans (State.saidOnly_onSession _ _ _)).trans (State.saidOnly_sendAck _ _)).trans (State.saidOnly_endSessions _ _)

theorem State.sendAck_open {x : Session} {id : Nat} (h : s.session? id = some x) :
    s.sendAck id = (s.onSession id fun y => { y with pnOut := y.pnOut + 1 }).putOut x.port (.ackPacket id (x.seqIn - 1)) := by
  unfold State.sendAck
  rw [h]

theorem exec_tetherResend_waiting {id : Nat} {x : Session} {v : Unacked} {l : List Unacked} (hx : s.session? id = some x)
    (hu : x.unacked = v :: l) : exec (.tetherResend id) s = .next (if 10 ≤ v.sends then s.loseSession id
      else (s.onSession id fun y => { y with
        pnOut := y.pnOut + 1, unacked := ⟨v.seq, v.sends + 1, Nat.min 64 (2 * v.timeoutMs)⟩ :: l }).putOut x.port (.resend id v.seq)) := by
  change execTetherResend id s = _
  unfold execTetherResend
  rw [hx]
  simp only [hu]

theorem exec_sessionTimeout_open {id : Nat} {x : Session} (hx : s.session? id = some x) :
    exec (.sessionTimeout id) s = .next (s.loseSession id) :=
  congrArg Host.Outcome.next (if_pos (by rw [hx]; rfl))

end

/-! ### The session of a handshake that has been admitted -/

/-- The session that an admitted handshake opens, before its response. -/
def HalfOpen.opened (x : HalfOpen) (port : Nat) : Session :=
  { id := x.id, owner := decide (x.hello.role = 1), events := x.hello.events, group := x.hello.group, key := sha384 x.hello.hkey,
    keys := x.keys, port := port, seqIn := 2 }

theorem State.saidOnly_openSession (s : State) (x : HalfOpen) (port : Nat) : s.SaidOnly (s.openSession x port) := by
  have h1 : s.SaidOnly (if decide (x.hello.role = 1) = true then s.endSessions Session.owner else s) := by
    split
    · exact State.saidOnly_endSessions _ _
    · exact .refl s
  refine (h1.trans ?_).trans (State.saidOnly_respond _ _ _ _ _ _)
  exact ⟨_, _, _, rfl⟩

theorem State.ownerKey_openSession {x : HalfOpen} (s : State) (port : Nat) (h : x.hello.role = 1) :
    (s.openSession x port).tether.ownerKey = sha384 x.hello.hkey := by
  unfold State.openSession State.respond State.onSession
  simp only [State.tether_sessionsMap]
  exact if_pos (decide_eq_true h)

/-- A session with a response without a body waiting in it. -/
def Session.answered (y : Session) (req status dev code : Nat) : Session :=
  { y with queue := y.queue ++ .response y.id req status dev code [] :: List.replicate (packetsOf (16 + 0) - 1) (.more y.id) }

/-- A session with packet numbers left for its answer stays. -/
theorem State.mem_respond {s : State} {y : Session} (req status code : Nat) (hy : y ∈ s.tether.sessions) (hl : y.lost = 0)
    (hn : y.pnOut + (y.queue.length + 1) ≤ lastPn) :
    ∃ z ∈ (s.respond y.id req status code []).tether.sessions, z.id = y.id ∧ z.key = y.key := by
  have hpn : ((y.answered req status s.dev.code code).pump s.stamp).1.pnOut ≤ lastPn := by
    refine (pnOut_pump (x := y.answered req status s.dev.code code) hl s.stamp).trans ?_
    have hlen : (y.answered req status s.dev.code code).queue.length = y.queue.length + 1 := List.length_append
    rw [hlen]
    exact hn
  refine ⟨((y.answered req status s.dev.code code).pump s.stamp).1, ?_, keep_pump Session.id (fun _ _ _ _ _ _ => rfl) _ _,
    keep_pump Session.key (fun _ _ _ _ _ _ => rfl) _ _⟩
  unfold State.respond State.onSession
  rw [State.tether_sessionsMap]
  refine List.mem_filter.mpr ⟨List.mem_map.mpr ⟨y, hy, ?_⟩, decide_eq_true hpn⟩
  simp only [if_true, List.length_nil]
  rfl

theorem State.mem_openSession (s : State) (x : HalfOpen) (port : Nat) :
    ∃ y, y ∈ (s.openSession x port).tether.sessions ∧ y.id = x.id ∧ y.key = sha384 x.hello.hkey := by
  unfold State.openSession
  exact State.mem_respond (y := x.opened port) 1 0 0 (List.mem_append.mpr (.inr (List.mem_singleton.mpr rfl))) rfl
    (show 1 + (0 + 1) ≤ lastPn by decide)

/-- Settles O52: each packet has its equation; what a session sends touches outputs, host ports and the tether only. -/
theorem tetherResults : Obligations.TetherResults := by
  unfold Obligations.TetherResults
  intro port hd s u
  refine ⟨fun nonce => ⟨exec_discover_served, exec_discover_unserved⟩, fun h hb => ⟨fun hok hn hk => ?hello1, fun hf => ?fails⟩,
    fun sig x hb hx => ⟨fun hv ha => ?admitted, fun hf => ?denied⟩, fun id h => exec_halfOpenTimeout_waiting h,
    fun k x h hx => congrArg Host.Outcome.next (State.withSession_open _ h hx), fun x h hx => ?close,
    fun id x v l hx hu => ⟨fun hs => (exec_tetherResend_waiting hx hu).trans (congrArg Host.Outcome.next (if_neg (Nat.not_le.mpr hs))),
      fun hs => (exec_tetherResend_waiting hx hu).trans (congrArg Host.Outcome.next (if_pos hs))⟩,
    fun id x hx => congrArg Host.Outcome.next (State.sendAck_open hx), fun id x hx => ?timeout⟩
  case hello1 =>
    obtain ⟨y, n, o, hp, h0, h1, h2, h3⟩ := (s.gotFrames port 1).openHalf_eq port h
    obtain ⟨o', hp', e', hg⟩ := s.saidOnly_gotFrames port 1
    have htether := s.tether_gotFrames port 1
    rw [htether] at h0 h1
    refine ⟨_, y, (exec_hello1_opens hb hok hn hk).trans (congrArg Host.Outcome.next h0), rfl, h1, h2, h3, rfl, ?_⟩
    rw [hg]
  case fails =>
    refine (exec_hello1_fails hb hf).trans (congrArg Host.Outcome.next ?_)
    unfold State.handshakeFail
    rw [State.tether_gotFrames]
  case admitted =>
    have hsaid : s.SaidOnly (((s.gotFrames hd.port 1).dropHalf x.id).openSession x hd.port) :=
      ((s.saidOnly_gotFrames hd.port 1).trans ⟨_, _, _, rfl⟩).trans (State.saidOnly_openSession _ x hd.port)
    refine ⟨_, exec_hello3_admitted hb hx hv ha, State.mem_openSession _ x hd.port, fun hr => State.ownerKey_openSession _ hd.port hr, ?_⟩
    exact hsaid.eq_with
  case denied =>
    have hsaid : s.SaidOnly ((((s.gotFrames hd.port 1).handshakeFail).dropHalf x.id).putOut hd.port (.response x.id 1 2 s.dev.code 0 [])) :=
      ((s.saidOnly_gotFrames hd.port 1).trans ⟨_, _, _, rfl⟩).trans (State.saidOnly_putOut _ _ _)
    have htether := State.tether_putOut (((s.gotFrames hd.port 1).handshakeFail).dropHalf x.id) hd.port (.response x.id 1 2 s.dev.code 0 [])
    refine ⟨_, exec_hello3_denied hb hx hf, ?_, ?_, hsaid.eq_with⟩
    · rw [htether]
      change (s.gotFrames hd.port 1).tether.sessions = _
      rw [State.tether_gotFrames]
    · rw [htether]
      change (s.gotFrames hd.port 1).tether.handshakeFails + 1 = _
      rw [State.tether_gotFrames]
  case close =>
    exact ⟨_, congrArg Host.Outcome.next (State.withSession_open _ h hx), State.session?_endSessions _ _, (s.saidOnly_closed hd).eq_with⟩
  case timeout =>
    exact ⟨_, exec_sessionTimeout_open hx, State.session?_endSessions s id, rfl, rfl⟩

end Sys2Proof.Machine
end


section
/-! The commands of a session (14_tether_host.md). -/

namespace Sys2Proof.Machine

open Sys2Proof

/-! ### Commands that read and write data -/

/-- A command whose effect is one act. -/
theorem commanded_act {c : Instr} {hd : CmdHdr} {len : Nat} {obs ok legal : Bool} {s : State} (act : Nat → Nat → State → State)
    (h : exec c s = s.command hd len obs ok legal act) : Commanded c hd len obs ok legal s fun req u t => t = act hd.session req u :=
  commanded_of h fun _ _ => rfl

/-- The answer to WEAR_PUT. -/
def State.wearPutAnswer (s : State) (id req : Nat) (b : List Byte) : State :=
  if s.ledgerGood b then (s.takeLedger b).respond id req 0 0 [1] else s.startFresh.respond id req 0 0 [0]

/-- A quote is counted. -/
def State.quoteCounted (s : State) : State := { s with sec := { s.sec with quotes := s.sec.quotes + 1 } }

/-- The answer to QUOTE. -/
def State.quoteAnswer (s : State) (id req : Nat) (nonce : List Byte) : State :=
  if s.sec.keyOk then s.quoteCounted.respond id req 0 0 (s.quoteCounted.quoteBody nonce ++ Config.sign (s.quoteCounted.quoteBody nonce)) else s

/-- Settles O53: each command is an act of `State.command`; WEAR_PUT branches on the ledger, QUOTE on the key. -/
theorem dataCommandResults : Obligations.DataCommandResults := by
  unfold Obligations.DataCommandResults
  intro hd s id
  refine ⟨fun addr len => ?read, fun addr data => ?write, ?telemetry, fun first n => ?faultlog, fun b => ?wearPut, ?wearNone, ?wearEmit,
    fun off n => ?wearGet, ?replan, fun nonce => ?quote⟩
  case read => exact commanded_act (fun id req u => (u.ctlTouch addr len).respond id req 0 0 (u.ctlBytes addr len)) rfl
  case write => exact commanded_act (fun id req u => (u.ctlWrite .host addr data).respond id req 0 0 []) rfl
  case telemetry => exact commanded_act (fun id req u => u.respond id req 0 0 u.power.telemetry) rfl
  case faultlog =>
    exact commanded_act (fun id req u => u.respond id req 0 0 (beBytes 8 u.recov.ledgerCount.toNat ++
      ((List.range n).filterMap fun k => u.ledgerEntry (first + k)).flatMap entryBytes)) rfl
  case wearPut =>
    exact commanded_of (act := fun id req u => u.wearPutAnswer id req b) rfl fun req u =>
      ⟨fun h => if_pos h, fun h => if_neg fun hc => Bool.false_ne_true (h.symm.trans hc)⟩
  case wearNone => exact commanded_act (fun id req u => u.startFresh.respond id req 0 0 []) rfl
  case wearEmit =>
    exact commanded_act (fun id req u => u.emitLedger.respond id req 0 0
      (beBytes 8 u.emitLedger.power.ledgerSeq.toNat ++ beBytes 4 u.emitLedger.power.ledgerSize)) rfl
  case wearGet => exact commanded_act (fun id req u => u.respond id req 0 0 (slice u.power.lastLedger off n)) rfl
  case replan => exact commanded_act (fun id req u => u.replan.respond id req 0 0 u.replan.wearBytes) rfl
  case quote =>
    exact commanded_of (act := fun id req u => u.quoteAnswer id req nonce) rfl fun req u =>
      ⟨fun h => if_neg fun hc => Bool.false_ne_true (h.symm.trans hc), fun h => if_pos h⟩

/-! ### Commands that set the device up -/

/-- What a RELEASE leaves: no owner, no observer, no session. -/
def State.released (s : State) (id req : Nat) : State :=
  (({ s with tether := { s.tether with ownerKey := List.replicate 48 0, observers := [], group := 0 } } : State).respond id req 0 0 []).endSessions
    fun _ => true

theorem State.tether_respond (s : State) (id req status code : Nat) (body : List Byte) :
    ∃ l, (s.respond id req status code body).tether = { s.tether with sessions := l } :=
  ⟨_, State.tether_sessionsMap s _⟩

theorem State.tether_released (s : State) (id req : Nat) :
    (s.released id req).tether.sessions = [] ∧ (s.released id req).tether.observers = []
    ∧ (s.released id req).tether.ownerKey = List.replicate 48 0 ∧ (s.released id req).tether.group = 0 := by
  obtain ⟨l, hl⟩ := State.tether_respond
    ({ s with tether := { s.tether with ownerKey := List.replicate 48 0, observers := [], group := 0 } } : State) id req 0 0 []
  unfold State.released State.endSessions
  dsimp only
  rw [hl]
  exact ⟨List.filter_eq_nil_iff.mpr fun _ _ => by simp, rfl, rfl, rfl⟩

theorem exec_map_unheld {hd : CmdHdr} {es : List MapEntry} {s : State} (h : s.hbm.held = []) :
    exec (.map hd es) s = s.command hd (8 + 16 * es.length) false
      (decide (1 ≤ es.length) && decide (es.length ≤ 1000) && es.all fun e => decide (e.seg < 2 ^ 22)) true
      fun id req s => if s.power.ledgerOk then s.mapRun id req es 0 else s.respond id req 4 0 [] := by
  change execMap hd es s = _
  unfold execMap
  rw [h]
  exact if_neg Bool.false_ne_true

/-- The answer to SVN. -/
def State.svnAnswer (s : State) (id req v : Nat) : State :=
  if s.base.svn < v then s.respond id req 3 1 []
  else ({ s with fuses := { s.fuses with minSvn := Nat.max s.fuses.minSvn (Nat.min v 64) } } : State).respond id req 0 0
    [BitVec.ofNat 8 (Nat.max s.fuses.minSvn (Nat.min v 64))]

/-- The answer to QP_OPEN. -/
def State.qpAnswer (s : State) (id req : Nat) (q : QpBody) : State :=
  match s.qpRefusal q with
  | some c => s.respond id req 3 c []
  | none =>
    let (rkey, psn, s1) := s.openQp q
    s1.respond id req 0 0 (beBytes 4 rkey ++ beBytes 4 psn)

theorem State.qpAnswer_refused {s : State} {id req c : Nat} {q : QpBody} (h : s.qpRefusal q = some c) :
    s.qpAnswer id req q = s.respond id req 3 c [] := by
  unfold State.qpAnswer
  rw [h]

theorem State.qpAnswer_opened {s v : State} {id req rkey psn : Nat} {q : QpBody} (h : s.qpRefusal q = none) (ho : s.openQp q = (rkey, psn, v)) :
    s.qpAnswer id req q = v.respond id req 0 0 (beBytes 4 rkey ++ beBytes 4 psn) := by
  unfold State.qpAnswer
  rw [h, ho]

/-- The answer to QP_CLOSE. -/
def State.qpClosed (s : State) (id req n : Nat) : State :=
  match s.qp? n with
  | some x => ({ s with qps := s.qps.erase x.1 } : State).respond id req 0 0 []
  | none => s.respond id req 3 1 []

theorem State.qpClosed_open {s : State} {id req n : Nat} {x : Nat × Qp} (h : s.qp? n = some x) :
    s.qpClosed id req n = ({ s with qps := s.qps.erase x.1 } : State).respond id req 0 0 [] := by
  unfold State.qpClosed
  rw [h]

theorem State.qpClosed_unknown {s : State} {id req n : Nat} (h : s.qp? n = none) : s.qpClosed id req n = s.respond id req 3 1 [] := by
  unfold State.qpClosed
  rw [h]

/-- The answer to RESET. -/
def State.resetAsked (s : State) (id req k i : Nat) : State :=
  let v := s.respond id req 0 0 []
  if k = 0 then { v with rst := { v.rst with warmPending := true } } else v.askBlock ⟨k, i⟩

/-- Settles O54: each command is an act of `State.command`, and each refusal a branch of it. -/
theorem setupCommandResults : Obligations.SetupCommandResults := by
  unfold Obligations.SetupCommandResults
  intro hd s id
  refine ⟨fun es h => ?map, fun root p a b => ?time, fun ports hops => ?route, fun keys => ?observers, ?release, fun m => ?macsec,
    fun v => ?svn, fun q => ?qpOpen, fun n => ?qpClose, fun k i => ?reset⟩
  case map =>
    exact commanded_of (exec_map_unheld h) fun req u => ⟨fun h => if_pos h, fun h => if_neg fun hc => Bool.false_ne_true (h.symm.trans hc)⟩
  case time =>
    exact commanded_act (fun id req u => ({ u with clock := u.clock.setTree root p a b } : State).respond id req 0 0 []) rfl
  case route =>
    exact commanded_act (fun id req u => ({ u with cv := { u.cv with routePorts := ports, routeHops := hops } } : State).respond id req 0 0 []) rfl
  case observers =>
    exact commanded_act (fun id req u => ({ u with tether := { u.tether with observers := keys } } : State).respond id req 0 0 []) rfl
  case release => exact commanded_of (act := fun id req u => u.released id req) rfl fun req u => u.tether_released hd.session req
  case macsec => exact commanded_act (fun id req u => (u.modHport m.port fun p => p.install m).respond id req 0 0 []) rfl
  case svn =>
    exact commanded_of (act := fun id req u => u.svnAnswer id req v) rfl fun req u => ⟨fun h => if_pos h, fun h => if_neg (Nat.not_lt.mpr h)⟩
  case qpOpen =>
    exact commanded_of (act := fun id req u => u.qpAnswer id req q) rfl fun req u =>
      ⟨fun c h => State.qpAnswer_refused h, fun rkey psn v h ho => State.qpAnswer_opened h ho⟩
  case qpClose =>
    exact commanded_of (act := fun id req u => u.qpClosed id req n) rfl fun req u =>
      ⟨fun x h => State.qpClosed_open h, fun h => State.qpClosed_unknown h⟩
  case reset =>
    exact commanded_of (act := fun id req u => u.resetAsked id req k i) rfl fun req u => ⟨fun h => if_pos h, fun h => if_neg h⟩

end Sys2Proof.Machine
end


section
/-! Commands of a run (07_program_contract.md, 14_tether_host.md, 15_trust_waybills.md). -/

namespace Sys2Proof.Machine

open Sys2Proof

/-! ### LOAD -/

theorem State.dev_respond (s : State) (id req status code : Nat) (body : List Byte) : (s.respond id req status code body).dev = s.dev :=
  (s.saidOnly_respond id req status code body).keep State.dev fun _ _ _ _ => rfl

theorem State.recov_respond (s : State) (id req status code : Nat) (body : List Byte) : (s.respond id req status code body).recov = s.recov :=
  (s.saidOnly_respond id req status code body).keep State.recov fun _ _ _ _ => rfl

/-- What a load whose self-test failed leaves, before its answer. -/
def State.loadFailed (s : State) : State := (({ s with recov := s.recov.loaded } : State).enter .faulted .none 0).notify 13 0

theorem State.dev_notify (s : State) (cls : Nat) (place : W64) : (s.notify cls place).dev = s.dev := by
  obtain ⟨l, n, o, h, e, p, d, k⟩ := s.toldOnly_notify cls place
  rw [k]

theorem State.dev_loadFailed (s : State) : s.loadFailed.dev = .faulted := (State.dev_notify _ _ _).trans (State.enter_dev _ _ _ _)

section
variable {s v w : State} {b : LoadBody} {id req : Nat}

theorem State.load_unready (h : s.power.ledgerOk = false) : s.load b id req = s.respond id req 4 0 [] := by
  unfold State.load
  rw [h]
  exact if_pos rfl

theorem State.load_worn (h : s.power.ledgerOk = true) (hw : s.power.worn = true) :
    s.load b id req = ({ s with
      freeCtr := s.freeCtr + 1, loadCode := Config.freeValue s.freeCtr % 256 } : State).respond id req 3 (Config.freeValue s.freeCtr % 256)
        (beBytes 8 s.loadWhere.toNat) := by
  unfold State.load
  rw [h, hw]
  exact (if_neg Bool.false_ne_true).trans (if_pos rfl)

theorem State.load_checked (h : s.power.ledgerOk = true) (hw : s.power.worn = false) :
    s.load b id req = match s.loadImage b.position b.imageBase b.imageSize b.bind b.repair 0 with
    | (s1, some r) => s1.respond id req 3 r.code (beBytes 8 s1.loadWhere.toNat)
    | (s1, none) =>
      let (failed, s2) := s1.stepSeven
      (if failed then s2.loadFailed else s2.afterLoad).respond id req 0 0 [] := by
  unfold State.load
  rw [h, hw]
  exact (if_neg Bool.false_ne_true).trans (if_neg Bool.false_ne_true)

theorem State.load_refused {r : Refuse} (h : s.power.ledgerOk = true) (hw : s.power.worn = false)
    (hl : s.loadImage b.position b.imageBase b.imageSize b.bind b.repair 0 = (v, some r)) :
    s.load b id req = v.respond id req 3 r.code (beBytes 8 v.loadWhere.toNat) := by
  rw [State.load_checked h hw, hl]

theorem State.load_installed {failed : Bool} (h : s.power.ledgerOk = true) (hw : s.power.worn = false)
    (hl : s.loadImage b.position b.imageBase b.imageSize b.bind b.repair 0 = (v, none)) (h7 : v.stepSeven = (failed, w)) :
    s.load b id req = (if failed then w.loadFailed else w.afterLoad).respond id req 0 0 [] := by
  rw [State.load_checked h hw, hl]
  dsimp only
  rw [h7]

/-! ### TEAM and START -/

/-- The answer to TEAM. -/
def State.teamAnswer (s : State) (id req : Nat) (b : TeamBody) : State :=
  match s.teamRefusal b with
  | some c => s.respond id req 3 c []
  | none => (s.joinTeam b).respond id req 0 0 []

theorem State.teamAnswer_refused {b : TeamBody} {c : Nat} (h : s.teamRefusal b = some c) : s.teamAnswer id req b = s.respond id req 3 c [] := by
  unfold State.teamAnswer
  rw [h]

theorem State.teamAnswer_joined {b : TeamBody} (h : s.teamRefusal b = none) : s.teamAnswer id req b = (s.joinTeam b).respond id req 0 0 [] := by
  unfold State.teamAnswer
  rw [h]

theorem State.recov_enter (s : State) (d : DevSt) (r : Reason) (k : W64) : (s.enter d r k).recov = s.recov := by
  obtain ⟨c, h⟩ := s.enter_eq d r k
  exact h.keep State.recov fun _ _ _ _ => rfl

theorem State.team_joinTeam (s : State) (b : TeamBody) : (s.joinTeam b).recov.team = some b := by
  unfold State.joinTeam
  dsimp only
  split
  · rw [State.recov_enter]
    rfl
  · rfl

theorem State.dev_joinTeam_spare (s : State) {b : TeamBody} (h : b.spare = true) : (s.joinTeam b).dev = .armed := by
  unfold State.joinTeam
  dsimp only
  rw [if_pos h]
  exact State.enter_dev _ _ _ _

/-- The answer to START. -/
def State.startAnswer (s : State) (id req at_ : Nat) (step : W64) : State :=
  if at_ < s.now + 1000000 then s.respond id req 3 1 []
  else if s.teamFails then s.respond id req 3 2 []
  else (s.beginRun at_ step).respond id req 0 0 []

theorem State.startAnswer_team {at_ : Nat} {step : W64} (h : s.now + 1000000 ≤ at_) (hf : s.teamFails = true) :
    s.startAnswer id req at_ step = s.respond id req 3 2 [] :=
  (if_neg (Nat.not_lt.mpr h)).trans (if_pos hf)

theorem State.startAnswer_begins {at_ : Nat} {step : W64} (h : s.now + 1000000 ≤ at_) (hf : s.teamFails = false) :
    s.startAnswer id req at_ step = (s.beginRun at_ step).respond id req 0 0 [] :=
  (if_neg (Nat.not_lt.mpr h)).trans (if_neg fun hc => Bool.false_ne_true (hf.symm.trans hc))

theorem State.dev_beginRun (s : State) (at_ : Nat) (step : W64) : (s.beginRun at_ step).dev = .running := State.enter_dev _ _ _ _

/-! ### HALT, RESUME and WAYBILL -/

/-- A HALT whose answer waits. -/
def State.haltAsked (s : State) (id req : Nat) : State :=
  { s with
    recov := { s.recov with haltReply := s.recov.haltReply ++ [(id, req)] } }

/-- The answer to HALT. -/
def State.haltAnswer (s : State) (id req : Nat) : State :=
  if s.dev = .halted ∨ s.dev = .faulted then s.respond id req 0 0 (beBytes 8 s.recov.recStep.toNat)
  else if s.ownLead then (s.haltAsked id req).leadHalt
  else match s.leadPos with
    | some l => (s.haltAsked id req).sendMgmt l 0x03 [BitVec.ofNat 64 s.teamNo, s.step, 0]
    | none => (s.haltAsked id req).leadHalt

theorem State.haltAnswer_lead (h1 : s.dev ≠ .halted) (h2 : s.dev ≠ .faulted) (hl : s.ownLead = true) :
    s.haltAnswer id req = (s.haltAsked id req).leadHalt :=
  (if_neg (not_or.mpr ⟨h1, h2⟩)).trans (if_pos hl)

theorem State.haltAnswer_other {l : Nat} (h1 : s.dev ≠ .halted) (h2 : s.dev ≠ .faulted) (hl : s.ownLead = false) (hp : s.leadPos = some l) :
    s.haltAnswer id req = (s.haltAsked id req).sendMgmt l 0x03 [BitVec.ofNat 64 s.teamNo, s.step, 0] := by
  refine (if_neg (not_or.mpr ⟨h1, h2⟩)).trans ((if_neg fun hc => Bool.false_ne_true (hl.symm.trans hc)).trans ?_)
  rw [hp]

/-- A RESUME whose answer waits. -/
def State.resumeAsked (s : State) (id req : Nat) : State :=
  { s with
    recov := { s.recov with resumeReply := s.recov.resumeReply ++ [(id, req)] } }

/-- The answer to RESUME. -/
def State.resumeAnswer (s : State) (id req : Nat) : State :=
  if s.dev = .halted ∧ (s.reason = .host ∨ s.reason = .hbm) then
    let s1 := s.resumeAsked id req
    if s1.ownLead then s1.leadResume
    else match s1.leadPos with
      | some l => (if s1.recov.halted then s1.resolveUnits else s1).sendMgmt l 0x09
          [BitVec.ofNat 64 (s1.teamNo + s1.recov.runAlt * 2 ^ 16), s1.recov.recStep, 0, 0]
      | none => s1.leadResume
  else s.respond id req 3 1 []

theorem State.resumeAnswer_lead (h : s.dev = .halted) (hr : s.reason = .host ∨ s.reason = .hbm) (hl : s.ownLead = true) :
    s.resumeAnswer id req = (s.resumeAsked id req).leadResume :=
  (if_pos ⟨h, hr⟩).trans (if_pos (c := (s.resumeAsked id req).ownLead = true) hl)

theorem State.resumeAnswer_refused (h : s.dev ≠ .halted ∨ (s.reason ≠ .host ∧ s.reason ≠ .hbm)) :
    s.resumeAnswer id req = s.respond id req 3 1 [] := by
  refine if_neg ?_
  rintro ⟨h1, h2⟩
  tauto

/-- The answer to WAYBILL. -/
def State.waybillAnswer (s : State) (id req scope : Nat) (dig : List Byte) : State :=
  if !s.sec.keyOk then s
  else if scope = 0 then
    s.countWaybill.respond id req 0 0 (s.countWaybill.waybillBytes 1 false s.sec.runFirst s.sec.runLast dig
      [s.countWaybill.signedSegment s.sec.runLast dig])
  else if s.isLead then s.gather id req dig
  else s.respond id req 3 1 []

theorem State.waybillAnswer_keyed {scope : Nat} {dig : List Byte} (h : s.sec.keyOk = true) :
    s.waybillAnswer id req scope dig = if scope = 0 then
      s.countWaybill.respond id req 0 0 (s.countWaybill.waybillBytes 1 false s.sec.runFirst s.sec.runLast dig
        [s.countWaybill.signedSegment s.sec.runLast dig])
      else if s.isLead then s.gather id req dig else s.respond id req 3 1 [] := by
  refine if_neg ?_
  rw [h]
  exact Bool.false_ne_true

end

/-- Settles O55: each command is an act of `State.command`, and each clause a branch of the act. -/
theorem runCommandResults : Obligations.RunCommandResults := by
  unfold Obligations.RunCommandResults
  intro hd s id
  refine ⟨fun b => ?load, fun b => ?team, fun at_ step => ?start, ?halt, ?resume, fun scope dig => ?waybill⟩
  case load =>
    refine commanded_of (act := fun id req u => u.load b id req) rfl fun req u =>
      ⟨State.load_unready, State.load_worn, fun v failed w h hw hl h7 => ?_, fun v r h hw hl => State.load_refused h hw hl⟩
    rw [State.load_installed h hw hl h7, State.dev_respond]
    exact ⟨fun hf => by subst hf; exact ⟨rfl, State.enter_dev _ _ _ _⟩, fun hf => by subst hf; exact State.dev_loadFailed w⟩
  case team =>
    refine commanded_of (act := fun id req u => u.teamAnswer id req b) rfl fun req u => ⟨fun c h => State.teamAnswer_refused h, fun h => ?_⟩
    rw [State.teamAnswer_joined h, State.recov_respond, State.dev_respond]
    exact ⟨rfl, State.team_joinTeam u b, fun hs => State.dev_joinTeam_spare u hs⟩
  case start =>
    refine commanded_of (act := fun id req u => u.startAnswer id req at_ step) rfl fun req u =>
      ⟨fun h => if_pos h, fun h hf => State.startAnswer_team h hf, fun h hf => ?_⟩
    rw [State.startAnswer_begins h hf, State.dev_respond]
    exact ⟨rfl, State.dev_beginRun u at_ step⟩
  case halt =>
    exact commanded_of (act := fun id req u => u.haltAnswer id req) rfl fun req u =>
      ⟨fun h => if_pos h, State.haltAnswer_lead, fun l => State.haltAnswer_other⟩
  case resume =>
    exact commanded_of (act := fun id req u => u.resumeAnswer id req) rfl fun req u => ⟨State.resumeAnswer_lead, State.resumeAnswer_refused⟩
  case waybill =>
    refine commanded_of (act := fun id req u => u.waybillAnswer id req scope dig) rfl fun req u hk => ?_
    rw [State.waybillAnswer_keyed hk]
    exact ⟨fun h0 => if_pos h0, fun h1 hl => (if_neg (by omega)).trans (if_pos hl),
      fun h1 hl => (if_neg (by omega)).trans (if_neg fun hc => Bool.false_ne_true (hl.symm.trans hc))⟩

end Sys2Proof.Machine
end


section
/-! Queue pairs and host ports (14_tether_host.md). -/

namespace Sys2Proof.Machine

open Sys2Proof

/-! ### Host ports -/

@[simp] theorem State.hport_modHport (s : State) (h : Nat) (f : HPort → HPort) : (s.modHport h f).hport h = f (s.hport h) :=
  SMap.get_set_self s.hports h _ {}

theorem State.hport_modHport_ne (s : State) {h p : Nat} (f : HPort → HPort) (hp : p ≠ h) : (s.modHport h f).hport p = s.hport p :=
  SMap.get_set_ne s.hports _ {} hp

/-- What counting leaves of a host port stays when frames are sent. -/
theorem State.keep_hport_sentFrames {α : Type} (g : HPort → α) (hg : ∀ (x : HPort) o n, g (x.count o n) = g x) (s : State) (h n p : Nat) :
    g ((s.sentFrames h n).hport p) = g (s.hport p) := by
  unfold State.sentFrames
  split
  · rfl
  · by_cases hp : p = h
    · subst hp
      rw [State.hport_modHport, hg]
    · rw [State.hport_modHport_ne s _ hp]

theorem State.keep_hport_sessionsMap {α : Type} (g : HPort → α) (hg : ∀ (x : HPort) o n, g (x.count o n) = g x) (s : State)
    (f : Session → Session) (p : Nat) : g ((s.sessionsMap f).hport p) = g (s.hport p) := by
  unfold State.sessionsMap State.sendAll
  exact State.foldl_keep (fun u => g (State.hport u p)) _ (fun u (r : Session × List Output) =>
    State.keep_hport_sentFrames g hg { u with out := r.2 ++ u.out } r.1.port r.2.length p) _ _

theorem State.keep_hport_raise {α : Type} (g : HPort → α) (hg : ∀ (x : HPort) o n, g (x.count o n) = g x) (s : State) (code : Nat)
    (body : List Byte) (p : Nat) : g ((s.raise code body).hport p) = g (s.hport p) := by
  unfold State.raise
  exact State.keep_hport_sessionsMap g hg _ _ p

theorem State.keep_hport_putOut {α : Type} (g : HPort → α) (hg : ∀ (x : HPort) o n, g (x.count o n) = g x) (s : State) (h : Nat)
    (o : Output) (p : Nat) : g ((s.putOut h o).hport p) = g (s.hport p) :=
  State.keep_hport_sentFrames g hg (s.emit o) h 1 p

theorem State.hport_putOut_ne (s : State) {h p : Nat} (o : Output) (hp : p ≠ h) : (s.putOut h o).hport p = s.hport p := by
  unfold State.putOut State.sentFrames
  rw [if_neg (by decide)]
  exact State.hport_modHport_ne (s.emit o) _ hp

/-! ### Queue pairs -/

theorem SMap.get?_isSome_of_mem {α : Type} {m : SMap α} {k : Nat} {v : α} (h : (k, v) ∈ m) : ∃ w, SMap.get? m k = some w := by
  induction m with
  | nil => cases h
  | cons x m ih =>
    unfold SMap.get?
    by_cases hk : x.1 = k
    · exact ⟨x.2, if_pos hk⟩
    · rw [if_neg hk]
      refine ih ((List.mem_cons.mp h).resolve_left fun hx => hk ?_)
      rw [← hx]

theorem State.qps_get?_of_qp? {s : State} {qpn e : Nat} {q : Qp} (h : s.qp? qpn = some (e, q)) : ∃ w, s.qps.get? e = some w :=
  SMap.get?_isSome_of_mem (List.mem_of_find?_eq_some h)

theorem State.modQp_eq (s : State) (e : Nat) (f : Qp → Qp) : ∃ qs, s.modQp e f = { s with qps := qs } := by
  unfold State.modQp
  split
  · exact ⟨_, rfl⟩
  · exact ⟨s.qps, rfl⟩

/-- A NAK puts the queue pair into the error state. -/
theorem State.qpNak_st {s : State} {e : Nat} {w : Qp} (q : Qp) (syndrome : Nat) (h : s.qps.get? e = some w) :
    ((s.qpNak e q syndrome).qps.get? e).map Qp.st = some .error := by
  have hq : (s.qpNak e q syndrome).qps = s.qps.set e { w with st := .error } := by
    unfold State.qpNak State.modQp
    rw [h]
    rfl
  rw [hq, SMap.get?_set_self]
  rfl

theorem State.qps_raise (s : State) (code : Nat) (body : List Byte) : (s.raise code body).qps = s.qps :=
  (s.saidOnly_raise code body).keep State.qps fun _ _ _ _ => rfl

section
variable {s : State} {qpn e : Nat} {q : Qp}

theorem State.QpReady.get? (h : s.QpReady qpn e q) : ∃ w, s.qps.get? e = some w := by
  obtain ⟨-, hq, -⟩ := h
  exact State.qps_get?_of_qp? hq

/-- The port of a queue pair has counted a packet. -/
def State.qpHeard (s : State) (q : Qp) (frames : Nat) : State := s.gotFrames q.body.port frames

theorem State.qps_qpHeard (frames : Nat) : (s.qpHeard q frames).qps = s.qps :=
  (s.saidOnly_gotFrames _ _).keep State.qps fun _ _ _ _ => rfl

theorem exec_roceSend (h : s.QpReady qpn e q) (data : List Byte) :
    exec (.roceSend qpn data) s = .next ((s.qpHeard q 1).roceSend e q data) :=
  congrArg Host.Outcome.next (State.onQp_run h 1 _)

theorem exec_rdmaWrite (h : s.QpReady qpn e q) (rkey va : Nat) (data : List Byte) :
    exec (.rdmaWrite qpn rkey va data) s = .next (if q.inWindow rkey va data.length
      then ((s.qpHeard q (q.packets data.length)).hbmWrite va (clean data) true).qpOut q (.roceAck qpn)
      else (s.qpHeard q (q.packets data.length)).qpDenied e q va) := by
  refine congrArg Host.Outcome.next ((State.onQp_run h _ _).trans ?_)
  obtain ⟨-, hq, -⟩ := h
  rw [hq]
  rfl

theorem exec_rdmaReadRequest (h : s.QpReady qpn e q) (rkey va len : Nat) :
    exec (.rdmaReadRequest qpn rkey va len) s = .next (if q.inWindow rkey va len then (s.qpHeard q 1).rdmaRead e q va len
      else (s.qpHeard q 1).qpDenied e q va) :=
  congrArg Host.Outcome.next (State.onQp_run h 1 _)

theorem exec_invalidRequest (h : s.QpReady qpn e q) : exec (.invalidRequest qpn) s = .next ((s.qpHeard q 1).qpInvalid e q) :=
  congrArg Host.Outcome.next (State.onQp_run h 1 _)

theorem exec_cnp (h : s.QpReady qpn e q) : exec (.cnp qpn) s = .next ((s.qpHeard q 1).modQp e fun x => { x with cnps := x.cnps + 1 }) :=
  congrArg Host.Outcome.next (State.onQp_run h 1 _)

/-! ### A SEND -/

theorem State.roceSend_channel {data : List Byte} {c : Chan} (hc : q.body.chan = true) (h64 : data.length % 64 = 0) (h0 : data.length ≠ 0)
    (h256 : data.length ≤ 256) (hr : s.dev ≠ .recovering) (hh : s.dev ≠ .halted) (hq : q.st = .ready)
    (hch : s.chanOf q.body.tile q.body.ch = some c) : s.roceSend e q data = s.sendHost e q c.size data := by
  unfold State.roceSend
  have hlen : ¬ ((!q.body.chan) = true ∨ data.length % 64 ≠ 0 ∨ data.length = 0 ∨ 256 < data.length) := by
    rw [hc]
    simp only [Bool.not_true, Bool.false_eq_true, false_or]
    omega
  rw [if_neg hlen, if_neg (not_or.mpr ⟨hr, hh⟩), if_neg (by rw [hq]; decide), hch]

/-- The write position, the toll and the padding of a message of a host's sender. -/
def State.hostPlan (s : State) (q : Qp) (size len : Nat) : Nat × Nat × Bool :=
  ({ size := size, wrPos := (s.senders.get (16 * q.body.tile + q.body.ch) {}).w } : OPort).plan len

/-- A message of a host on its way to its channel. -/
def State.hostMessage (s : State) (q : Qp) (size : Nat) (data : List Byte) : InMsg :=
  let key := 16 * q.body.tile + q.body.ch
  let h := s.senders.get key {}
  let plan := s.hostPlan q size (data.length / 64)
  ⟨some (200 + key), q.body.tile, q.body.ch, h.seq.toNat, plan.2.2, h.w, plan.2.1, bytesGrans (16 * (data.length / 64)) (clean data)⟩

theorem State.sendHost_waits {size : Nat} {data : List Byte} (h : (s.gsem q.body.tollGs).value < (s.hostPlan q size (data.length / 64)).1) :
    s.sendHost e q size data = s.rnr q := if_pos h

theorem State.qpOut_eq (s : State) (q : Qp) (o : Output) : ∃ out hp, s.qpOut q o = { s with out := out, hports := hp } := ⟨_, _, rfl⟩

/-- A message of a host sets out: its toll taken, its sender moved on. -/
def State.hostPosted (s : State) (q : Qp) (size : Nat) (data : List Byte) (sn : SMap HostSender) : State :=
  { s with
    net := s.net ++ [NetPkt.msg (s.hostMessage q size data)]
    gs := s.gs.set q.body.tollGs ((s.gsem q.body.tollGs).sub (s.hostPlan q size (data.length / 64)).1)
    senders := sn }

theorem State.sendHost_sends {size : Nat} {data : List Byte} (h : (s.hostPlan q size (data.length / 64)).1 ≤ (s.gsem q.body.tollGs).value) :
    ∃ sn, s.sendHost e q size data
      = ((s.hostPosted q size data sn).modQp e fun x => { x with delivered := x.delivered + 1 }).qpOut q (.roceAck q.body.qpn) :=
  ⟨_, if_neg (Nat.not_lt.mpr h)⟩

theorem State.modQp_qpOut_eq (v : State) (e : Nat) (f : Qp → Qp) (q : Qp) (o : Output) :
    ∃ qs out hp, (v.modQp e f).qpOut q o = { v with qps := qs, out := out, hports := hp } := by
  obtain ⟨qs, hqs⟩ := v.modQp_eq e f
  obtain ⟨out, hp, ho⟩ := (v.modQp e f).qpOut_eq q o
  exact ⟨qs, out, hp, ho.trans (by rw [hqs])⟩

theorem State.gsem_hostPosted {size : Nat} {data : List Byte} {sn : SMap HostSender} :
    (s.hostPosted q size data sn).gsem q.body.tollGs = (s.gsem q.body.tollGs).sub (s.hostPlan q size (data.length / 64)).1 :=
  SMap.get_set_self s.gs _ _ {}

theorem State.gsem_hostPosted_ne {size i : Nat} {data : List Byte} {sn : SMap HostSender} (h : i ≠ q.body.tollGs) :
    (s.hostPosted q size data sn).gsem i = s.gsem i :=
  SMap.get_set_ne s.gs _ {} h

/-! ### A READ -/

theorem State.sentFrames_eq (s : State) (h n : Nat) : ∃ hp, s.sentFrames h n = { s with hports := hp } := by
  unfold State.sentFrames
  split
  · exact ⟨s.hports, rfl⟩
  · exact ⟨_, rfl⟩

theorem State.HbmOnly.with_out {u v : State} (h : u.HbmOnly v) (hp : SMap HPort) (o : List Output) :
    ({ v with hports := hp, out := o } : State)
      = { u with hbm := v.hbm, depots := v.depots, reportsOut := v.reportsOut, hports := hp, out := o } :=
  congrArg (fun x : State => { x with hports := hp, out := o }) h

theorem State.rdmaRead_clean {va len : Nat} (h : ∀ x ∈ (s.hbmTouch va len true).hbmBytes va len, x.2 = false) :
    s.rdmaRead e q va len = ((s.hbmTouch va len true).emit
      (.readResponse q.body.qpn (((s.hbmTouch va len true).hbmBytes va len).map Prod.fst))).sentFrames q.body.port (q.packets len) := by
  have hnone : ((s.hbmTouch va len true).hbmBytes va len).findIdx? (fun x => x.2) = none := List.findIdx?_eq_none_iff.mpr h
  unfold State.rdmaRead
  simp only [hnone]

end

/-! ### Host port frames -/

theorem not_off_or_warm {s : State} (hd : s.dev ≠ .off) (hw : s.rst.warm = false) : ¬ (s.dev = .off ∨ s.rst.warm = true) := by
  rintro (h | h)
  · exact hd h
  · exact Bool.false_ne_true (hw.symm.trans h)

section
variable {s : State} {p : Nat}

theorem exec_pfcFrame_paused {pause : Nat} (hd : s.dev ≠ .off) (hw : s.rst.warm = false) (hp : (s.hport p).pfc = true) :
    ∃ n, exec (.pfcFrame p pause) s = .next (({ s.gotFrames p 1 with
      freeCtr := s.freeCtr + 1 } : State).modHport p fun x => { x.count hpPfcPaused n with paused := pause }) :=
  ⟨_, congrArg Host.Outcome.next ((if_neg (not_off_or_warm hd hw)).trans (if_pos hp))⟩

theorem State.putOut_eq (s : State) (h : Nat) (o : Output) : ∃ out hp, s.putOut h o = { s with out := out, hports := hp } := ⟨_, _, rfl⟩

theorem State.announce_eq (s : State) (h : Nat) (a : BitVec 128) : ∃ o hp, s.announce h a = { s with out := o, hports := hp } := by
  unfold State.announce
  obtain ⟨o, hp, h1⟩ := s.putOut_eq h (.mld h (solicitedNode a))
  rw [h1]
  exact State.putOut_eq _ h (.solicit h a)

/-- A port with one more global address. -/
def State.prefixTaken (s : State) (p : Nat) (pfx : BitVec 64) : State := s.modHport p fun x => { x with gaddrs := x.gaddrs ++ [pfx] }

theorem exec_routerAdvertisement_taken {pfx : BitVec 64} (hd : s.dev ≠ .off) (hw : s.rst.warm = false) (hn : (s.hport p).gaddrs.length < 4)
    (hm : pfx ∉ (s.hport p).gaddrs) :
    exec (.routerAdvertisement p pfx) s = .next (((s.gotFrames p 1).prefixTaken p pfx).announce p (s.globalAddr p pfx)) :=
  congrArg Host.Outcome.next ((if_neg (not_off_or_warm hd hw)).trans (if_pos ⟨hn, hm⟩))

theorem exec_neighbourDiscovery_mine {a : BitVec 128} {dad : Bool} (hd : s.dev ≠ .off) (hw : s.rst.warm = false) (h : a ∈ s.addresses p) :
    exec (.neighbourDiscovery p a dad) s = .next ((s.gotFrames p 1).putOut p (.neighbour p a)) :=
  congrArg Host.Outcome.next ((if_neg (not_off_or_warm hd hw)).trans (if_pos h))

theorem exec_icmpv6Echo_mine {a : BitVec 128} {body : List Byte} (hd : s.dev ≠ .off) (hw : s.rst.warm = false)
    (h : a ∈ allNodes :: s.addresses p) : exec (.icmpv6Echo p a body) s = .next ((s.gotFrames p 1).putOut p (.echo p body)) :=
  congrArg Host.Outcome.next ((if_neg (not_off_or_warm hd hw)).trans (if_pos h))

theorem exec_icmpv6Echo_other {a : BitVec 128} {body : List Byte} (hd : s.dev ≠ .off) (hw : s.rst.warm = false)
    (h : a ∉ allNodes :: s.addresses p) : exec (.icmpv6Echo p a body) s = .next ((s.gotFrames p 1).otherDrop p) :=
  congrArg Host.Outcome.next ((if_neg (not_off_or_warm hd hw)).trans (if_neg h))

/-- A port whose link has come up. -/
def State.linkUp (s : State) (p speed : Nat) : State :=
  (s.modHport p fun x => { x with up := true, speedNow := (s.hport p).upSpeed speed, gaddrs := [] }).announce p (s.linkLocal p)

theorem exec_hostLinkChange_up {speed : Nat} (hd : s.dev ≠ .off) (hr : s.dev ≠ .rom) (hu : (s.hport p).up = false)
    (he : (s.hport p).enable = true) (hv : (s.hport p).upSpeed speed ≠ 0) :
    exec (.hostLinkChange p true speed) s = .next ((s.linkUp p speed).linkEvent 1 p 1) := by
  refine congrArg Host.Outcome.next ((if_neg hd).trans ((if_neg Bool.false_ne_true).trans (if_neg ?_)))
  rintro (h | h | h | ⟨h, -⟩)
  · exact Bool.false_ne_true (hu.symm.trans h)
  · rw [he] at h
    exact Bool.false_ne_true h
  · exact hv h
  · exact hr h

theorem exec_frameDiscard_counts {kind : DropKind} (hd : s.dev ≠ .off) (hw : s.rst.warm = false) (h : kind = .macsec → (s.hport p).macsec = true) :
    exec (.frameDiscard p kind) s = .next ((s.gotFrames p 1).modHport p fun y => { y.count (dropCounter kind) 1 with
      errMacsec := y.errMacsec || decide (kind = .macsec), errAuth := y.errAuth || decide (kind = .auth) }) := by
  refine congrArg Host.Outcome.next ((if_neg (not_off_or_warm hd hw)).trans (if_neg ?_))
  rintro ⟨hk, hm⟩
  rw [h hk] at hm
  exact Bool.false_ne_true hm

theorem State.gotFrames_eq (s : State) (p : Nat) : s.gotFrames p 1 = s.modHport p fun x => x.count hpRxFrames 1 := rfl

end

/-- Settles O56: each packet on a ready queue pair and each frame of a port has its equation; what is sent counts on ports. -/
theorem hostTrafficResults : Obligations.HostTrafficResults := by
  unfold Obligations.HostTrafficResults
  refine ⟨fun qpn e q s hq => ?_, fun p s hd hw => ?_⟩
  · intro u b
    obtain ⟨w, hw⟩ := hq.get?
    have hnak : ∀ syn, ((u.qpNak e q syn).qps.get? e).map Qp.st = some .error := fun syn =>
      State.qpNak_st q syn ((congrArg (SMap.get? · e) (State.qps_qpHeard 1)).trans hw)
    refine ⟨fun data c hc h64 h0 h256 hr hh hst hch => ?send, fun rkey va data h => (exec_rdmaWrite hq rkey va data).trans (congrArg Host.Outcome.next (if_pos h)),
      fun rkey va data h => (exec_rdmaWrite hq rkey va data).trans (congrArg Host.Outcome.next (if_neg fun hc => Bool.false_ne_true (h.symm.trans hc))),
      fun rkey va len h hb => ?read, fun rkey va len h => ⟨?denied, ?deniedError⟩, ⟨exec_invalidRequest hq, ?invalidError⟩, exec_cnp hq⟩
    case send =>
      intro h o plan
      have hrun : exec (.roceSend qpn data) s = .next ((s.qpHeard q 1).sendHost e q c.size data) :=
        (exec_roceSend hq data).trans (congrArg Host.Outcome.next (State.roceSend_channel hc h64 h0 h256 hr hh hst hch))
      refine ⟨fun hlt => hrun.trans (congrArg Host.Outcome.next (State.sendHost_waits hlt)), fun hle => ?_⟩
      obtain ⟨sn, hs⟩ := State.sendHost_sends (s := s.qpHeard q 1) (q := q) (e := e) hle
      obtain ⟨qs, out, hp, hg⟩ := State.modQp_qpOut_eq ((s.qpHeard q 1).hostPosted q c.size data sn) e
        (fun x => { x with delivered := x.delivered + 1 }) q (.roceAck q.body.qpn)
      refine ⟨_, hrun.trans (congrArg Host.Outcome.next (hs.trans hg)), rfl, ?_, fun i hi => ?_, rfl⟩
      · exact State.gsem_hostPosted (s := s.qpHeard q 1) (sn := sn)
      · exact State.gsem_hostPosted_ne (s := s.qpHeard q 1) (sn := sn) hi
    case read =>
      have hclean := State.rdmaRead_clean (s := s.qpHeard q 1) (e := e) (q := q) hb
      obtain ⟨hp, hsent⟩ := State.sentFrames_eq ((u.hbmTouch va len true).emit
        (.readResponse b.qpn (((u.hbmTouch va len true).hbmBytes va len).map Prod.fst))) b.port (q.packets len)
      refine ⟨_, (exec_rdmaReadRequest hq rkey va len).trans (congrArg Host.Outcome.next ((if_pos h).trans (hclean.trans hsent))),
        List.mem_cons_self, ?_, ?_⟩
      · exact State.hbmTouch_bytes u va len true
      · exact State.HbmOnly.with_out (State.HbmOnly.touch u va len true) hp _
    case denied =>
      exact (exec_rdmaReadRequest hq rkey va len).trans (congrArg Host.Outcome.next (if_neg fun hc => Bool.false_ne_true (h.symm.trans hc)))
    case deniedError =>
      unfold State.qpDenied State.qpEvent
      rw [State.qps_raise]
      exact hnak 0x62
    case invalidError =>
      unfold State.qpInvalid State.qpEventAnon State.qpEvent
      dsimp only
      rw [State.qps_raise]
      exact hnak 0x61
  · intro u x
    refine ⟨fun pause h => ?pause, fun pfx hn hm => ?ra, fun a dad h => exec_neighbourDiscovery_mine hd hw h, fun a body h => exec_icmpv6Echo_mine hd hw h,
      fun a body h => exec_icmpv6Echo_other hd hw h, fun speed hu he hv hr => ?linkUp, fun speed => ?linkDown,
      fun kind h => exec_frameDiscard_counts hd hw h⟩
    case pause =>
      obtain ⟨n, hn⟩ := exec_pfcFrame_paused hd hw h
      refine ⟨_, hn, ?_, rfl, fun k hk => ?_⟩
      · rw [State.hport_modHport]
      · rw [State.hport_modHport_ne _ _ hk]
        exact State.hport_modHport_ne s (fun y => y.count hpRxFrames 1) hk
    case ra =>
      have heq : ∃ o hp, ((s.gotFrames p 1).prefixTaken p pfx).announce p (s.globalAddr p pfx) = { s with out := o, hports := hp } :=
        State.announce_eq ((s.gotFrames p 1).prefixTaken p pfx) p (s.globalAddr p pfx)
      refine ⟨_, exec_routerAdvertisement_taken hd hw hn hm, ?_, ?_, fun k hk => ?_⟩
      · unfold State.announce State.prefixTaken
        rw [State.keep_hport_putOut HPort.gaddrs (fun _ _ _ => rfl), State.keep_hport_putOut HPort.gaddrs (fun _ _ _ => rfl),
          State.hport_modHport, State.gotFrames_eq, State.hport_modHport]
        rfl
      · obtain ⟨o, hp, he⟩ := heq
        rw [he]
      · unfold State.announce State.prefixTaken
        rw [State.hport_putOut_ne _ _ hk, State.hport_putOut_ne _ _ hk, State.hport_modHport_ne _ _ hk, State.gotFrames_eq, State.hport_modHport_ne _ _ hk]
    case linkUp =>
      have hup : s.SaidOnly (s.linkUp p speed) := by
        obtain ⟨o, hp, he⟩ := State.announce_eq (s.modHport p fun x => { x with up := true, speedNow := (s.hport p).upSpeed speed, gaddrs := [] })
          p (s.linkLocal p)
        exact ⟨o, hp, s.tether, he⟩
      have hsaid : s.SaidOnly ((s.linkUp p speed).linkEvent 1 p 1) := hup.trans (State.saidOnly_linkEvent _ 1 p 1)
      refine ⟨_, exec_hostLinkChange_up hd hr hu he hv, ?_, ?_, hsaid.eq_with⟩
      · unfold State.linkEvent State.linkUp State.announce
        rw [State.keep_hport_raise HPort.up (fun _ _ _ => rfl), State.keep_hport_putOut HPort.up (fun _ _ _ => rfl),
          State.keep_hport_putOut HPort.up (fun _ _ _ => rfl), State.hport_modHport]
      · unfold State.linkEvent State.linkUp State.announce
        rw [State.keep_hport_raise HPort.speedNow (fun _ _ _ => rfl), State.keep_hport_putOut HPort.speedNow (fun _ _ _ => rfl),
          State.keep_hport_putOut HPort.speedNow (fun _ _ _ => rfl), State.hport_modHport]
    case linkDown => exact congrArg Host.Outcome.next ((if_neg hd).trans (if_pos rfl))

end Sys2Proof.Machine
end


section
/-! Steps and waybills (12_recovery.md, 15_trust_waybills.md). -/

namespace Sys2Proof.Machine

open Sys2Proof

/-! ### The segment map under reads -/

theorem State.touchUnit_map (s : State) (unit : Nat) (m : Bool) : (s.touchUnit unit m).hbm.map = s.hbm.map := by
  unfold State.touchUnit
  dsimp only
  split
  · obtain ⟨q, c, h⟩ := s.hbm_codeCheck (segOf unit) (entRow (s.mapEntry (segOf unit))) (unitIn unit) m
    rw [h]
  · rfl

theorem State.hbmTouch_map (s : State) (off len : Nat) (m : Bool) : (s.hbmTouch off len m).hbm.map = s.hbm.map := by
  unfold State.hbmTouch
  rw [State.countUnmapped_hbm]
  exact State.foldl_keep (fun s => s.hbm.map) _ (fun _ _ => State.touchUnit_map _ _ _) _ s

/-! ### The end of a step -/

/-- A part of the state that the fold of a step, its log and its events do not touch. -/
def AwayFromFold {α : Type} (g : State → α) : Prop :=
  ∀ (s : State) rc sc hb dp ro o h e p dl, g { s with
    recov := rc, sec := sc, hbm := hb, depots := dp, reportsOut := ro, out := o, hports := h, tether := e, ports := p, delivered := dl } = g s

section
variable {α : Type} {g : State → α} (hg : AwayFromFold g)
include hg

theorem AwayFromFold.touch (s : State) (off len : Nat) (m : Bool) : g (s.hbmTouch off len m) = g s :=
  (congrArg g (State.HbmOnly.touch s off len m)).trans (hg s s.recov s.sec _ _ _ s.out s.hports s.tether s.ports s.delivered)

theorem AwayFromFold.sendMgmt (s : State) (dst sub : Nat) (words : List W64) : g (s.sendMgmt dst sub words) = g s :=
  (s.sentOnly_sendMgmt dst sub words).keep g fun v p d => hg v v.recov v.sec v.hbm v.depots v.reportsOut v.out v.hports v.tether p d

theorem AwayFromFold.said {s t : State} (h : s.SaidOnly t) : g t = g s :=
  h.keep g fun v o p e => hg v v.recov v.sec v.hbm v.depots v.reportsOut o p e v.ports v.delivered

theorem AwayFromFold.recov (s : State) (r : Recovery) : g { s with recov := r } = g s :=
  hg s r s.sec s.hbm s.depots s.reportsOut s.out s.hports s.tether s.ports s.delivered

theorem AwayFromFold.sec (s : State) (x : Security) : g { s with sec := x } = g s :=
  hg s s.recov x s.hbm s.depots s.reportsOut s.out s.hports s.tether s.ports s.delivered

theorem AwayFromFold.fold (s : State) (step : W64) : g (s.fold step) = g s := by
  unfold State.fold
  refine (State.foldl_keep g _ (fun u d => hg.sendMgmt _ _ _ _) _ _).trans ?_
  refine (hg.sec _ _).trans ?_
  exact State.foldl_keep g _ (fun u d => hg.touch _ _ _ _) _ s

theorem AwayFromFold.beginCairn (s : State) (tag : W64) : g (s.beginCairn tag) = g s := by
  unfold State.beginCairn
  split
  · exact hg.recov _ _
  · rfl

end

/-- The state as the step ends, before its fold. -/
def State.stepEnded (s : State) : State :=
  { s with
    step := s.step + 1, arrived := false, stepReleases := s.stepReleases - 1
    tiles := s.tiles.map fun (x : Nat × Tile) => (x.1, x.2.latchSlip)
    reports := s.reportsNext, reportsNext := []
    recov := { s.recov with
      detected := s.reportsNext.map PReport.place, detectedBefore := [], wdogAt := [], wdogBefore := [], starts := 1,
      poisonUnits := if s.reportsNext.isEmpty then [] else s.recov.poisonUnits } }

/-- The step that has ended, its digest folded, its log final, its event raised. -/
def State.stepTold (s : State) : State := ((s.stepEnded.fold s.step).finalLog s.step).raise 2 (beBytes 8 (s.step + 1).toNat)

/-- A cairn begins or not. -/
theorem State.endStep_cases (s : State) : s.endStep = s.stepTold ∨ s.endStep = s.stepTold.beginCairn s.stepTold.step := by
  by_cases h : s.stepTold.step.toNat % (s.image.map Image.cairnEvery).getD 64 = 0
  · exact .inr (if_pos h)
  · exact .inl (if_neg h)

theorem AwayFromFold.endStep {α : Type} {g : State → α} (hg : AwayFromFold g) (s : State) : g s.endStep = g s.stepEnded := by
  have htold : g s.stepTold = g s.stepEnded :=
    (hg.said (State.saidOnly_raise _ _ _)).trans ((hg.recov _ _).trans (hg.fold s.stepEnded s.step))
  rcases s.endStep_cases with h | h
  · rw [h, htold]
  · rw [h, hg.beginCairn, htold]

theorem State.fold_map (s : State) (step : W64) : (s.fold step).hbm.map = s.hbm.map := by
  unfold State.fold
  refine (State.foldl_keep (fun v => v.hbm.map) _ (fun u d => congrArg Hbm.map (State.sendMgmt_hbm _ _ _ _)) _ _).trans ?_
  exact State.foldl_keep (fun v => v.hbm.map) _ (fun u d => State.hbmTouch_map _ _ _ _) _ s

theorem State.endStep_map (s : State) : s.endStep.hbm.map = s.hbm.map := by
  have htold : s.stepTold.hbm.map = s.hbm.map := by
    unfold State.stepTold
    rw [State.raise_hbm, State.finalLog_hbm]
    exact State.fold_map s.stepEnded s.step
  rcases s.endStep_cases with h | h
  · rw [h, htold]
  · rw [h, State.beginCairn_hbm, htold]

theorem exec_stepEnd_ends {s : State} (h : 0 < s.stepReleases) (ha : s.arrived = true) (hp : s.recov.haltPosted = false) :
    exec .stepEnd s = .next s.endStep :=
  congrArg Host.Outcome.next (if_pos ⟨h, ha, .inl ((Bool.not_eq_true' _).mpr hp)⟩)

/-- The fields that the end of a step may change, read off its result. -/
theorem State.endStep_eq (s : State) : s.endStep = { s with
    step := s.endStep.step, arrived := s.endStep.arrived, stepReleases := s.endStep.stepReleases, tiles := s.endStep.tiles
    reports := s.endStep.reports, reportsNext := s.endStep.reportsNext, recov := s.endStep.recov, sec := s.endStep.sec
    hbm := s.endStep.hbm, depots := s.endStep.depots, reportsOut := s.endStep.reportsOut, out := s.endStep.out
    hports := s.endStep.hports, tether := s.endStep.tether, ports := s.endStep.ports, delivered := s.endStep.delivered } :=
  AwayFromFold.endStep (g := fun v : State => { v with
    step := s.endStep.step, arrived := s.endStep.arrived, stepReleases := s.endStep.stepReleases, tiles := s.endStep.tiles
    reports := s.endStep.reports, reportsNext := s.endStep.reportsNext, recov := s.endStep.recov, sec := s.endStep.sec
    hbm := s.endStep.hbm, depots := s.endStep.depots, reportsOut := s.endStep.reportsOut, out := s.endStep.out
    hports := s.endStep.hports, tether := s.endStep.tether, ports := s.endStep.ports, delivered := s.endStep.delivered })
    (fun _ _ _ _ _ _ _ _ _ _ _ => rfl) s

/-! ### Reports, faults and the arrival of base camp -/

section
variable {s : State}

theorem exec_poisonReport_mem {r : PReport} (h : r ∈ s.reportsOut) :
    exec (.poisonReport r) s = .next (({ s with reportsOut := s.reportsOut.erase r } : State).takeReport r) :=
  congrArg Host.Outcome.next (if_pos h)

theorem exec_tileFault_mem {n : Nat} (h : n ∈ s.faultsOut) :
    exec (.tileFault n) s = .next (({ s with faultsOut := s.faultsOut.erase n } : State).takeFault n) :=
  congrArg Host.Outcome.next (if_pos h)

theorem exec_baseCampArrival_last {m : Image} (hm : s.image = some m) (ho : s.othersArrived = true) (ha : s.arrived = false)
    (hp : s.recov.haltPosted = false) (h0 : s.recov.phase = 0) (hf : s.sec.folded = true) (hr : s.reports = []) :
    exec .baseCampArrival s
      = .next (({ s with arrived := true, bcTag := s.bcTag + 1 } : State).agentArrive 6 0 m.position m.stepBelay s.bcTag.toNat) := by
  change execBaseCampArrival s = _
  unfold execBaseCampArrival
  rw [hm]
  refine congrArg Host.Outcome.next ((if_neg ?_).trans (if_neg ?_))
  · simp [ho, ha, hp, h0, hf]
  · simp [hr]

/-! ### Chains and waybills -/

theorem exec_stepDigest_kept {pos : Nat} {poison : Bool} {step : W64} {sd : List Byte} {u : State}
    (hu : u = s.tookMgmt 0x41 ([BitVec.ofNat 64 (pos % 65536 + (if poison = true then 65536 else 0)), step] ++ digestWords sd))
    (h : u.isLead = true ∨ u.isDeputy = true) :
    exec (.stepDigest pos poison step sd) s = .next { u with sec := u.sec.digestTaken pos step sd } := by
  subst hu
  exact congrArg Host.Outcome.next (if_pos h)

theorem exec_chain_takeover {pos : Nat} {km1 : W64} {c : List Byte} {u : State}
    (hu : u = s.tookMgmt 0x42 ([BitVec.ofNat 64 pos, km1] ++ digestWords c)) (h : u.recov.takeover.isSome = true) :
    exec (.chain pos km1 c) s = .next { u with
      sec := { u.sec with
        spareChain := some (km1, c), runOpen := true, runFirst := km1 + 1, runLast := km1, runChain := c, folded := true } } := by
  subst hu
  exact congrArg Host.Outcome.next (if_pos h)

theorem exec_wbReq_answers {req last : W64} {dig : List Byte} {l : Nat} {u : State} (hu : u = s.tookMgmt 0x43 ([req, last] ++ digestWords dig))
    (hi : u.image.isSome = true) (hk : u.sec.keyOk = true) (hl : u.leadPos = some l) :
    exec (.wbReq req last dig) s = .next (u.sendMgmt l 0x44 (req :: partWords (u.signedSegment last dig))) := by
  subst hu
  change execWbReq req last dig s = _
  unfold execWbReq
  dsimp only
  refine congrArg Host.Outcome.next ((if_neg ?_).trans ?_)
  · rw [hk]
    cases h : (s.tookMgmt 0x43 ([req, last] ++ digestWords dig)).image with
    | none => rw [h] at hi; exact absurd hi Bool.false_ne_true
    | some m => simp
  · rw [hl]

theorem exec_wbPart_taken {b : WbBuild} {seg : List Byte} {u : State} (hu : u = s.tookMgmt 0x44 (b.req :: partWords seg))
    (hb : u.sec.build = some b) (hl : seg.length = 368) :
    exec (.wbPart b.req seg) s = .next { u with sec := { u.sec with build := some { b with parts := b.parts ++ [seg] } } } := by
  subst hu
  change execWbPart b.req seg s = _
  unfold execWbPart
  dsimp only
  rw [hb]
  exact congrArg Host.Outcome.next (if_pos ⟨rfl, hl⟩)

/-- The state without the waybill being built, one more counted. -/
def State.waybillEnded (s : State) : State :=
  { s with
    freeCtr := s.freeCtr + 1
    sec := { s.sec with waybills := s.sec.waybills + 1, build := none } }

theorem exec_wbPartTimeout_building {b : WbBuild} (hb : s.sec.build = some b) :
    ∃ bytes, exec .wbPartTimeout s = .next (s.waybillEnded.respond b.session b.reqSeq 0 0 bytes) := by
  change ∃ bytes, execWbPartTimeout s = _
  unfold execWbPartTimeout
  rw [hb]
  exact ⟨_, rfl⟩

end

/-- Settles O57: each command has its equation; the end of a step is followed through its fold, log, event and cairn. -/
theorem stepAndWaybillResults : Obligations.StepAndWaybillResults := by
  unfold Obligations.StepAndWaybillResults
  refine ⟨fun s => ⟨fun r h => exec_poisonReport_mem h, fun n h => exec_tileFault_mem h,
    fun m hm ho ha hp h0 hf hr => exec_baseCampArrival_last hm ho ha hp h0 hf hr, fun h ha hp => ?stepEnd⟩,
    fun s => ⟨fun pos poison step sd => ?digest, fun pos km1 c => ?chain, fun req last dig l => ?wbReq, fun b seg => ?wbPart,
      fun b hb => ?timeout⟩⟩
  case stepEnd =>
    exact ⟨_, exec_stepEnd_ends h ha hp,
      AwayFromFold.endStep (g := State.step) (fun _ _ _ _ _ _ _ _ _ _ _ => rfl) s,
      AwayFromFold.endStep (g := State.arrived) (fun _ _ _ _ _ _ _ _ _ _ _ => rfl) s,
      AwayFromFold.endStep (g := State.stepReleases) (fun _ _ _ _ _ _ _ _ _ _ _ => rfl) s,
      AwayFromFold.endStep (g := State.reports) (fun _ _ _ _ _ _ _ _ _ _ _ => rfl) s,
      State.endStep_bytes s, State.endStep_map s, State.endStep_eq s⟩
  case digest =>
    intro flag u h
    exact exec_stepDigest_kept rfl h
  case chain =>
    intro u h
    exact ⟨_, exec_chain_takeover rfl h, rfl, rfl, rfl, rfl, rfl⟩
  case wbReq =>
    intro u hi hk hl
    exact exec_wbReq_answers rfl hi hk hl
  case wbPart =>
    intro u hb hl
    exact exec_wbPart_taken rfl hb hl
  case timeout =>
    obtain ⟨bytes, hn⟩ := exec_wbPartTimeout_building hb
    obtain ⟨o, hp, e, hs⟩ := State.saidOnly_respond s.waybillEnded b.session b.reqSeq 0 0 bytes
    exact ⟨_, hn.trans (congrArg Host.Outcome.next hs), rfl, rfl, rfl⟩

end Sys2Proof.Machine
end


section
/-! The lead and its team (07_program_contract.md, 12_recovery.md). -/

namespace Sys2Proof.Machine

open Sys2Proof

/-! ### What shared operations leave -/

theorem State.enter_all (s : State) (d : DevSt) (r : Reason) (k : W64) : ∃ x o h e,
    s.enter d r k = { s with dev := d, reason := r, sec := x, out := o, hports := h, tether := e } := by
  obtain ⟨b, o, h, e, hk⟩ := s.enter_eq d r k
  exact ⟨_, o, h, e, hk⟩

theorem State.record_recov (s : State) (e : LedgerEntry) : (s.record e).recov = { s.recov with
    ledger := s.recov.ledger.set (s.recov.ledgerCount.toNat % 1024) e, ledgerCount := s.recov.ledgerCount + 1 } := by
  have hraise : ∀ (u : State) code body, (u.raise code body).recov = u.recov := fun u code body =>
    (u.saidOnly_raise code body).keep State.recov fun _ _ _ _ => rfl
  have hsend : ∀ (u : State) a b c, (u.sendMgmt a b c).recov = u.recov := fun u a b c =>
    (u.sentOnly_sendMgmt a b c).keep State.recov fun _ _ _ => rfl
  unfold State.record
  dsimp only
  split
  · split
    · rw [hsend, hraise]
    · rw [hraise]
  · rw [hraise]

/-- Messages to several chips are sent only. -/
theorem State.sentOnly_foldl_sendMgmt (sub : Nat) (words : List W64) (l : List Nat) (s : State) :
    s.SentOnly (l.foldl (fun s p => s.sendMgmt p sub words) s) :=
  State.SentOnly.foldl _ (fun s p => s.sentOnly_sendMgmt p sub words) l s

/-- Responses to several sessions are said only. -/
theorem State.saidOnly_foldl_respond (status code : Nat) (body : List Byte) (l : List (Nat × Nat)) :
    ∀ s : State, s.SaidOnly (l.foldl (fun s x => s.respond x.1 x.2 status code body) s) := by
  induction l with
  | nil => exact State.SaidOnly.refl
  | cons x l ih => exact fun s => (s.saidOnly_respond x.1 x.2 status code body).trans (ih _)

/-! ### Heartbeats -/

section
variable {s : State}

/-- The missed heartbeats are counted. -/
def State.beatsCounted (s : State) : State :=
  { s with
    recov := { s.recov with hbMisses := s.recov.hbMisses + BitVec.ofNat 64 s.missedBeats } }

theorem exec_heartbeatSend (s : State) : ∃ p d, exec .heartbeatSend s = .next { s.beatsCounted with ports := p, delivered := d } := by
  change ∃ p d, execHeartbeatSend s = _
  unfold execHeartbeatSend
  dsimp only
  split
  · exact ⟨s.ports, s.delivered, rfl⟩
  · obtain ⟨p, d, h⟩ := State.sentOnly_foldl_sendMgmt 0x01 [s.senderWord, s.step, s.stamp]
      ((s.beatsCounted.leadPos.toList ++ s.beatsCounted.deputyPos.toList).filter fun p => !s.beatsCounted.isSelf p) s.beatsCounted
    exact ⟨p, d, congrArg Host.Outcome.next h⟩

theorem exec_heartbeat_kept {a b c : W64} {u : State} (hu : u = s.tookMgmt 0x01 [a, b, c]) (h : u.isLead = true ∨ u.isDeputy = true) :
    exec (.heartbeat a b c) s = .next { u with
      recov := { u.recov with beats := (a, b, u.stamp) :: u.recov.beats.filter fun x => decide (x.1 ≠ a) } } := by
  subst hu
  exact congrArg Host.Outcome.next (if_pos h)

theorem exec_heartbeatTimeout_lost {p : Nat} (h : s.lastBeat (BitVec.ofNat 64 p) + 50000000 ≤ s.now) (ht : s.recov.team.isSome = true)
    (hd : s.dev = .running ∨ s.dev = .recovering) : exec (.heartbeatTimeout p) s = .next ((s.promote p).declareLost p) :=
  congrArg Host.Outcome.next (if_pos ⟨h, ht, hd⟩)

/-! ### Reports and mirrors -/

theorem State.heard_lead {f : Option Nat} {e : LedgerEntry} (hl : s.isLead = true) (hs : s.spareLink f e = none)
    (hp : some e.position ≠ s.image.map Image.position) : s.heard f e = (s.record e).act e := by
  unfold State.heard
  rw [if_pos hl, hs]
  exact congrArg (State.act · e) (if_neg hp)

theorem State.heard_stop {f : Option Nat} {e : LedgerEntry} (hl : s.isLead = false) (hc : e.cls ≠ 11) : s.heard f e = s.heardStop e := by
  unfold State.heard
  rw [if_neg fun h => Bool.false_ne_true (hl.symm.trans h), if_neg fun h => hc h.1]

theorem State.act_none {e : LedgerEntry} (h : e.cls = 9) : s.act e = s := by
  unfold State.act
  simp only [h]

theorem State.heardStop_stops {e : LedgerEntry} (hc : e.cls = 15 ∨ e.cls = 16) (hs : e.state = 5) (hi : s.image.isSome = true) :
    ∃ x o h t, s.heardStop e = { s with
      dev := .faulted, reason := .none, recov := { s.recov with phase := 5 }
      sec := x, out := o, hports := h, tether := t } := by
  obtain ⟨x, o, h, t, ht⟩ := s.enter_all .faulted .none s.step
  refine ⟨x, o, h, t, (if_pos ⟨hc, hs, hi⟩).trans ?_⟩
  dsimp only
  rw [ht]

theorem State.heardStop_other {e : LedgerEntry} (hc : ¬ (e.cls = 15 ∨ e.cls = 16)) : s.heardStop e = s :=
  if_neg fun h => hc h.1

theorem exec_mirror_kept {e : LedgerEntry} {u : State} (hu : u = s.tookMgmt 0x0A e.words) (hd : u.isDeputy = true)
    (hl : u.recov.mirror.length < 1024) :
    exec (.mirror e) s = .next { u with recov := { u.recov with mirror := u.recov.mirror ++ [e] } } := by
  subst hu
  refine congrArg Host.Outcome.next ((if_pos hd).trans ?_)
  rw [show (s.tookMgmt 0x0A e.words).recov.mirror.length + 1 - 1024 = 0 by omega]
  rfl

/-! ### HALT and START records -/

theorem State.heardLead_eq (s : State) (p : Option Nat) : ∃ r x, s.heardLead p = { s with recov := r, sec := x } := by
  unfold State.heardLead
  split
  · split
    · exact ⟨_, _, rfl⟩
    · exact ⟨s.recov, s.sec, rfl⟩
  · exact ⟨s.recov, s.sec, rfl⟩

theorem State.haltState_eq (s : State) : ∃ d n, s.haltState = (d, { s with freeCtr := n }) := by
  unfold State.haltState
  split
  · exact ⟨_, s.freeCtr, rfl⟩
  · exact ⟨_, _, rfl⟩

theorem State.answerHalts_eq (s : State) (k : W64) : ∃ o h e, s.answerHalts k = { s with
    recov := { s.recov with haltReply := [] }
    out := o, hports := h, tether := e } :=
  State.saidOnly_foldl_respond 0 0 _ s.recov.haltReply { s with recov := { s.recov with haltReply := [] } }

/-- A halt accepted by a chip that runs. -/
theorem State.acceptHalt_eq (k : W64) (d : DevSt) (r : Reason) (hd : s.dev ≠ .faulted) : ∃ x o h e, s.acceptHalt k d r = { s with
    dev := d, reason := r
    recov := { s.recov with
      haltPosted := true, halted := false, startPosted := false, recStep := k, halts := s.recov.halts + 1, phase := 1 }
    sec := x, out := o, hports := h, tether := e } := by
  obtain ⟨x, o, h, e, he⟩ := State.enter_all { s with
    recov := { s.recov with
      haltPosted := true, halted := false, startPosted := false, recStep := k, halts := s.recov.halts + 1, phase := 1 } } d r k
  exact ⟨x, o, h, e, (if_neg hd).trans he⟩

/-- A HALT record of the lead at a chip of its team that runs. -/
theorem State.takeHalt_runs {k : W64} (hi : s.image.isSome = true) (hd : s.dev = .running) (hl : s.isLead = false)
    (hp : s.recov.haltPosted = false) : ∃ d r rc x n o h e, s.takeHalt s.teamNo k = { s with
      dev := d, reason := r, recov := rc, sec := x, freeCtr := n, out := o, hports := h, tether := e }
    ∧ rc.recStep = k ∧ rc.haltPosted = true := by
  obtain ⟨d, n, hs⟩ := s.haltState_eq
  obtain ⟨x, o, h, e, ha⟩ := State.acceptHalt_eq (s := { s with freeCtr := n }) k d.1 d.2 (by rw [show ({ s with freeCtr := n } : State).dev = s.dev from rfl, hd]; decide)
  obtain ⟨o', h', e', hr⟩ := State.answerHalts_eq (({ s with freeCtr := n } : State).acceptHalt k d.1 d.2) k
  refine ⟨_, _, _, _, _, _, _, _, Eq.trans ?_ (hr.trans (by rw [ha])), rfl, rfl⟩
  unfold State.takeHalt
  rw [if_neg ?_, if_pos rfl, if_neg fun hc => Bool.false_ne_true (hl.symm.trans hc), hs]
  · dsimp only
    rw [if_neg fun hc => Bool.false_ne_true (hp.symm.trans hc.1)]
  · rintro (hc | hc)
    · cases hm : s.image with
      | none => rw [hm] at hi; exact Bool.false_ne_true hi
      | some m => rw [hm] at hc; exact Bool.false_ne_true hc
    · rw [hd] at hc
      cases hc

theorem exec_haltRecord_team {k : W64} {instant : Nat} : exec (.haltRecord s.teamNo k instant) s
    = .next (((s.tookMgmt 0x03 [BitVec.ofNat 64 s.teamNo, k, BitVec.ofNat 64 instant]).heardLead
      (s.mgmtFrom 0x03 [BitVec.ofNat 64 s.teamNo, k, BitVec.ofNat 64 instant])).takeHalt s.teamNo k) := by
  change execHaltRecord s.teamNo k instant s = _
  unfold execHaltRecord
  dsimp only
  rw [if_pos rfl]

/-- What a chip that accepts a start holds. -/
theorem State.acceptStart_holds {alt start : Nat} {m : Image} (hi : s.image = some m) :
    (s.acceptStart alt start).startAt = BitVec.ofNat 64 start ∧ (s.acceptStart alt start).recov.startPosted = true := by
  unfold State.acceptStart
  rw [hi]
  dsimp only
  constructor
  · exact (State.saidOnly_foldl_respond _ _ _ _ _).keep State.startAt fun _ _ _ _ => rfl
  · exact (State.saidOnly_foldl_respond _ _ _ _ _).keep (fun v => v.recov.startPosted) fun _ _ _ _ => rfl

theorem exec_startRecord_team {alt start sw : Nat} {k : W64} {w : List W64}
    (hw : w = [BitVec.ofNat 64 (s.teamNo + alt * 2 ^ 16), k, BitVec.ofNat 64 sw, BitVec.ofNat 64 start]) (hi : s.image.isSome = true)
    (hp : s.recov.haltPosted = true) (hh : s.recov.halted = true) (hk : s.recov.recStep = k) (hl : (s.tookMgmt 0x09 w).isLead = false) :
    exec (.startRecord s.teamNo alt k sw start) s = .next ((s.tookMgmt 0x09 w).acceptStart alt start) := by
  subst hw
  refine congrArg Host.Outcome.next ((if_neg ?_).trans ((if_pos ⟨hp, hh, hk⟩).trans (if_neg fun hc => Bool.false_ne_true (hl.symm.trans hc))))
  rintro (hc | hc)
  · exact hc rfl
  · cases hm : s.image with
    | none => rw [hm] at hi; exact Bool.false_ne_true hi
    | some m => rw [hm] at hc; exact Bool.false_ne_true hc

/-! ### RESTORED -/

/-- A position that is whole again, before the lead tries to start. -/
def State.wholeAgain (s : State) (p : Nat) (k : W64) : State :=
  ({ s.waitOff p 11 with
    recov := { (s.waitOff p 11).recov with restoredFrom := s.recov.restoredFrom ++ [p] } } : State).record ((s.waitOff p 11).entry 11 2 p k 0)

theorem exec_restored_whole {p : Nat} {k : W64} {u : State} (hu : u = s.tookMgmt 0x08 [BitVec.ofNat 64 p, k]) (hl : u.isLead = true)
    (hk : u.recov.recStep = k) (hw : (p, 11) ∈ u.recov.waits) : exec (.restored p k) s = .next (u.wholeAgain p k).tryStart := by
  subst hu
  refine congrArg Host.Outcome.next ((if_neg ?_).trans (if_pos hw))
  rintro (hc | hc)
  · rw [hl] at hc
    exact Bool.false_ne_true hc
  · exact hc hk

theorem State.wholeAgain_waits (p : Nat) (k : W64) : (s.wholeAgain p k).recov.waits = s.recov.waits.erase (p, 11)
    ∧ (s.wholeAgain p k).recov.restoredFrom = s.recov.restoredFrom ++ [p] := by
  unfold State.wholeAgain
  rw [State.record_recov]
  exact ⟨rfl, rfl⟩

theorem State.wholeAgain_eq (p : Nat) (k : W64) : ∃ rc o h t ps d, s.wholeAgain p k = { s with
    recov := rc, out := o, hports := h, tether := t, ports := ps, delivered := d } :=
  State.record_eq _ _

/-! ### The start of the rows -/

/-- A part of the state that the first row of a start does not touch. -/
def AwayFromStart {α : Type} (g : State → α) : Prop :=
  ∀ (s : State) c b ro rc d r x o h e, g { s with
    cv := c, bqs := b, rows := ro, recov := rc, dev := d, reason := r, sec := x, out := o, hports := h, tether := e } = g s

theorem AwayFromStart.enter {α : Type} {g : State → α} (hg : AwayFromStart g) (s : State) (d : DevSt) (r : Reason) (k : W64) :
    g (s.enter d r k) = g s := by
  obtain ⟨x, o, h, e, he⟩ := s.enter_all d r k
  rw [he]
  exact hg s s.cv s.bqs s.rows s.recov d r x o h e

theorem AwayFromStart.recov {α : Type} {g : State → α} (hg : AwayFromStart g) (s : State) (r : Recovery) : g { s with recov := r } = g s :=
  hg s s.cv s.bqs s.rows r s.dev s.reason s.sec s.out s.hports s.tether

theorem AwayFromStart.beginCairn {α : Type} {g : State → α} (hg : AwayFromStart g) (s : State) (tag : W64) : g (s.beginCairn tag) = g s := by
  unfold State.beginCairn
  split
  · exact hg.recov _ _
  · rfl

/-- The start of a run or a rerun, before the device runs: counts and boundary queues begin. -/
def State.startCounted (s : State) : State :=
  let s0 := if decide (s.dev = .running) then { s with rows := s.rows.map fun (x : Nat × Row) => (x.1, { x.2 with tokenOver := 0, tokenMax := 0 }) }
    else s
  let s1 := { s0.armPrimary with bqs := s0.bqs.map fun (x : Nat × BQueue) => (x.1, x.2.start) }
  { s1 with recov := { s1.recov with starts := s1.recov.starts + 1 } }

/-- The device runs, unless a halt has been posted. -/
def State.startEntered (s : State) : State :=
  if s.recov.haltPosted then s
  else ({ s with recov := { s.recov with startPosted := false, phase := 0, takeover := none, restoredFrom := [] } } : State).enter .running .none s.step

theorem State.firstRow_cases (s : State) : s.firstRow = s.startCounted.startEntered
    ∨ s.firstRow = s.startCounted.startEntered.beginCairn s.startCounted.startEntered.step := by
  by_cases h : decide (s.dev = .running) = true ∨
      (s.recov.takeover.isSome = true ∧ s.startCounted.startEntered.step.toNat % (s.image.map Image.cairnEvery).getD 64 = 0)
  · exact .inr (if_pos h)
  · exact .inl (if_neg h)

theorem AwayFromStart.startCounted {α : Type} {g : State → α} (hg : AwayFromStart g) (s : State) : g s.startCounted = g s := by
  unfold State.startCounted
  split
  · exact hg s _ _ _ _ s.dev s.reason s.sec s.out s.hports s.tether
  · exact hg s _ _ _ _ s.dev s.reason s.sec s.out s.hports s.tether

theorem AwayFromStart.firstRow {α : Type} {g : State → α} (hg : AwayFromStart g) (s : State) : g s.firstRow = g s := by
  have hentered : g s.startCounted.startEntered = g s := by
    refine Eq.trans ?_ (hg.startCounted s)
    unfold State.startEntered
    split
    · rfl
    · exact (hg.enter _ _ _ _).trans (hg.recov _ _)
  rcases s.firstRow_cases with h | h
  · rw [h, hentered]
  · rw [h, hg.beginCairn, hentered]

/-- The state when the tiles of a row start: the first row of a start has had its effects. -/
def State.rowReady (s : State) (m : Image) : State := if decide (s.rowsDue.length = m.rows) then s.firstRow else s

theorem AwayFromStart.rowReady {α : Type} {g : State → α} (hg : AwayFromStart g) (s : State) (m : Image) : g (s.rowReady m) = g s := by
  unfold State.rowReady
  split
  · exact hg.firstRow s
  · rfl

/-- The mapped tiles of a row start. -/
@[irreducible] def State.tilesStarted (s : State) (l : List Nat) : State := l.foldl (fun s n => s.modTile n Tile.startRun) s

theorem State.keep_tilesStarted {α : Type} (g : State → α) (hg : ∀ (s : State) t, g { s with tiles := t } = g s) (s : State) (l : List Nat) :
    g (s.tilesStarted l) = g s := by
  unfold State.tilesStarted
  exact State.foldl_keep g _ (fun s _ => hg s _) l s

theorem Tile.startRun_st (t : Tile) : t.startRun.st ≠ .idle := by
  unfold Tile.startRun
  split
  · exact fun h => by cases h
  next h => exact h

theorem State.tile_tilesStarted_ne (s : State) {l : List Nat} {n : Nat} (h : n ∉ l) : (s.tilesStarted l).tile n = s.tile n := by
  unfold State.tilesStarted
  induction l generalizing s with
  | nil => rfl
  | cons a l ih =>
    obtain ⟨ha, hl⟩ := not_or.mp fun hc => h (List.mem_cons.mpr hc)
    rw [List.foldl_cons, ih _ hl, State.tile_modTile_ne s _ ha]

theorem State.st_tilesStarted {l : List Nat} {n : Nat} : ∀ s : State, n ∈ l ∨ (s.tile n).st ≠ .idle → ((s.tilesStarted l).tile n).st ≠ .idle := by
  unfold State.tilesStarted
  induction l with
  | nil => exact fun s h => h.resolve_left List.not_mem_nil
  | cons a l ih =>
    intro s h
    rw [List.foldl_cons]
    refine ih _ ?_
    by_cases ha : n = a
    · subst ha
      exact .inr (by rw [State.tile_modTile]; exact Tile.startRun_st _)
    · refine h.imp (fun hm => (List.mem_cons.mp hm).resolve_left ha) fun hs => ?_
      rw [State.tile_modTile_ne s _ ha]
      exact hs

/-- A row whose mapped tiles have started. -/
def State.rowStarted (s : State) (m : Image) (r : Nat) : State := (s.rowReady m).tilesStarted ((s.rowReady m).mappedInRow r)

theorem exec_programStart_due {r : Nat} {m : Image} (hr : r ∈ s.rowsDue) (ht : s.startAt.toNat ≤ s.now) (hm : s.image = some m) :
    exec (.programStart r) s = .next { s.rowStarted m r with rowsDue := (s.rowStarted m r).rowsDue.erase r } := by
  refine congrArg Host.Outcome.next ((if_pos ⟨hr, ht⟩).trans ?_)
  unfold State.startRow
  rw [hm]
  unfold State.rowStarted State.tilesStarted
  rfl

theorem State.keep_rowStarted {α : Type} {g : State → α} (hg : AwayFromStart g) (ht : ∀ (s : State) t, g { s with tiles := t } = g s)
    (m : Image) (r : Nat) : g (s.rowStarted m r) = g s :=
  (State.keep_tilesStarted g ht _ _).trans (hg.rowReady s m)

theorem State.mem_mappedInRow_rowReady {m : Image} {r n : Nat} : n ∈ (s.rowReady m).mappedInRow r ↔ n ∈ s.tileMap ∧ n / 25 = r := by
  unfold State.mappedInRow
  rw [AwayFromStart.rowReady (g := State.tileMap) (fun _ _ _ _ _ _ _ _ _ _ _ => rfl) s m, List.mem_filter, decide_eq_true_iff]

theorem State.tile_rowStarted_ne {m : Image} {r n : Nat} (h : n / 25 ≠ r) : (s.rowStarted m r).tile n = s.tile n := by
  unfold State.rowStarted
  rw [State.tile_tilesStarted_ne _ fun hc => h (State.mem_mappedInRow_rowReady.mp hc).2]
  exact congrFun (AwayFromStart.rowReady (g := State.tile) (fun _ _ _ _ _ _ _ _ _ _ _ => rfl) s m) n

theorem State.rowStarted_eq (s : State) (m : Image) (r : Nat) : s.rowStarted m r = { s with
    cv := (s.rowStarted m r).cv, bqs := (s.rowStarted m r).bqs, tiles := (s.rowStarted m r).tiles, rows := (s.rowStarted m r).rows
    ports := (s.rowStarted m r).ports, recov := (s.rowStarted m r).recov, dev := (s.rowStarted m r).dev
    reason := (s.rowStarted m r).reason, sec := (s.rowStarted m r).sec, out := (s.rowStarted m r).out
    hports := (s.rowStarted m r).hports, tether := (s.rowStarted m r).tether } :=
  State.keep_rowStarted (g := fun v : State => { v with
    cv := (s.rowStarted m r).cv, bqs := (s.rowStarted m r).bqs, tiles := (s.rowStarted m r).tiles, rows := (s.rowStarted m r).rows
    ports := (s.rowStarted m r).ports, recov := (s.rowStarted m r).recov, dev := (s.rowStarted m r).dev
    reason := (s.rowStarted m r).reason, sec := (s.rowStarted m r).sec, out := (s.rowStarted m r).out
    hports := (s.rowStarted m r).hports, tether := (s.rowStarted m r).tether })
    (fun _ _ _ _ _ _ _ _ _ _ _ => rfl) (fun _ _ => rfl) m r

end

/-- Settles O58: each record has its equation; what the start of a row leaves is followed through its first row. -/
theorem leadResults : Obligations.LeadResults := by
  unfold Obligations.LeadResults
  intro s
  refine ⟨?beat, fun a b c => ?kept, fun p h ht hd => exec_heartbeatTimeout_lost h ht hd, fun e => ?report, fun e => ?mirror,
    fun k instant => ?halt, fun alt k sw start => ?start, fun p k => ?restored, fun r hr ht hi => ?row⟩
  case beat =>
    obtain ⟨p, d, h⟩ := exec_heartbeatSend s
    exact ⟨_, h, rfl, rfl⟩
  case kept =>
    intro u h
    exact exec_heartbeat_kept rfl h
  case report =>
    intro u
    refine ⟨fun hl hs hp => ⟨congrArg Host.Outcome.next (State.heard_lead hl hs hp), fun h9 => ⟨u.record e, ?_, ?_, ?_⟩⟩,
      fun hl hc h5 hi => ?_, fun hl hc => ?_⟩
    · exact congrArg Host.Outcome.next ((State.heard_lead hl hs hp).trans (State.act_none h9))
    · rw [State.record_recov]
      exact SMap.get?_set_self _ _ _
    · rw [State.record_recov]
    · obtain ⟨x, o, h, t, ht⟩ := State.heardStop_stops hc h5 hi
      exact ⟨_, congrArg Host.Outcome.next ((State.heard_stop hl (by omega)).trans ht), rfl, rfl⟩
    · exact congrArg Host.Outcome.next ((State.heard_stop hl (by omega)).trans (State.heardStop_other (by omega)))
  case mirror =>
    intro u hd hl
    exact exec_mirror_kept rfl hd hl
  case halt =>
    intro w u hi hd hn hl hp
    obtain ⟨d, r, rc, x, n, o, h, e, hu, h1, h2⟩ := State.takeHalt_runs (k := k) hi hd hl hp
    obtain ⟨rc', x', hheard⟩ : ∃ rc' x', u = { s.tookMgmt 0x03 w with recov := rc', sec := x' } :=
      State.heardLead_eq (s.tookMgmt 0x03 w) (s.mgmtFrom 0x03 w)
    have hrun : exec (.haltRecord s.teamNo k instant) s = .next (u.takeHalt s.teamNo k) := exec_haltRecord_team
    rw [hn] at hu
    clear_value u
    subst hheard
    exact ⟨_, hrun.trans (congrArg Host.Outcome.next hu), h1, h2, rfl⟩
  case start =>
    intro w hi hp hh hk hl
    obtain ⟨m, hm⟩ := Option.isSome_iff_exists.mp hi
    exact ⟨exec_startRecord_team rfl hi hp hh hk hl, State.acceptStart_holds (s := s.tookMgmt 0x09 w) hm⟩
  case restored =>
    intro u hl hk hw
    obtain ⟨h1, h2⟩ := State.wholeAgain_waits (s := u) p k
    obtain ⟨rc, o, h, t, ps, d, he⟩ := State.wholeAgain_eq (s := u) p k
    refine ⟨u.wholeAgain p k, exec_restored_whole rfl hl hk hw, h1, h2, ?_⟩
    rw [he]
  case row =>
    obtain ⟨m, hm⟩ := Option.isSome_iff_exists.mp hi
    refine ⟨_, exec_programStart_due hr ht hm, ?_, ?_, fun n hn => State.tile_rowStarted_ne hn, fun n hn hq => ?_⟩
    · exact congrArg (List.erase · r) (State.keep_rowStarted (g := State.rowsDue) (fun _ _ _ _ _ _ _ _ _ _ _ => rfl) (fun _ _ => rfl) m r)
    · exact congrArg (fun v : State => { v with rowsDue := (s.rowStarted m r).rowsDue.erase r }) (s.rowStarted_eq m r)
    · exact State.st_tilesStarted _ (.inl (State.mem_mappedInRow_rowReady.mpr ⟨hn, hq⟩))

end Sys2Proof.Machine
end


section
/-! Cairns, the gradient log and restoring (11_update_unit.md, 12_recovery.md). -/

namespace Sys2Proof.Machine

open Sys2Proof

/-! ### Cairn chunks and commits -/

section
variable {s : State}

theorem exec_cairnChunk_next {q h : Nat} {tag : W64} (hp : s.recov.haltPosted = false) (hn : s.nextChunk = some (q, tag)) (hh : s.holderOf q = some h) :
    exec .cairnChunk s = .next (s.sendChunk q tag h) := by
  refine congrArg Host.Outcome.next ((if_neg fun hc => Bool.false_ne_true (hp.symm.trans hc)).trans ?_)
  rw [hn]
  dsimp only
  rw [hh]

theorem State.freeSlotAt_eq (s : State) (h : Nat) : ∃ k n, s.freeSlotAt h = (k, { s with freeCtr := n }) := by
  unfold State.freeSlotAt
  split
  · exact ⟨_, s.freeCtr, rfl⟩
  · exact ⟨_, _, rfl⟩

theorem State.HbmOnly.keep {s u : State} (h : s.HbmOnly u) {α : Type} (g : State → α)
    (hg : ∀ (s : State) hb d r, g { s with hbm := hb, depots := d, reportsOut := r } = g s) : g u = g s :=
  (congrArg g h).trans (hg s _ _ _)

theorem State.HbmOnly.chunkTouch (s : State) (q tag : Nat) : s.HbmOnly (s.chunkTouch q tag) :=
  State.HbmOnly.fold _ (fun s (x : Nat × Nat) => State.HbmOnly.touch s x.1 x.2 true) _ s

theorem State.sendChunk_streamInFlight (s : State) (q : Nat) (tag : W64) (h : Nat) :
    (s.sendChunk q tag h).recov.streamInFlight = s.recov.streamInFlight ++ [q] := by
  have hsend : ∀ (u : State) a b, (u.sendDyn a b).recov = u.recov := fun u a b =>
    (u.sentOnly_sendDyn a b).keep State.recov fun _ _ _ => rfl
  obtain ⟨k, n, hs⟩ := s.freeSlotAt_eq h
  unfold State.sendChunk
  rw [hs]
  dsimp only
  rw [hsend, hsend, (State.HbmOnly.chunkTouch _ q tag.toNat).keep State.recov fun _ _ _ _ => rfl]

theorem State.freedSlot_eq (s : State) (owner q slot : Nat) : ∃ k n, s.freedSlot owner q slot = (k, { s with freeCtr := n }) := by
  unfold State.freedSlot
  split
  · exact ⟨_, s.freeCtr, rfl⟩
  · exact ⟨_, _, rfl⟩

/-- A commit at a holder. -/
theorem State.commit_eq (s : State) (owner slot q : Nat) (tag : W64) (bytes : Nat) : ∃ rc hb dp ro n ps dl,
    s.commit owner slot q tag bytes = { s with
      recov := rc, hbm := hb, depots := dp, reportsOut := ro, freeCtr := n, ports := ps, delivered := dl }
    ∧ rc.dirSlot = s.recov.dirSlot.set (dirKey owner q) slot ∧ rc.dirTag = s.recov.dirTag.set (dirKey owner q) tag := by
  obtain ⟨k, n, hs⟩ := s.freedSlot_eq owner q slot
  unfold State.commit
  rw [hs]
  dsimp only
  have hw := State.HbmOnly.write { s with freeCtr := n } (State.slotOff { s with freeCtr := n } (State.position { s with freeCtr := n }) owner slot)
    (clean (commitBytes owner slot q tag bytes)) false
  generalize State.hbmWrite { s with freeCtr := n } _ _ _ = v at *
  generalize hp : State.pruneLog _ owner = p
  obtain ⟨ps, dl, hsend⟩ := p.sentOnly_sendMgmt owner 0x06
    [BitVec.ofNat 64 (owner * 2 ^ 48 + k), BitVec.ofNat 64 q, tag]
  rw [hsend, ← hp, hw]
  exact ⟨_, _, _, _, _, _, _, rfl, rfl, rfl⟩

/-- A log entry that is accepted. -/
theorem State.appendLog_eq (s : State) (r : RecLog) : ∃ hb dp ro ps dl, s.appendLog r = { s with
    recov := { s.recov with
      log := s.recov.log ++ [(r.owner, BitVec.ofNat 64 r.step, r.rid, r.block, decide (r.step < s.step.toNat))]
      logAppends := s.recov.logAppends + 1 },
    hbm := hb, depots := dp, reportsOut := ro, ports := ps, delivered := dl } := by
  unfold State.appendLog
  dsimp only
  have hw := State.HbmOnly.write s (s.logOff r.owner r.step r.rid (s.logCount r.owner (BitVec.ofNat 64 r.step) r.rid))
    (unitsBytes r.data) true
  generalize s.hbmWrite _ _ _ = v at *
  rw [hw]
  obtain ⟨ps, dl, hsend⟩ := State.sentOnly_sendMgmt _ _ _ _
  exact ⟨_, _, _, ps, dl, hsend⟩

end

/-! ### Acknowledgements -/

section
variable {s : State}

theorem exec_cairnAck_next (owner slot q : Nat) (tag : W64) : ∃ t, exec (.cairnAck owner slot q tag) s = .next t
    ∧ t.recov.ackTag.get? q = some tag ∧ t.recov.chunksSent = s.recov.chunksSent + 1
    ∧ t = { s with recov := t.recov, delivered := t.delivered } :=
  ⟨_, rfl, SMap.get?_set_self _ _ _, rfl, rfl⟩

theorem exec_cairnCommit_next {owner slot q bytes : Nat} {tag : W64} (h : (s.delivered.find? fun r => isCommitOf (commitBytes owner slot q tag bytes) r.body) = none) :
    exec (.cairnCommit owner slot q tag bytes) s = .next (s.commit owner slot q tag bytes) := by
  change execCairnCommit owner slot q tag bytes s = _
  unfold execCairnCommit
  dsimp only
  rw [h]

theorem State.logAcked_none {rid : Nat} (h : s.sumDesc rid = none) (block : Nat) : s.logAcked rid block = s := by
  unfold State.logAcked
  rw [h]

theorem State.logAcked_some {rid : Nat} {r : RedDesc} (h : s.sumDesc rid = some r) (block : Nat) : s.logAcked rid block = { s with
    redBlocks := s.redBlocks.map fun x =>
      if x.1 / 2 ^ 32 = rid ∧ x.2.complete = true ∧ (block + 2 ^ 32 - x.1 % 2 ^ 32) % 2 ^ 32 < 2 ^ 31
        ∧ s.logHolder r (x.1 % 2 ^ 32) = s.logHolder r block then (x.1, { x.2 with logAcked := true }) else x } := by
  unfold State.logAcked
  rw [h]

theorem exec_logEntryResume_next {r : RecLog}
    (h : (s.recov.logWaiting.find? fun r => !s.pageBusy r.owner (BitVec.ofNat 64 r.step)) = some r) :
    exec .logEntryResume s =
      .next (({ s with recov := { s.recov with logWaiting := s.recov.logWaiting.erase r } }).appendLog r) := by
  change execLogEntryResume s = _
  unfold execLogEntryResume
  rw [h]

/-- Whether a log entry waits: for its page, or behind another of its owner. -/
def State.LogWaits (u : State) (r : RecLog) : Prop :=
  u.pageBusy r.owner (BitVec.ofNat 64 r.step) = true ∨ ∃ x ∈ u.recov.logWaiting, x.owner = r.owner

theorem State.logWaits_iff (u : State) (r : RecLog) : u.LogWaits r ↔
    u.pageBusy r.owner (BitVec.ofNat 64 r.step) = true ∨ (u.recov.logWaiting.any fun x => decide (x.owner = r.owner)) = true := by
  simp only [State.LogWaits, List.any_eq_true, decide_eq_true_eq]

theorem exec_logRecord_append {r : RecLog} (h : s.mayAct (.log r) = true) (hw : ¬ (s.tookBody (.log r)).LogWaits r) :
    exec (.logRecord r) s = .next ((s.tookBody (.log r)).appendLog r) :=
  (exec_recAct (fun s => if s.pageBusy r.owner (BitVec.ofNat 64 r.step) ∨ s.recov.logWaiting.any (fun x => decide (x.owner = r.owner)) then
      { s with recov := { s.recov with logWaiting := s.recov.logWaiting ++ [r] } }
    else s.appendLog r) h rfl).trans
    (congrArg Host.Outcome.next (if_neg (mt (State.logWaits_iff _ r).mpr hw)))

theorem exec_logRecord_wait {r : RecLog} (h : s.mayAct (.log r) = true) (hw : (s.tookBody (.log r)).LogWaits r) :
    exec (.logRecord r) s = .next { s.tookBody (.log r) with recov := { (s.tookBody (.log r)).recov with
      logWaiting := (s.tookBody (.log r)).recov.logWaiting ++ [r] } } :=
  (exec_recAct (fun s => if s.pageBusy r.owner (BitVec.ofNat 64 r.step) ∨ s.recov.logWaiting.any (fun x => decide (x.owner = r.owner)) then
      { s with recov := { s.recov with logWaiting := s.recov.logWaiting ++ [r] } }
    else s.appendLog r) h rfl).trans
    (congrArg Host.Outcome.next (if_pos ((State.logWaits_iff _ r).mp hw)))

end

/-! ### Takeover, restoring and the repair reload -/

section
variable {s u : State}

theorem exec_takeover_spare {t : TeamBody} {pos alt : Nat} {k : W64}
    (hu : u = (s.tookMgmt 0x04 [BitVec.ofNat 64 pos, k, BitVec.ofNat 64 t.self, BitVec.ofNat 64 alt]).heardLead
      (s.mgmtFrom 0x04 [BitVec.ofNat 64 pos, k, BitVec.ofNat 64 t.self, BitVec.ofNat 64 alt]))
    (ht : u.recov.team = some t) (hs : t.spare = true) (hd : u.dev = .armed) :
    exec (.takeover pos k t.self alt) s = .next (u.takeOver t pos k alt) := by
  change execTakeover pos k t.self alt s = _
  unfold execTakeover
  dsimp only
  rw [← hu, ht]
  exact congrArg Host.Outcome.next (if_pos ⟨hs, rfl, .inl hd⟩)

theorem exec_restore_next {a b : Nat} {chunks : List (Nat × W64)} {v : State} (hst : s.recov.staging = some (a, b))
    (hh : s.recov.halted = true) (hp : s.recov.phase ≠ 4)
    (hc : (s.toRestore.map fun q => (s.stagedTag a q).map fun x => (q, x)) = chunks.map some)
    (hv : ((List.range (s.recov.recStep.toNat - (chunks.map fun (x : Nat × W64) => x.2.toNat).foldl Nat.min s.recov.recStep.toNat)).map
        fun i => (chunks.map fun (x : Nat × W64) => x.2.toNat).foldl Nat.min s.recov.recStep.toNat + i).foldl (State.replayStep b chunks)
          (some (chunks.foldl (fun s x => State.copyChunk s a x) { s with recov := { s.recov with phase := 3 } })) = some v) :
    exec .restore s = .next (chunks.foldl (fun w x => State.recast w s.recov.recStep x) v).afterRestore := by
  have hguard : ¬ ((!s.recov.halted) = true ∨ s.recov.phase = 4 ∨ (chunks.map some).any Option.isNone = true) := by
    simp [hh, hp]
  have hid : (chunks.map some).filterMap id = chunks := by simp
  change execRestore s = _
  unfold execRestore
  rw [hst]
  dsimp only
  rw [hc, if_neg hguard, hid]
  dsimp only at hv
  rw [hv]

theorem exec_repairReload_next {m : Image} (hm : s.image = some m) (hv : s.recov.candValid = true) (hh : s.recov.halted = true)
    (hc : s.recov.cand ∉ m.repair) : exec .repairReload s = .next (s.repairReload m) := by
  change execRepairReload s = _
  unfold execRepairReload
  rw [hm]
  exact congrArg Host.Outcome.next (if_pos ⟨hv, hh, hc⟩)

end

/-- Settles O59: the commit writes its slot's head, its directory and the acknowledgement and nothing else, and every other
clause is the command's own branch. -/
theorem cairnResults : Obligations.CairnResults := by
  unfold Obligations.CairnResults
  intro s
  refine ⟨fun q tag h hp hn hh => ⟨exec_cairnChunk_next hp hn hh, s.sendChunk_streamInFlight q tag h⟩,
    fun owner slot q tag bytes hd => ?commit, fun owner slot q tag => exec_cairnAck_next owner slot q tag,
    fun r h => ⟨fun hw => ?append, fun hw => exec_logRecord_wait h hw⟩,
    fun r h => exec_logEntryResume_next h,
    fun owner rid block => ⟨fun h => congrArg Host.Outcome.next (State.logAcked_none h block),
      fun r h => congrArg Host.Outcome.next (State.logAcked_some h block)⟩,
    fun t pos k alt => ?takeover, fun owner chip a b tag => rfl,
    fun a b chunks v hst hh hp hc => exec_restore_next hst hh hp hc,
    fun m hm hv hh hc => exec_repairReload_next hm hv hh hc⟩
  case commit =>
    obtain ⟨rc, hb, dp, ro, n, ps, dl, ht, hslot, htag⟩ := s.commit_eq owner slot q tag bytes
    refine ⟨_, (exec_cairnCommit_next hd).trans (congrArg Host.Outcome.next ht), ?_, ?_, rfl⟩
    · exact (congrArg (SMap.get? · _) hslot).trans (SMap.get?_set_self _ _ _)
    · exact (congrArg (SMap.get? · _) htag).trans (SMap.get?_set_self _ _ _)
  case append =>
    obtain ⟨hb, dp, ro, ps, dl, ht⟩ := (s.tookBody (.log r)).appendLog_eq r
    exact ⟨_, (exec_logRecord_append h hw).trans (congrArg Host.Outcome.next ht), rfl, rfl, rfl⟩
  case takeover =>
    intro w u ht hs hd
    exact exec_takeover_spare rfl ht hs hd

end Sys2Proof.Machine
end


section
/-! The update units: a block's handoff, its update and its writing back (11_update_unit.md). -/

namespace Sys2Proof.Machine

open Sys2Proof

/-- What each step of a fold keeps, the fold keeps. -/
theorem foldl_keep_of {σ α β : Type} (g : σ → α) (f : σ → β → σ) (hf : ∀ a x, g (f a x) = g a) :
    ∀ (l : List β) (a : σ), g (l.foldl f a) = g a
  | [], _ => rfl
  | x :: l, a => (foldl_keep_of g f hf l (f a x)).trans (hf a x)

/-! ### The unit of a stack -/

section
variable (s : State)

@[simp] theorem State.updUnit_modUpd (d u : Nat) (f : UpdUnit → UpdUnit) : (s.modUpd d u f).updUnit d u = f (s.updUnit d u) :=
  congrArg Stack.upd (s.stack_modStack d u _)

/-- A change of a depot that keeps its units keeps every unit. -/
theorem State.updUnit_modDepot (a : Nat) (f : Depot → Depot) (hf : ∀ k, ((f (s.depot a)).stack k).upd = ((s.depot a).stack k).upd)
    (d u : Nat) : (s.modDepot a f).updUnit d u = s.updUnit d u := by
  by_cases h : d = a
  · subst h
    exact (congrArg (fun x : Depot => (x.stack u).upd) (s.depot_modDepot d f)).trans (hf u)
  · exact congrArg (fun x : Depot => (x.stack u).upd) (SMap.get_set_ne s.depots _ {} h)

theorem State.updUnit_congr {s t : State} (h : t.depots = s.depots) (d u : Nat) : t.updUnit d u = s.updUnit d u :=
  congrArg (fun x : SMap Depot => ((x.get d {}).stack u).upd) h

/-- Counting an error at a stack keeps its unit. -/
theorem Depot.upd_setStack (x : Depot) (a : Nat) {y : Stack} (h : y.upd = (x.stack a).upd) (k : Nat) :
    ((x.hbmStacks.set a y).get k {}).upd = (x.stack k).upd := by
  by_cases hk : k = a
  · subst hk
    rw [SMap.get_set_self]
    exact h
  · rw [SMap.get_set_ne _ _ _ hk]
    rfl

theorem State.updUnit_wantMigration (seg d u : Nat) : (s.wantMigration seg).updUnit d u = s.updUnit d u := by
  obtain ⟨q, h⟩ := s.wantMigration_eq seg
  exact State.updUnit_congr (congrArg State.depots h) d u

theorem State.updUnit_codeCheck (seg : Nat) (r : HRow) (n : Nat) (m : Bool) (d u : Nat) :
    (s.codeCheck seg r n m).updUnit d u = s.updUnit d u := by
  unfold State.codeCheck
  dsimp only
  split
  · unfold State.ueDetect
    rw [State.updUnit_wantMigration]
    have h := s.updUnit_modDepot (seg % 4) (fun x =>
      { x with
        errAddrValid := true
        errAddr := if x.err.hbmUe then x.errAddr else BitVec.ofNat 64 (errPlace r n)
        err := { x.err with hbmUe := true }
        hbmStacks := x.hbmStacks.set r.stack { x.stack r.stack with ue := (x.stack r.stack).ue + 1 } })
      (Depot.upd_setStack _ _ rfl) d u
    split
    · exact h
    · exact h
  · split
    · unfold State.ceCount
      have h := s.updUnit_modDepot (seg % 4) (fun x =>
        { x with
          err := { x.err with hbmCe := true }
          hbmStacks := x.hbmStacks.set r.stack { x.stack r.stack with ce := (x.stack r.stack).ce + 1 } })
        (Depot.upd_setStack _ _ rfl) d u
      dsimp only
      split
      · exact (State.updUnit_wantMigration _ _ _ _).trans h
      · exact h
    · rfl

theorem State.updUnit_touchUnit (n : Nat) (m : Bool) (d u : Nat) : (s.touchUnit n m).updUnit d u = s.updUnit d u := by
  unfold State.touchUnit
  dsimp only
  split
  · exact State.updUnit_codeCheck _ _ _ _ _ _ _
  · rfl

theorem State.updUnit_countUnmapped (l : List Nat) (d u : Nat) : (s.countUnmapped l).updUnit d u = s.updUnit d u :=
  State.foldl_keep (fun s => s.updUnit d u) _ (fun s _ => s.updUnit_modDepot _ _ (fun _ => rfl) d u) l s

theorem State.updUnit_countWp (l : List Nat) (d u : Nat) : (s.countWp l).updUnit d u = s.updUnit d u :=
  State.foldl_keep (fun s => s.updUnit d u) _ (fun s _ => s.updUnit_modDepot _ _ (fun _ => rfl) d u) l s

@[simp] theorem State.updUnit_hbmTouch (off len : Nat) (m : Bool) (d u : Nat) : (s.hbmTouch off len m).updUnit d u = s.updUnit d u :=
  (State.updUnit_countUnmapped _ _ d u).trans
    (State.foldl_keep (fun s => s.updUnit d u) _ (fun s _ => s.updUnit_touchUnit _ m d u) _ s)

theorem State.updUnit_storeUnit (n lo : Nat) (bs : List (Byte × Bool)) (d u : Nat) :
    (s.storeUnit n lo bs).updUnit d u = s.updUnit d u := by
  unfold State.storeUnit
  dsimp only
  split
  · rfl
  · exact State.updUnit_codeCheck _ _ _ _ _ _ _

@[simp] theorem State.updUnit_hbmWrite (off : Nat) (data : List (Byte × Bool)) (wp : Bool) (d u : Nat) :
    (s.hbmWrite off data wp).updUnit d u = s.updUnit d u := by
  unfold State.hbmWrite
  refine (State.updUnit_countWp _ _ d u).trans ((State.updUnit_countUnmapped _ _ d u).trans ?_)
  generalize unitSpan off data.length = l
  refine foldl_keep_of (fun a : State × List (Byte × Bool) => a.1.updUnit d u) _ (fun a x => ?_) l (s, data)
  dsimp only
  split
  · exact State.updUnit_storeUnit _ _ _ _ _ _
  · rfl

end

/-! ### The handoff -/

section
variable {s : State}

theorem State.sendScheduled_getD_ports (s : State) (src detail dest : Nat) (r : Rec) :
    ∃ ps, (s.sendScheduled src detail dest r).getD s = { s with ports := ps } := by
  cases h : s.sendScheduled src detail dest r with
  | none => exact ⟨s.ports, rfl⟩
  | some u => exact ⟨u.ports, State.sendScheduled_ports h⟩

/-- A toll to the senders is about the die network and the ports. -/
theorem State.grantSenders_eq (s : State) (d : RedDesc) : ∃ n ps, s.grantSenders d = { s with net := n, ports := ps } := by
  have hstep : ∀ (s : State) r, ∃ n ps, (if refChip r = s.position then { s with net := s.net ++ [.signal ⟨none, r, 1⟩] }
      else (s.sendScheduled 2 d.depot (refChip r) (.signal ⟨0xFF, 1, r⟩)).getD s) = { s with net := n, ports := ps } := by
    intro s r
    split
    · exact ⟨_, s.ports, rfl⟩
    · obtain ⟨ps, h⟩ := s.sendScheduled_getD_ports 2 d.depot (refChip r) (.signal ⟨0xFF, 1, r⟩)
      exact ⟨s.net, ps, h⟩
  unfold State.grantSenders
  generalize d.senders = l
  induction l generalizing s with
  | nil => exact ⟨s.net, s.ports, rfl⟩
  | cons r l ih =>
    obtain ⟨n, ps, h⟩ := hstep s r
    obtain ⟨n', ps', h'⟩ := ih { s with net := n, ports := ps }
    exact ⟨n', ps', (congrArg (List.foldl _ · l) h).trans h'⟩

theorem State.redBlock_releaseRed (s : State) (d : RedDesc) (block : Nat) : ((s.releaseRed d block).redBlock d.rid block).released = true := by
  unfold State.releaseRed
  dsimp only
  obtain ⟨n, ps, h⟩ := State.grantSenders_eq _ d
  rw [h]
  exact congrArg RedBlock.released (SMap.get_set_self _ (redKey d.rid block) _ {})

theorem State.updUnit_releaseRed (s : State) (r : RedDesc) (block d u : Nat) :
    (s.releaseRed r block).updUnit d u = s.updUnit d u := by
  unfold State.releaseRed
  dsimp only
  obtain ⟨n, ps, h⟩ := State.grantSenders_eq _ r
  rw [h]
  rfl

theorem exec_updateHandoff_next {rid block i : Nat} {r : RedDesc} {d : UpdDesc} (hr : s.sumDesc rid = some r)
    (hd : s.updOf rid = some (i, d)) (h1 : r.dispose = 1) (hc : (s.redBlock rid block).complete = true)
    (hdi : (s.redBlock rid block).disposed = false) (hl : (s.redBlock rid block).logAcked = true)
    (hre : (s.redBlock rid block).released = false)
    (hroom : (s.updUnit d.depot (s.updStack d block s.step.toNat)).room = true) :
    exec (.updateHandoff rid block) s = .next
      ((s.feedUnit i d block s.step (gradLanes r.outFmt (s.redBlock rid block).rounded) false).releaseRed r block) := by
  change execUpdateHandoff rid block s = _
  unfold execUpdateHandoff
  rw [hr, hd]
  exact congrArg Host.Outcome.next (if_pos ⟨h1, hc, by simp [hdi], hl, by simp [hre], hroom⟩)

theorem State.rid_of_sumDesc {rid : Nat} {r : RedDesc} (h : s.sumDesc rid = some r) : r.rid = rid := by
  have := List.find?_some h
  simp only [Bool.and_eq_true, decide_eq_true_eq] at this
  exact this.1

end

/-! ### The update -/

section
variable {s : State} {d u : Nat} {b : UBlock} {l : List UBlock} {x : UpdDesc}

@[simp] theorem State.updUnit_arrayTouch (s : State) (f b len d u : Nat) : (s.arrayTouch f b len).updUnit d u = s.updUnit d u :=
  State.foldl_keep (fun s => s.updUnit d u) _ (fun s _ => s.updUnit_hbmTouch _ _ _ d u) _ s

theorem State.HbmOnly.arrayTouch (s : State) (f b len : Nat) : s.HbmOnly (s.arrayTouch f b len) :=
  State.HbmOnly.fold _ (fun _ _ => State.HbmOnly.touch _ _ _ _) _ s

/-- The state after a block's arrays have been read. -/
def State.blockTouch (s : State) (x : UpdDesc) (b : UBlock) : State :=
  (s.blockReads x (b.block % (((s.sumDesc x.rid).map RedDesc.nblocks).getD 1) * s.updElems x) (s.updElems x)
    (x.readSet b.step.toNat)).foldl (fun s k => s.arrayTouch k.1 k.2.1 k.2.2) s

theorem State.updUnit_blockTouch (s : State) (x : UpdDesc) (b : UBlock) (d u : Nat) :
    (s.blockTouch x b).updUnit d u = s.updUnit d u :=
  State.foldl_keep (fun s => s.updUnit d u) _ (fun s _ => s.updUnit_arrayTouch _ _ _ d u) _ s

theorem State.blockTouch_bytes (s : State) (x : UpdDesc) (b : UBlock) : (s.blockTouch x b).hbm.bytes = s.hbm.bytes :=
  State.foldl_keep (fun s => s.hbm.bytes) _ (fun s _ => s.arrayTouch_bytes _ _ _) _ s

theorem State.HbmOnly.blockTouch (s : State) (x : UpdDesc) (b : UBlock) : s.HbmOnly (s.blockTouch x b) :=
  State.HbmOnly.fold _ (fun s _ => State.HbmOnly.arrayTouch s _ _ _) _ s

theorem exec_updateBlock_group {g : UpdGroup} {r : UpdResult} (hq : (s.updUnit d u).queue = b :: l) (hx : s.upds[b.desc]? = some x)
    (hw : b.written = false) (hg : s.blockGroup x b = some g) (hr : s.updCompute x g b.block b.step b.data = some r) :
    exec (.updateBlock d u) s = .next ((((s.blockTouch x b).setHead d u
          { b with written := true, writes := r.writes }).depotFlags d r.flags).modDepot d fun y =>
        { y with updTSat := y.updTSat || r.tSat }) := by
  change execUpdateBlock d u s = _
  unfold execUpdateBlock
  rw [hq]
  dsimp only
  rw [hx]
  dsimp only
  rw [if_neg (by simp [hw]), hg]
  dsimp only
  rw [hr]
  rfl

theorem exec_updateBlock_noGroup (hq : (s.updUnit d u).queue = b :: l) (hx : s.upds[b.desc]? = some x)
    (hw : b.written = false) (hg : s.blockGroup x b = none) :
    exec (.updateBlock d u) s = .next ((s.setHead d u { b with written := true, skip := true }).modDepot d fun y =>
      { y with updBadGroup := true, badGroupCount := y.badGroupCount + 1 }) := by
  change execUpdateBlock d u s = _
  unfold execUpdateBlock
  rw [hq]
  dsimp only
  rw [hx]
  dsimp only
  rw [if_neg (by simp [hw]), hg]

theorem State.badGroupCount_setHead (s : State) (d u : Nat) (b : UBlock) :
    ((s.setHead d u b).depot d).badGroupCount = (s.depot d).badGroupCount := by
  unfold State.setHead State.modUpd State.modStack
  rw [State.depot_modDepot]

theorem State.queue_setHead (s : State) (d u : Nat) (b : UBlock) {y : UBlock} (hq : (s.updUnit d u).queue = y :: l) :
    ((s.setHead d u b).updUnit d u).queue = b :: l := by
  unfold State.setHead
  rw [State.updUnit_modUpd]
  exact congrArg (fun q => b :: List.drop 1 q) hq

end

/-! ### Written back -/

section
variable {s : State} {d u : Nat} {b : UBlock} {l : List UBlock} {x : UpdDesc}

theorem State.updArrive_eq (s : State) (i : Nat) (d : UpdDesc) : ∃ a t n ps,
    s.updArrive i d = { s with updDone := a, updTag := t, net := n, ports := ps } := by
  unfold State.updArrive
  dsimp only
  split
  · exact ⟨_, s.updTag, s.net, s.ports, rfl⟩
  · unfold State.agentArrive
    exact ⟨_, _, _, _, if_pos rfl⟩

/-- The state after a block's writes have reached HBM and its counters, before its agent arrives. -/
def State.blockDone (s : State) (d u : Nat) (b : UBlock) (x : UpdDesc) : State :=
  (b.writes.foldl (fun (s : State) w => s.hbmWrite w.1 w.2 true) { s with freeCtr := s.freeCtr + 1 }).modUpd d u fun y =>
    y.finish b (s.updElems x) (Config.freeValue s.freeCtr % 2 ^ 32)

theorem exec_blockWrittenBack_done (hq : (s.updUnit d u).queue = b :: l) (hx : s.upds[b.desc]? = some x) (hw : b.written = true)
    (hc : (b.writes.any fun w => s.cairnHolds (w.1 / 2 ^ 19)) = false) :
    exec (.blockWrittenBack d u) s =
      .next (if b.replay then s.blockDone d u b x else (s.blockDone d u b x).updArrive b.desc x) := by
  change execBlockWrittenBack d u s = _
  unfold execBlockWrittenBack
  rw [hq]
  dsimp only
  rw [hx]
  dsimp only
  rw [if_neg (by simp [hw]), if_neg (by simp only [hc, Bool.false_eq_true, not_false_eq_true])]
  rfl

theorem exec_blockWrittenBack_hold (hq : (s.updUnit d u).queue = b :: l) (hx : s.upds[b.desc]? = some x) (hw : b.written = true)
    (hc : (b.writes.any fun w => s.cairnHolds (w.1 / 2 ^ 19)) = true) :
    exec (.blockWrittenBack d u) s =
      .next (s.modUpd d u fun y => { y with cairnHold := true, cairnWait := y.cairnWait + 1 }) := by
  change execBlockWrittenBack d u s = _
  unfold execBlockWrittenBack
  rw [hq]
  dsimp only
  rw [hx]
  dsimp only
  rw [if_neg (by simp [hw]), if_pos hc]

theorem State.updUnit_blockDone (s : State) (d u : Nat) (b : UBlock) (x : UpdDesc) : (s.blockDone d u b x).updUnit d u =
    (s.updUnit d u).finish b (s.updElems x) (Config.freeValue s.freeCtr % 2 ^ 32) := by
  unfold State.blockDone
  rw [State.updUnit_modUpd, State.foldl_keep (fun s => s.updUnit d u) _ (fun s _ => s.updUnit_hbmWrite _ _ _ d u)]
  rfl

theorem State.blockDone_hbm (s : State) (d u : Nat) (b : UBlock) (x : UpdDesc) : (s.blockDone d u b x).hbm =
    (b.writes.foldl (fun (s : State) w => s.hbmWrite w.1 w.2 true) { s with freeCtr := s.freeCtr + 1 }).hbm := rfl

theorem State.blockDone_eq (s : State) (d u : Nat) (b : UBlock) (x : UpdDesc) : ∃ hb dp ro n,
    s.blockDone d u b x = { s with hbm := hb, depots := dp, reportsOut := ro, freeCtr := n } := by
  have hw : State.HbmOnly { s with freeCtr := s.freeCtr + 1 }
      (b.writes.foldl (fun (s : State) w => s.hbmWrite w.1 w.2 true) { s with freeCtr := s.freeCtr + 1 }) :=
    State.HbmOnly.fold _ (fun _ _ => State.HbmOnly.write _ _ _ _) _ _
  unfold State.blockDone
  generalize List.foldl _ _ _ = v at *
  rw [hw]
  exact ⟨_, _, _, _, rfl⟩

/-- What a block written back leaves. -/
theorem State.writtenBack_eq (s : State) (d u : Nat) (b : UBlock) (x : UpdDesc) : ∃ dp ro n a tg nt ps,
    (if b.replay then s.blockDone d u b x else (s.blockDone d u b x).updArrive b.desc x) = { s with
      hbm := (s.blockDone d u b x).hbm, depots := dp, reportsOut := ro, freeCtr := n, updDone := a, updTag := tg, net := nt,
      ports := ps } ∧ dp = (s.blockDone d u b x).depots := by
  obtain ⟨hb, dp, ro, n, h⟩ := s.blockDone_eq d u b x
  rw [h]
  split
  · exact ⟨_, _, _, _, _, _, _, rfl, rfl⟩
  · obtain ⟨a, tg, nt, ps, ha⟩ := State.updArrive_eq
      { s with hbm := hb, depots := dp, reportsOut := ro, freeCtr := n } b.desc x
    exact ⟨_, _, _, _, _, _, _, ha, rfl⟩

end

/-- Settles O60: the touches and writes of HBM keep every unit, so that the block at a unit's head goes through it alone. -/
theorem updateResults : Obligations.UpdateResults := by
  unfold Obligations.UpdateResults
  intro s
  refine ⟨fun rid block r i d hr hd h1 => ?handoff, fun d u b l x g hq hx hw hg r hr => ?update,
    fun d u b l x hq hx hw hg => ?noGroup, fun d u b l x hq hx hw hc => ?writtenBack, fun d u b l x hq hx hw hc => ?hold⟩
  case handoff =>
    intro b hc hdi hl hre hroom
    have hrun := exec_updateHandoff_next hr hd h1 hc hdi hl hre hroom
    refine ⟨hrun, _, hrun, ?_, ?_⟩
    · rw [← State.rid_of_sumDesc hr]
      exact State.redBlock_releaseRed _ _ _
    · rw [State.updUnit_releaseRed]
      exact congrArg UpdUnit.queue (State.updUnit_modUpd _ _ _ _)
  case update =>
    refine ⟨_, { b with written := true, writes := r.writes }, exec_updateBlock_group hq hx hw hg hr, ?_, rfl, rfl, ?_, ?_⟩
    · rw [State.updUnit_modDepot _ _ _ fun _ => rfl, State.depotFlags, State.updUnit_modDepot _ _ _ fun _ => rfl]
      exact State.queue_setHead _ _ _ _ ((congrArg UpdUnit.queue (s.updUnit_blockTouch x b d u)).trans hq)
    · exact s.blockTouch_bytes x b
    · have hf := State.HbmOnly.blockTouch s x b
      generalize s.blockTouch x b = v at *
      rw [hf]
      rfl
  case noGroup =>
    refine ⟨_, { b with written := true, skip := true }, exec_updateBlock_noGroup hq hx hw hg, ?_, rfl, rfl, rfl, ?_, ?_, rfl⟩
    · rw [State.updUnit_modDepot _ _ _ fun _ => rfl]
      exact State.queue_setHead _ _ _ _ hq
    · rw [State.depot_modDepot]
    · rw [State.depot_modDepot]
      exact congrArg (· + 1) (s.badGroupCount_setHead d u _)
  case writtenBack =>
    obtain ⟨dp, ro, n, a, tg, nt, ps, ht, hdp⟩ := s.writtenBack_eq d u b x
    refine ⟨_, (exec_blockWrittenBack_done hq hx hw hc).trans (congrArg Host.Outcome.next ht), ?_, ?_, s.blockDone_hbm d u b x, rfl⟩
    · rw [State.updUnit_congr (s := s.blockDone d u b x) hdp, State.updUnit_blockDone]
      exact congrArg (List.drop 1) hq
    · rw [State.updUnit_congr (s := s.blockDone d u b x) hdp, State.updUnit_blockDone]
      rfl
  case hold =>
    exact ⟨_, exec_blockWrittenBack_hold hq hx hw hc, State.updUnit_modUpd _ _ _ _, rfl⟩

end Sys2Proof.Machine
end
